-- ==== Sys2Proof/Word.lean ====
section
/-! DEFINITION. The words the block is made of. -/

namespace Sys2Proof

/-- A register value or a g register (R6, R70). -/
abbrev Word := BitVec 64

/-- A byte of memory. -/
abbrev Byte := BitVec 8

/-- Sparse data: pairs of a key and a value, keys strictly rising, no value equal to the default
that an unlisted key reads as. -/
abbrev KMap (β : Type) := List (Nat × β)

/-- A register: its physical address (R4) and its value after reset. -/
structure Reg where
  addr : Nat
  reset : Word
  deriving DecidableEq, Repr

end Sys2Proof
end

