-- ==== Sys2Proof/Syntax.lean ====
section
/-! DEFINITION. The commands: one constructor per row of the table of operations and events, with
the row's operands; the encoding fields of the cue instructions as R104 lays them out. -/

namespace Sys2Proof

/-- A hardware context: slice, core, context (R15, R70). -/
structure CtxId where
  slice : Fin 4
  core : Fin 8
  ctx : Fin 4
  deriving DecidableEq, Repr

/-- Who accesses a register (R6, R8). -/
inductive Req
  | host | renro
  deriving DecidableEq, Repr

/-- What the ECC of an access finds in the first line it reads (R174): an observation the
environment supplies.  `flips`: nothing there; but bits of these lines of DRAM (address / 64) have
flipped, a single one or beyond correction, and the next access of each will find it. -/
inductive Ecc
  | clean | corrected | uncorrectable
  | flips (lines : List (BitVec 29 × Bool))
  deriving DecidableEq, Repr

/-- A training set as received (R234): bad, TP1 or TP2. -/
inductive TrainSet
  | bad | tp1 | tp2
  deriving DecidableEq, Repr
/-- The training sets that a port has received since the last report (R234). -/
structure RxSets where
  port : Fin 32
  sets : List TrainSet
  deriving DecidableEq, Repr
/-- Consecutive code groups received (R232), and the running disparity the first of them met. -/
structure RxGroups where
  disp : Bool
  groups : List (BitVec 10)
  deriving DecidableEq, Repr
/-- A MGMT access to a frame store (R217, R218): a write of a value, or a read, which may meet a
single-bit error. -/
inductive StoreAcc
  | write (v : Word) | read (ce : Bool)
  deriving DecidableEq, Repr

/-- How the copies of a settings generation read at a boot (R408, R452): an observation. -/
structure GenCheck where
  gen : BitVec 32
  ok0 : Bool
  ok1 : Bool
  same : Bool
  deriving DecidableEq, Repr

/-- A change of the settings that no register write of the host makes (R452): AUTOSTART, TIME_WAIT
in s, FATAL_RESTART, FAULT_HOLD in ms, the stored value of a register, by its offset in register
space, or the PTP stack (R269): whether it is enabled, peer-to-peer delay, IEEE 802.3 transport,
domain, announceReceiptTimeout, the VLAN ID of a tag. -/
inductive SetObj
  | autostart (on : Bool)
  | timeWait (sec : BitVec 16)
  | fatalRestart (on : Bool)
  | faultHold (ms : BitVec 16)
  | reg (off : BitVec 26) (v : BitVec 64)
  | ptp (on p2p ether : Bool) (domain : BitVec 7) (announce : Fin 9) (vlan : Option (BitVec 12))
  deriving DecidableEq, Repr

/-- What one supervisor lane drives (R315): the role, sink ownership, ILK_OUT, the claim-change strobe
and the beat contents. -/
structure LaneOut where
  role : Fin 5
  sinks : Bool
  ilk : Bool
  strobe : Bool
  beat : List Byte
  deriving DecidableEq, Repr

/-- What start-up meets and what Renro picks (R425): do the slots' images pass R443, how the copies of
the settings generations read, the object a migration rejects; the page of Renro memory at which
the tables begin; the MAC addresses of U0, U1, M0, T0; the bytes of the stored show image and the
image ID, ASID and offset in DRAM under which it is put (DESIGN CHOICE, log entry 63). -/
structure StartUp where
  slotA : Bool
  slotB : Bool
  copies : List GenCheck
  fails : Option (BitVec 16)
  tables : BitVec 15
  macs : List (BitVec 48)
  image : List Byte
  id : BitVec 6
  asid : BitVec 16
  place : BitVec 33
  deriving DecidableEq, Repr

/-! ### Encoding fields (R104, R105)

`ext` is the extension word of an instruction whose X bit is 1. -/

/-- REG format. -/
structure RegF where
  rd : Fin 32
  ra : Fin 32
  rb : Fin 32
  deriving DecidableEq, Repr

/-- IMM format. -/
structure ImmF where
  rd : Fin 32
  ra : Fin 32
  imm10 : BitVec 10
  ext : Option (BitVec 32)
  deriving DecidableEq, Repr

/-- BR format. -/
structure BrF where
  ra : Fin 32
  rb : Fin 32
  off10 : BitVec 10
  ext : Option (BitVec 32)
  deriving DecidableEq, Repr

/-- Atomics (R117): REG with fn[10] D and fn[9:4]. -/
structure AmoF where
  rd : Fin 32
  ra : Fin 32
  rb : Fin 32
  dbl : Bool
  z : BitVec 6
  deriving DecidableEq, Repr

/-- VEC format. -/
structure VecF where
  vd : Fin 32
  va : Fin 32
  vb : Fin 32
  pk : Fin 8
  deriving DecidableEq, Repr

/-- Vector arithmetic (R118): VEC with fn[7] S, fn[6] X, fn[5] W. -/
structure VecAF where
  vd : Fin 32
  va : Fin 32
  vb : Fin 32
  pk : Fin 8
  scalar : Bool
  wide : Bool
  ext : Option (BitVec 32)
  deriving DecidableEq, Repr

/-- Vector pixel (R120): VEC with fn[7:5]. -/
structure VecXF where
  vd : Fin 32
  va : Fin 32
  vb : Fin 32
  pk : Fin 8
  z : BitVec 3
  deriving DecidableEq, Repr

/-- Vector permute and reduce (R122): VEC with fn[7] W. -/
structure VecPF where
  vd : Fin 32
  va : Fin 32
  vb : Fin 32
  pk : Fin 8
  wide : Bool
  deriving DecidableEq, Repr

/-- Vector memory (R123): VEC with fn[7] W, fn[6] X, fn[2:0]. -/
structure VecMF where
  vd : Fin 32
  ra : Fin 32
  vb : Fin 32
  pk : Fin 8
  wide : Bool
  ext : Option (BitVec 32)
  z : BitVec 3
  deriving DecidableEq, Repr

/-- Task and sync (R129): REG with fn[10] NB and fn[9:4]. -/
structure TaskF where
  rd : Fin 32
  ra : Fin 32
  rb : Fin 32
  nb : Bool
  z : BitVec 6
  deriving DecidableEq, Repr

/-- CRC feed (R136): REG with fn[10:8], fn[3:2] and the unit. -/
structure CrcF where
  rd : Fin 32
  ra : Fin 32
  rb : Fin 32
  z : BitVec 3
  y : BitVec 2
  unit : Fin 4
  deriving DecidableEq, Repr

/-- System (R138): IMM with num in [10:0]. -/
structure SysF where
  rd : Fin 32
  ra : Fin 32
  num : BitVec 11
  deriving DecidableEq, Repr

/-- The commands of the block: one per row of the table of operations and events. -/
inductive Instr
  /- Registers, commit and frame timing -/
  | registerWrite (who : Req) (off : BitVec 26) (wide : Bool) (v : Word)
  | lowHalfWrite (who : Req) (off : BitVec 26) (v : BitVec 32)
  | lowHalfRead (who : Req) (off : BitVec 26)
  | rcRead (who : Req) (off : BitVec 26) (wide completes : Bool)
  | winWrite (who : Req) (off : BitVec 26) (wide : Bool) (v : Word)
  | shdCommit (grp : Fin 5) (who : Req) (v : BitVec 32)
  | slcRunSet (slice : Fin 4) (who : Req)
  | slcRunClear (slice : Fin 4) (who : Req)
  | slcCommitCfgWrite (slice : Fin 4) (who : Req) (v : BitVec 32)
  | timelineArm (who : Req)
  | timelineStop (who : Req)
  | frameStart (slice : Fin 4) (bad : List (BitVec 22)) (ce : BitVec 16)
  | commitPoint (slice : Fin 4)
  | telemetryCopyDone (slice : Fin 4)
  | vblankStart (p : Fin 32)
  | lineMatch (p : Fin 32)
  | frameDone (p : Fin 32)
  | completionMarkWrite (slice : Fin 4)
  | tstWriteArrive (slice : Fin 4)
  | storeMgmtWrite (slice : Fin 4) (off : BitVec 25) (wide : Bool) (v : StoreAcc)
  /- Cue instructions: scalar -/
  | add (c : CtxId) (f : RegF)
  | sub (c : CtxId) (f : RegF)
  | andG (c : CtxId) (f : RegF)
  | orG (c : CtxId) (f : RegF)
  | xor (c : CtxId) (f : RegF)
  | andn (c : CtxId) (f : RegF)
  | sll (c : CtxId) (f : RegF)
  | srl (c : CtxId) (f : RegF)
  | sra (c : CtxId) (f : RegF)
  | slt (c : CtxId) (f : RegF)
  | sltu (c : CtxId) (f : RegF)
  | min (c : CtxId) (f : RegF)
  | minu (c : CtxId) (f : RegF)
  | max (c : CtxId) (f : RegF)
  | maxu (c : CtxId) (f : RegF)
  | clz (c : CtxId) (f : RegF)
  | ctz (c : CtxId) (f : RegF)
  | popc (c : CtxId) (f : RegF)
  | sextB (c : CtxId) (f : RegF)
  | sextH (c : CtxId) (f : RegF)
  | sextW (c : CtxId) (f : RegF)
  | zextW (c : CtxId) (f : RegF)
  | mtp (c : CtxId) (f : RegF)
  | mfp (c : CtxId) (f : RegF)
  | pand (c : CtxId) (f : RegF)
  | por (c : CtxId) (f : RegF)
  | pxor (c : CtxId) (f : RegF)
  | pandn (c : CtxId) (f : RegF)
  | addi (c : CtxId) (f : ImmF)
  | andi (c : CtxId) (f : ImmF)
  | ori (c : CtxId) (f : ImmF)
  | xori (c : CtxId) (f : ImmF)
  | slti (c : CtxId) (f : ImmF)
  | sltiu (c : CtxId) (f : ImmF)
  | slli (c : CtxId) (f : ImmF)
  | srli (c : CtxId) (f : ImmF)
  | srai (c : CtxId) (f : ImmF)
  | orhi (c : CtxId) (f : ImmF)
  | mul (c : CtxId) (f : RegF)
  | mulh (c : CtxId) (f : RegF)
  | mulhu (c : CtxId) (f : RegF)
  | mulhsu (c : CtxId) (f : RegF)
  | beq (c : CtxId) (f : BrF)
  | bne (c : CtxId) (f : BrF)
  | blt (c : CtxId) (f : BrF)
  | bge (c : CtxId) (f : BrF)
  | bltu (c : CtxId) (f : BrF)
  | bgeu (c : CtxId) (f : BrF)
  | bpany (c : CtxId) (f : BrF)
  | bpall (c : CtxId) (f : BrF)
  | bpnone (c : CtxId) (f : BrF)
  | call (c : CtxId) (f : ImmF)
  | callr (c : CtxId) (f : ImmF)
  | jr (c : CtxId) (f : ImmF)
  | ldB (c : CtxId) (f : ImmF)
  | ldBu (c : CtxId) (f : ImmF)
  | ldH (c : CtxId) (f : ImmF)
  | ldHu (c : CtxId) (f : ImmF)
  | ldW (c : CtxId) (f : ImmF)
  | ldWu (c : CtxId) (f : ImmF)
  | ldD (c : CtxId) (f : ImmF)
  | stB (c : CtxId) (f : ImmF)
  | stH (c : CtxId) (f : ImmF)
  | stW (c : CtxId) (f : ImmF)
  | stD (c : CtxId) (f : ImmF)
  | amoSwap (c : CtxId) (f : AmoF)
  | amoAdd (c : CtxId) (f : AmoF)
  | amoAnd (c : CtxId) (f : AmoF)
  | amoOr (c : CtxId) (f : AmoF)
  | amoXor (c : CtxId) (f : AmoF)
  | amoMin (c : CtxId) (f : AmoF)
  | amoMax (c : CtxId) (f : AmoF)
  | amoMinu (c : CtxId) (f : AmoF)
  | amoMaxu (c : CtxId) (f : AmoF)
  | cas (c : CtxId) (f : AmoF)
  | atomicComplete (c : CtxId) (e : Ecc)
  /- Cue instructions: vector -/
  | vadd (c : CtxId) (f : VecAF)
  | vsub (c : CtxId) (f : VecAF)
  | vadds (c : CtxId) (f : VecAF)
  | vsubs (c : CtxId) (f : VecAF)
  | vmul (c : CtxId) (f : VecAF)
  | vmulhu (c : CtxId) (f : VecAF)
  | vminu (c : CtxId) (f : VecAF)
  | vmaxu (c : CtxId) (f : VecAF)
  | vmin (c : CtxId) (f : VecAF)
  | vmax (c : CtxId) (f : VecAF)
  | vand (c : CtxId) (f : VecAF)
  | vor (c : CtxId) (f : VecAF)
  | vxor (c : CtxId) (f : VecAF)
  | vandn (c : CtxId) (f : VecAF)
  | vsll (c : CtxId) (f : VecAF)
  | vsrl (c : CtxId) (f : VecAF)
  | vsra (c : CtxId) (f : VecAF)
  | vabsdu (c : CtxId) (f : VecAF)
  | vavgu (c : CtxId) (f : VecAF)
  | vmov (c : CtxId) (f : VecAF)
  | vsel (c : CtxId) (f : VecAF)
  | vcmpEq (c : CtxId) (f : VecAF)
  | vcmpNe (c : CtxId) (f : VecAF)
  | vcmpLtu (c : CtxId) (f : VecAF)
  | vcmpLeu (c : CtxId) (f : VecAF)
  | vcmpLt (c : CtxId) (f : VecAF)
  | vcmpLe (c : CtxId) (f : VecAF)
  | vmulFx (c : CtxId) (f : VecXF)
  | vmadFx (c : CtxId) (f : VecXF)
  | vblend (c : CtxId) (f : VecXF)
  | vlutN (c : CtxId) (f : VecXF)
  | vlutI (c : CtxId) (f : VecXF)
  | vcvtFxU8 (c : CtxId) (f : VecXF)
  | vcvtU8Fx (c : CtxId) (f : VecXF)
  | vcvtFxU16 (c : CtxId) (f : VecXF)
  | vcvtU16Fx (c : CtxId) (f : VecXF)
  | vcvtFxF16 (c : CtxId) (f : VecXF)
  | vcvtF16Fx (c : CtxId) (f : VecXF)
  | vcvtFxU10 (c : CtxId) (f : VecXF)
  | vperm (c : CtxId) (f : VecPF)
  | vbcast (c : CtxId) (f : VecPF)
  | vext (c : CtxId) (f : VecPF)
  | vins (c : CtxId) (f : VecPF)
  | vzipLo (c : CtxId) (f : VecPF)
  | vzipHi (c : CtxId) (f : VecPF)
  | vuzpEv (c : CtxId) (f : VecPF)
  | vuzpOd (c : CtxId) (f : VecPF)
  | vredAddu (c : CtxId) (f : VecPF)
  | vredMaxu (c : CtxId) (f : VecPF)
  | vredMinu (c : CtxId) (f : VecPF)
  | vcompress (c : CtxId) (f : VecPF)
  | vslide (c : CtxId) (f : VecPF) (amount : Fin 32)
  | vld (c : CtxId) (f : VecMF)
  | vst (c : CtxId) (f : VecMF)
  | vgather (c : CtxId) (f : VecMF)
  | vscatter (c : CtxId) (f : VecMF)
  /- Cue instructions: tile, task, CRC and system -/
  | tld (c : CtxId) (f : VecF) (layer : Fin 16)
  | tst (c : CtxId) (f : VecF) (z : BitVec 4)
  | tcommit (c : CtxId) (f : VecF) (z : BitVec 4)
  | spawn (c : CtxId) (f : TaskF)
  | enq (c : CtxId) (f : TaskF)
  | tcancel (c : CtxId) (f : TaskF)
  | doneTask (c : CtxId) (f : TaskF)
  | yieldTask (c : CtxId) (f : TaskF)
  | waitTime (c : CtxId) (f : TaskF)
  | waitEv (c : CtxId) (f : TaskF)
  | post (c : CtxId) (f : TaskF)
  | crcB (c : CtxId) (f : CrcF)
  | crcH (c : CtxId) (f : CrcF)
  | crcW (c : CtxId) (f : CrcF)
  | crcV (c : CtxId) (f : CrcF)
  | crcGet (c : CtxId) (f : CrcF)
  | crcPut (c : CtxId) (f : CrcF)
  | crcFin (c : CtxId) (f : CrcF)
  | mfs (c : CtxId) (f : SysF)
  | mts (c : CtxId) (f : SysF)
  | fenceRel (c : CtxId) (rd ra : Fin 32)
  | fenceAcq (c : CtxId) (rd ra : Fin 32)
  | fence (c : CtxId) (f : SysF)
  | trap (c : CtxId) (f : SysF)
  | halt (c : CtxId) (f : SysF)
  /- Contexts, layers and the scheduler -/
  | mcheck (c : CtxId) (structure_ : BitVec 8) (firmware : Bool)
  | contextStallClear (c : CtxId)
  | loadMissReturn (c : CtxId) (e : Ecc)
  | storeDrain (c : CtxId)
  | waitDeadline (c : CtxId)
  | tileDelivery (slice : Fin 4) (layer : Fin 16) (e : Ecc)
  | fetchRequestTaken (slice : Fin 4) (layer : Fin 16)
  | readahead (slice : Fin 4) (layer : Fin 16)
  | frameRetired (slice : Fin 4)
  | preemptionRequest (c : CtxId)
  | saveComplete (c : CtxId)
  | restoreComplete (c : CtxId) (e : Ecc)
  | schedulerCycle (slice : Fin 4)
  | releaseDrainDone (slice : Fin 4) (flow : Fin 64)
  | tickGridPoint (slice : Fin 4)
  | eventLineEdge (slice : Fin 4) (line : Fin 64)
  | submit (slice : Fin 4) (who : Req)
  | killHandle (slice : Fin 4) (who : Req) (handle : Word)
  | flowReset (slice : Fin 4) (flow : Fin 64) (who : Req)
  | coreCtrlWrite (slice : Fin 4) (core : Fin 8) (who : Req) (enable force : Bool)
  | drainSaveResume (c : CtxId)
  /- Memory, translation and DMA -/
  | faultRecordPost (block : Fin 5)
  | fqPop (block : Fin 5) (who : Req)
  | faultRespResume (block : Fin 5) (who : Req) (token : BitVec 16)
  | faultRespTerminate (block : Fin 5) (who : Req) (token : BitVec 16)
  | faultTimeout (block : Fin 5)
  | tlbiAll (block : Fin 5) (who : Req) (span : Fin 32) (asid : BitVec 16)
  | tlbiAsid (block : Fin 5) (who : Req) (span : Fin 32) (asid : BitVec 16)
  | tlbiAsidSpan (block : Fin 5) (who : Req) (span : Fin 32) (asid : BitVec 16)
  | tlbiSpan (block : Fin 5) (who : Req) (span : Fin 32) (asid : BitVec 16)
  | tlbiComplete (block : Fin 5)
  | scrubLineRead (slice : Fin 4) (e : Ecc)
  | doorbell (k : Fin 72) (who : Req)
  | dmaTrigger (k : Fin 64)
  | dmaBurst (engine : Fin 5) (e : Ecc)
  | dmaDescComplete (k : Fin 72)
  | dmaStop (k : Fin 72) (who : Req)
  | dmaStopComplete (k : Fin 72)
  | dmaEnableWrite (k : Fin 72) (who : Req) (v : Bool)
  /- Trunk -/
  | trunkEnable (p : Fin 32) (who : Req)
  | trunkDisable (p : Fin 32) (who : Req)
  | linkUp (p : RxSets)
  | trainFail (p : Fin 32)
  | trainRetry (p : Fin 32)
  | linkDown (p : Fin 32) (errs : RxGroups)
  | rxClkLoss (p : Fin 32)
  | echoArrival (p : Fin 32) (rtt : BitVec 20)
  | probeLost (p : Fin 32)
  | telemetryPacket (p : Fin 32) (bytes : List Byte)
  | nodeSeenExpiry (p : Fin 32) (k : Fin 64)
  | cmdPush (p : Fin 32) (who : Req)
  /- Time -/
  | timeSnap (who : Req)
  | servoSample (who : Req) (v : Word)
  | stepCmdStep (who : Req)
  | stepCmdSet (who : Req)
  | holdoverEnter
  | triggerFire (j : Fin 8)
  | triggerEnable (j : Fin 8) (who : Req) (v : BitVec 32)
  | tsqPop (p : Fin 4) (who : Req)
  | ltcFrame (tc ub : BitVec 32) (df cf rev : Bool) (rate : Fin 5) (back : BitVec 24)
  | ltcLost
  | ltcPop (who : Req)
  | frameInEdge (falling : Bool)
  | frameInLost
  /- Network ports -/
  | rxFrame (p : Fin 4) (bytes : List Byte) (full preamble fcs code : Bool) (back : BitVec 48)
  | rxNotifyTimer (p r : Fin 4)
  | rxrEnable (p r : Fin 4) (who : Req) (v : BitVec 32)
  | txFrameFetch (p r : Fin 4)
  | txFrameStart (p : Fin 4)
  | txFrameDone (p : Fin 4) (back : BitVec 48)
  | gateChange (p : Fin 4)
  | gclSwitchCmd (p : Fin 4) (who : Req)
  | gclSwitch (p : Fin 4)
  | pauseReceived (p : Fin 4) (q : BitVec 16)
  | pauseExpiry (p : Fin 4)
  /-- the bytes in the receive FIFO; the write queues of depacketiser flows, in 1/256 of their size -/
  | xoffEnter (p : Fin 4) (fifo : BitVec 19) (queues : List (Fin 32 × BitVec 9))
  | xoffRefresh (p : Fin 4)
  | xoffLeave (p : Fin 4) (fifo : BitVec 19) (queues : List (Fin 32 × BitVec 9))
  | netLinkUp (p : Fin 4) (pause : Bool)
  | netLinkDown (p : Fin 4) (speed : Bool)
  | depktPacket (f : Fin 32) (p : Fin 2) (udp : List Byte)
  | flowTimeout (f : Fin 32)
  | flowReleaseWrite (f : Fin 32) (who : Req) (v : BitVec 4)
  /- Twin operation -/
  | heartbeatSend
  | heartbeatReceived (path : Fin 2) (back : BitVec 32) (bytes : List Byte)
  | pathFail (path : Fin 2)
  | seekTimeout
  | laneDissent (lane : Fin 3) (out : LaneOut)
  | supervisorDisagree (g j t : Fin 5)
  | ilkInLive
  | ilkInStatic
  | sinkHandoverTake
  | switchCmd (who : Req) (v : BitVec 32)
  | mirrorFrameReceived (seq index : BitVec 32) (body : List Byte)
  /- LED drive and measurement, calibration -/
  | pwmPeriodStart (c : Fin 48)
  | pwmWrap
  | phaseReference
  | sinkSample (c : Fin 48) (regOk : Bool) (vsink : BitVec 8) (adjLo adjHi : Bool)
  | ledShortHard (c : Fin 48)
  | chClear (c : Fin 48) (who : Req)
  | derateUpdate
  | sinkPowerEstimate
  | headroomUpdate
  | convGo (u : Fin 2) (who : Req)
  | adcTrigger (u : Fin 2)
  | conversionDone (u : Fin 2) (codes : List (BitVec 16))
  | hkConversion (u : Fin 2) (raw : BitVec 16)
  | fifoPop (u : Fin 2) (who : Req)
  | calStartRef (who : Req) (vref : BitVec 32)
  | calStartOpen (who : Req) (vref iset : BitVec 32) (open_ : Bool) (bad : BitVec 48)
  | calStartJig (who : Req) (vref iset : BitVec 32) (open_ : Bool) (bad : BitVec 48)
  | calPulse (code : BitVec 32) (vref iset : BitVec 32)
  | calAbort (who : Req)
  | vrefRampStep
  /- Event recorder, check-value units -/
  | recordEnter (code sev origin inst : Nat) (payload : List Byte)
  | recordCommit
  | flushTimer
  | recFlush
  | recClear (who : Req) (key : BitVec 16)
  | clearDone
  | recDirectWrite (v : Bool)
  | recFreeze (v : Bool)
  | recFreezeTimeout
  | recRead (idx : BitVec 17)
  | recScanDone
  | hostLogSubmit
  | crcCfgWrite (u : Fin 20) (who : Req) (poly : Fin 4) (raw : Bool)
  | crcInit (u : Fin 20) (who : Req)
  | crcFeed8 (u : Fin 20) (who : Req) (v : BitVec 8)
  | crcFeed16 (u : Fin 20) (who : Req) (v : BitVec 16)
  | crcFeed32 (u : Fin 20) (who : Req) (v : BitVec 32)
  | crcValueWrite (u : Fin 20) (who : Req) (v : BitVec 32)
  /- Host, resets and start-up -/
  | hostUr (off : BitVec 26)
  | bar2Access (write : Bool) (off : BitVec 32) (len : BitVec 13) (data : List Byte) (e : Ecc)
  | bar2BaseWrite (who : Req) (v : Word)
  | vecAck (v : BitVec 6)
  | msixMessage (v : Fin 64)
  | loadImage (addr len : Word) (mask : BitVec 4) (id : BitVec 6) (asid : BitVec 16) (place : BitVec 33)
  | unloadImage (id : Word)
  | mapCmd (asid va pa len perm : Word)
  | unmapCmd (asid va len : Word)
  | setStream (stream asid enable : Word)
  | joinGroup (port : Word) (group : BitVec 32) (sources : List (BitVec 32))
  | leaveGroup (port : Word) (group : BitVec 32) (sources : List (BitVec 32))
  | readTlv (tlv : List Byte)
  | continueCmd
  | readSummary (slot addr : Word)
  | clearSummary (mask : Word)
  | mbxDone
  | notificationWrite (type : BitVec 8) (body : List Byte)
  | powerOnReset (charge : BitVec 32)
  | sysReset (who : Req) (v : BitVec 32)
  | hostReset (kind : Fin 4)
  | startupStep (u : StartUp)
  | gpiSample (n : Fin 8) (level : Bool)
  | gpiStuck (n : Fin 8)
  | watchdogExpiry
  | fatal (cause : Fin 6) (detail : List Byte)
  | dumpWritten (fw : List Byte)
  | fatalSummaryDone (fw : List Byte)
  | dumpAck (who : Req) (v : BitVec 32)
  /- Update and settings, power, and the rest -/
  | beginCmd (who : Req) (sig flash : Bool)
  | chunk (who : Req) (flash : Bool)
  | verify (who : Req) (sig hash tag : Bool)
  | activate (who : Req)
  | activationPause
  | activationResume (ok adopts : Bool) (copies : List GenCheck) (fails : Option (BitVec 16))
  | confirm (who : Req)
  | autoConfirm
  | revertCmd (who : Req)
  | abortCmd (who : Req)
  | settingsWrite (bytes : BitVec 32) (changes : List SetObj)
  | powerFail (vin power : BitVec 32)
  | shutOff
  | powerRestored
  | vinOver (vin : BitVec 32)
  | ovCutoff (peak : BitVec 32)
  | ovRejoin
  | pwrClear (who : Req)
  | rxClkReturn (p : Fin 32)
  | hostCompletionTimeout (h : Fin 8)
  | debuggerResume (slice : Fin 4) (desc : BitVec 12)
  | aonCopyRefresh
  | trialHealthySecond
  | announceReceiptTimeout (slave : Option (Fin 3)) (gm : Word) (traceable : Bool)
  | hostLinkUp (speed width : Fin 5)
  | updCmdDone
  deriving DecidableEq, Repr

end Sys2Proof
end

