-- ==== Sys2Proof/Decode.lean ====
section
/-! DEFINITION. What a cue instruction word spells (R104 to R138), and the decoder of table words.

A word is read by its major opcode, bits [31:26], and its format's fields.  Fields that must be 0
stay in the instruction: its meaning raises ILLEGAL where they are not (R107). -/

namespace Sys2Proof

/-! ### Fields (R104, R105) -/

/-- Bits lo + n - 1 .. lo of a word. -/
def bitsAt (w : BitVec 32) (lo n : Nat) : Nat := w.toNat / 2 ^ lo % 2 ^ n

def reg5 (w : BitVec 32) (lo : Nat) : Fin 32 := Fin.ofNat 32 (bitsAt w lo 5)
def fRd (w : BitVec 32) : Fin 32 := reg5 w 21
def fRa (w : BitVec 32) : Fin 32 := reg5 w 16
def fRb (w : BitVec 32) : Fin 32 := reg5 w 11
def fPk (w : BitVec 32) : Fin 8 := Fin.ofNat 8 (bitsAt w 8 3)

/-- R105: the extension word where the X bit is 1. -/
def extOf (on : Bool) (x : BitVec 32) : Option (BitVec 32) := if on then some x else none

def regOf (w : BitVec 32) : RegF := ⟨fRd w, fRa w, fRb w⟩
def immOfWord (w x : BitVec 32) : ImmF :=
  ⟨fRd w, fRa w, BitVec.ofNat 10 (bitsAt w 0 10), extOf (w.getLsbD 10) x⟩
def brOf (w x : BitVec 32) : BrF :=
  ⟨fRa w, fRb w, BitVec.ofNat 10 (bitsAt w 0 10), extOf (w.getLsbD 10) x⟩
def amoOf (w : BitVec 32) : AmoF :=
  ⟨fRd w, fRa w, fRb w, w.getLsbD 10, BitVec.ofNat 6 (bitsAt w 4 6)⟩
def vecAOf (w x : BitVec 32) : VecAF :=
  ⟨fRd w, fRa w, fRb w, fPk w, w.getLsbD 7, w.getLsbD 5, extOf (w.getLsbD 6) x⟩
def vecXOf (w : BitVec 32) : VecXF :=
  ⟨fRd w, fRa w, fRb w, fPk w, BitVec.ofNat 3 (bitsAt w 5 3)⟩
def vecPOf (w : BitVec 32) : VecPF := ⟨fRd w, fRa w, fRb w, fPk w, w.getLsbD 7⟩
def vecMOf (w x : BitVec 32) : VecMF :=
  ⟨fRd w, fRa w, fRb w, fPk w, w.getLsbD 7, extOf (w.getLsbD 6) x, BitVec.ofNat 3 (bitsAt w 0 3)⟩
def vecOfWord (w : BitVec 32) : VecF := ⟨fRd w, fRa w, fRb w, fPk w⟩
def taskOf (w : BitVec 32) : TaskF :=
  ⟨fRd w, fRa w, fRb w, w.getLsbD 10, BitVec.ofNat 6 (bitsAt w 4 6)⟩
def crcFOf (w : BitVec 32) : CrcF :=
  ⟨fRd w, fRa w, fRb w, BitVec.ofNat 3 (bitsAt w 8 3), BitVec.ofNat 2 (bitsAt w 2 2),
    Fin.ofNat 4 (bitsAt w 0 2)⟩
def sysOf (w : BitVec 32) : SysF := ⟨fRd w, fRa w, BitVec.ofNat 11 (bitsAt w 0 11)⟩

/-! ### Groups -/

/-- R111: major 0x00. -/
def aluReg (fn : Nat) : Option (CtxId → RegF → Instr) :=
  match fn with
  | 0x00 => some .add | 0x01 => some .sub | 0x02 => some .andG | 0x03 => some .orG
  | 0x04 => some .xor | 0x05 => some .andn | 0x06 => some .sll | 0x07 => some .srl
  | 0x08 => some .sra | 0x09 => some .slt | 0x0A => some .sltu | 0x0B => some .min
  | 0x0C => some .minu | 0x0D => some .max | 0x0E => some .maxu | 0x0F => some .clz
  | 0x10 => some .ctz | 0x11 => some .popc | 0x12 => some .sextB | 0x13 => some .sextH
  | 0x14 => some .sextW | 0x15 => some .zextW | 0x40 => some .mtp | 0x41 => some .mfp
  | 0x42 => some .pand | 0x43 => some .por | 0x44 => some .pxor | 0x45 => some .pandn
  | _ => none

/-- R112: major 0x01. -/
def aluImm (op : Nat) : Option (CtxId → ImmF → Instr) :=
  match op with
  | 0 => some .addi | 1 => some .andi | 2 => some .ori | 3 => some .xori | 4 => some .slti
  | 5 => some .sltiu | 6 => some .slli | 7 => some .srli | 8 => some .srai | 9 => some .orhi
  | _ => none

/-- R113: major 0x02. -/
def mulReg (fn : Nat) : Option (CtxId → RegF → Instr) :=
  match fn with
  | 0 => some .mul | 1 => some .mulh | 2 => some .mulhu | 3 => some .mulhsu
  | _ => none

/-- R114: major 0x04. -/
def branchOf (cond : Nat) : Option (CtxId → BrF → Instr) :=
  match cond with
  | 0 => some .beq | 1 => some .bne | 2 => some .blt | 3 => some .bge | 4 => some .bltu
  | 5 => some .bgeu | 8 => some .bpany | 9 => some .bpall | 10 => some .bpnone
  | _ => none

/-- R115: major 0x05. -/
def callOf (op : Nat) : Option (CtxId → ImmF → Instr) :=
  match op with
  | 0 => some .call | 1 => some .callr | 2 => some .jr
  | _ => none

/-- R116: majors 0x08 and 0x09. -/
def loadOf (op : Nat) : Option (CtxId → ImmF → Instr) :=
  match op with
  | 0 => some .ldB | 1 => some .ldBu | 2 => some .ldH | 3 => some .ldHu | 4 => some .ldW
  | 5 => some .ldWu | 6 => some .ldD
  | _ => none
def storeOf (op : Nat) : Option (CtxId → ImmF → Instr) :=
  match op with
  | 0 => some .stB | 1 => some .stH | 2 => some .stW | 3 => some .stD
  | _ => none

/-- R117: major 0x0A. -/
def atomicOf (fn : Nat) : Option (CtxId → AmoF → Instr) :=
  match fn with
  | 0 => some .amoSwap | 1 => some .amoAdd | 2 => some .amoAnd | 3 => some .amoOr
  | 4 => some .amoXor | 5 => some .amoMin | 6 => some .amoMax | 7 => some .amoMinu
  | 8 => some .amoMaxu | 9 => some .cas
  | _ => none

/-- R118: major 0x10. -/
def vecArith (fn : Nat) : Option (CtxId → VecAF → Instr) :=
  match fn with
  | 0x00 => some .vadd | 0x01 => some .vsub | 0x02 => some .vadds | 0x03 => some .vsubs
  | 0x04 => some .vmul | 0x05 => some .vmulhu | 0x06 => some .vminu | 0x07 => some .vmaxu
  | 0x08 => some .vmin | 0x09 => some .vmax | 0x0A => some .vand | 0x0B => some .vor
  | 0x0C => some .vxor | 0x0D => some .vandn | 0x0E => some .vsll | 0x0F => some .vsrl
  | 0x10 => some .vsra | 0x11 => some .vabsdu | 0x12 => some .vavgu | 0x13 => some .vmov
  | 0x14 => some .vsel | 0x18 => some .vcmpEq | 0x19 => some .vcmpNe | 0x1A => some .vcmpLtu
  | 0x1B => some .vcmpLeu | 0x1C => some .vcmpLt | 0x1D => some .vcmpLe
  | _ => none

/-- R120: major 0x11. -/
def vecPixel (fn : Nat) : Option (CtxId → VecXF → Instr) :=
  match fn with
  | 0x00 => some .vmulFx | 0x01 => some .vmadFx | 0x02 => some .vblend | 0x03 => some .vlutN
  | 0x04 => some .vlutI | 0x08 => some .vcvtFxU8 | 0x09 => some .vcvtU8Fx | 0x0A => some .vcvtFxU16
  | 0x0B => some .vcvtU16Fx | 0x0C => some .vcvtFxF16 | 0x0D => some .vcvtF16Fx
  | 0x0E => some .vcvtFxU10
  | _ => none

/-- R122: major 0x12, class 0b00. -/
def vecPerm (fn : Nat) : Option (CtxId → VecPF → Instr) :=
  match fn with
  | 0x00 => some .vperm | 0x01 => some .vbcast | 0x02 => some .vext | 0x03 => some .vins
  | 0x04 => some .vzipLo | 0x05 => some .vzipHi | 0x06 => some .vuzpEv | 0x07 => some .vuzpOd
  | 0x08 => some .vredAddu | 0x09 => some .vredMaxu | 0x0A => some .vredMinu
  | 0x0B => some .vcompress
  | _ => none

/-- R122: major 0x12; classes 0b10 and 0b11 spell no instruction. -/
def vecPermute (w : BitVec 32) : Option (CtxId → Instr) :=
  match bitsAt w 5 2 with
  | 0 => (vecPerm (bitsAt w 0 5)).map fun g c => g c (vecPOf w)
  | 1 => some fun c => .vslide c (vecPOf w) (reg5 w 0)
  | _ => none

/-- R123: major 0x14. -/
def vecMem (op : Nat) : Option (CtxId → VecMF → Instr) :=
  match op with
  | 0 => some .vld | 1 => some .vst | 2 => some .vgather | 3 => some .vscatter
  | _ => none

/-- R125: major 0x18. -/
def tileOf (w : BitVec 32) : Option (CtxId → Instr) :=
  let z := BitVec.ofNat 4 (bitsAt w 0 4)
  match bitsAt w 4 4 with
  | 0 => some fun c => .tld c (vecOfWord w) (Fin.ofNat 16 (bitsAt w 0 4))
  | 1 => some fun c => .tst c (vecOfWord w) z
  | 2 => some fun c => .tcommit c (vecOfWord w) z
  | _ => none

/-- R129: major 0x1C. -/
def taskSync (fn : Nat) : Option (CtxId → TaskF → Instr) :=
  match fn with
  | 0 => some .spawn | 1 => some .enq | 2 => some .tcancel | 3 => some .doneTask
  | 4 => some .yieldTask | 5 => some .waitTime | 6 => some .waitEv | 7 => some .post
  | _ => none

/-- R136: major 0x1E. -/
def crcOp (op : Nat) : Option (CtxId → CrcF → Instr) :=
  match op with
  | 0 => some .crcB | 1 => some .crcH | 2 => some .crcW | 3 => some .crcV | 4 => some .crcGet
  | 5 => some .crcPut | 6 => some .crcFin
  | _ => none

/-- R138: major 0x1F; op 2 is a fence by its num. -/
def systemOf (w : BitVec 32) : Option (CtxId → Instr) :=
  let f := sysOf w
  match bitsAt w 11 5 with
  | 0 => some fun c => .mfs c f
  | 1 => some fun c => .mts c f
  | 2 => some fun c =>
    if f.num = 1 then .fenceRel c f.rd f.ra else if f.num = 2 then .fenceAcq c f.rd f.ra else .fence c f
  | 3 => some fun c => .trap c f
  | 4 => some fun c => .halt c f
  | _ => none

/-- R104, R110: the instruction a word spells, for each context; x is the word after it, which an
8-byte instruction takes as its extension.  none: an encoding no table of chapter 4 lists. -/
def decodeCue (w x : BitVec 32) : Option (CtxId → Instr) :=
  match bitsAt w 26 6 with
  | 0x00 => (aluReg (bitsAt w 0 11)).map fun g c => g c (regOf w)
  | 0x01 => (aluImm (bitsAt w 11 5)).map fun g c => g c (immOfWord w x)
  | 0x02 => (mulReg (bitsAt w 0 11)).map fun g c => g c (regOf w)
  | 0x04 => (branchOf (bitsAt w 21 5)).map fun g c => g c (brOf w x)
  | 0x05 => (callOf (bitsAt w 11 5)).map fun g c => g c (immOfWord w x)
  | 0x08 => (loadOf (bitsAt w 11 5)).map fun g c => g c (immOfWord w x)
  | 0x09 => (storeOf (bitsAt w 11 5)).map fun g c => g c (immOfWord w x)
  | 0x0A => (atomicOf (bitsAt w 0 4)).map fun g c => g c (amoOf w)
  | 0x10 => (vecArith (bitsAt w 0 5)).map fun g c => g c (vecAOf w x)
  | 0x11 => (vecPixel (bitsAt w 0 5)).map fun g c => g c (vecXOf w)
  | 0x12 => vecPermute w
  | 0x14 => (vecMem (bitsAt w 3 3)).map fun g c => g c (vecMOf w x)
  | 0x18 => tileOf w
  | 0x1C => (taskSync (bitsAt w 0 4)).map fun g c => g c (taskOf w)
  | 0x1E => (crcOp (bitsAt w 4 4)).map fun g c => g c (crcFOf w)
  | 0x1F => systemOf w
  | _ => none

/-- R107, R110: the word's major opcode and its op, fn or cond are listed. -/
def listedWord (w : BitVec 32) : Bool := (decodeCue w 0).isSome

/-- The command that a word spells by the table's bits: none, for every row: no row of the table of
operations gives bits, the commands reach the block on its buses and pins. -/
def decodeTableWord (_nbits _w : Nat) : Option Instr := none

end Sys2Proof
end

