-- ==== Sys2Proof/Machine/Check.lean ====
section
/-! DEFINITION. The four check algorithms (R398, R399): pure functions on the raw running value. -/

namespace Sys2Proof.Machine

/-- R398: the width of algorithm `poly` (CRC_CFG.POLY). -/
def crcWidth (poly : Nat) : Nat :=
  match poly with | 0 => 32 | 1 => 32 | 2 => 16 | _ => 8

/-- R398: the polynomial; of a reflected algorithm in reflected bit order. -/
def crcPoly (poly : Nat) : Nat :=
  match poly with | 0 => 0xEDB88320 | 1 => 0x82F63B78 | 2 => 0x1021 | _ => 0x07

/-- R398, R399: the standard initial value in raw form. -/
def crcInit (poly : Nat) : Nat :=
  match poly with | 0 => 0xFFFFFFFF | 1 => 0xFFFFFFFF | 2 => 0xFFFF | _ => 0

/-- R398: the final XOR. -/
def crcXor (poly : Nat) : Nat :=
  match poly with | 0 => 0xFFFFFFFF | 1 => 0xFFFFFFFF | _ => 0

/-- One bit of a reflected algorithm. -/
def crcBitR (p c : Nat) : Nat := if c % 2 = 1 then (c / 2) ^^^ p else c / 2

/-- One bit of an unreflected algorithm of width w. -/
def crcBitN (w p c : Nat) : Nat :=
  if c.testBit (w - 1) then ((2 * c) ^^^ p) % 2 ^ w else 2 * c % 2 ^ w

def crcBits (n : Nat) (f : Nat → Nat) (c : Nat) : Nat :=
  match n with
  | 0 => c
  | n + 1 => crcBits n f (f c)

/-- R399: one byte: least significant bit first where reflected, else most significant first. -/
def crcByte (poly : Nat) (c : Nat) (b : Byte) : Nat :=
  let p := crcPoly poly
  if poly < 2 then crcBits 8 (crcBitR p) (c ^^^ b.toNat)
  else
    let w := crcWidth poly
    crcBits 8 (crcBitN w p) (c ^^^ (b.toNat <<< (w - 8)))

/-- The raw running value after some bytes, the first byte first. -/
def crcFeed (poly : Nat) (c : Nat) (bs : List Byte) : Nat := bs.foldl (crcByte poly) c

/-- R399: the final value. -/
def crcFinal (poly c : Nat) : Nat := c ^^^ crcXor poly

/-- A whole check over bytes. -/
def crcOf (poly : Nat) (bs : List Byte) : Nat := crcFinal poly (crcFeed poly (crcInit poly) bs)

/-- R406: the dedicated checks: CRC-32C, CRC-32 (IEEE) and CRC-16/CCITT-FALSE. -/
def crc32c (bs : List Byte) : Nat := crcOf 1 bs
def crc32ieee (bs : List Byte) : Nat := crcOf 0 bs
def crc16 (bs : List Byte) : Nat := crcOf 2 bs

end Sys2Proof.Machine
end

