-- ==== Sys2Proof/Config.lean ====
section
/-! DEFINITION. What one implementation fixes, and the values the spec leaves open.  An opaque
constant has no body: nothing can be proved of its value. -/

namespace Sys2Proof

/-- A free value (DESIGN CHOICE, log entry 2): what the spec calls undefined, or gives no value for, where the
machine goes on.  Applied to a counter the machine holds. -/
opaque Config.freeValue : Nat → BitVec 64

/-- R271: the calibration constants of a network port, by port, MODE and FEC: TS_TX_LAT in bits 23:0,
TS_RX_LAT in bits 47:24.  Free values: the settings store holds them and the spec gives none
(DESIGN CHOICE, log entry 111). -/
opaque Config.portLatency : Nat → Nat → Nat → BitVec 48

/-- R269: the IPv4 address of this module on a port.  A free value: the spec gives none and no way to
set one (DESIGN CHOICE, log entry 131). -/
opaque Config.ipAddress : Nat → BitVec 32

/-- R409, R438: the fused identity of this module. -/
opaque Config.moduleId : BitVec 64

end Sys2Proof
end

