-- ==== Sys2Proof/Machine/Regs.lean ====
section
/-! DEFINITION. The register tables of the spec: the address and the reset value of every
register, by name, and the row (access code, commit class, reset value, bits a write can act on)
of every register, by physical address.  Written from the register tables of spec/. -/

namespace Sys2Proof.Machine

/-- R4, R19: the slice window. -/
def winBase (s : Nat) : Nat := 0x1001000000 + s * 0x100000
def slcBase (s : Nat) : Nat := winBase s
def schedBase (s : Nat) : Nat := winBase s + 0x10000
/-- R203, R204: DMA channel k is channel k mod 16 of slice k / 16; 64 + h is host channel h. -/
def dmaBase (k : Nat) : Nat :=
  if k < 64 then winBase (k / 16) + 0x20000 + k % 16 * 0x100 else 0x1000092000 + (k - 64) * 0x100
/-- R203, R204: the DMA block registers of slice t, or of the host channels (t = 4). -/
def dmaBlkBase (t : Nat) : Nat := if t < 4 then winBase t + 0x21000 else 0x1000092800
/-- R201, R202: translator block t: the MMU of slice t, or the IOMMU (t = 4). -/
def mmuBase (t : Nat) : Nat := if t < 4 then winBase t + 0x30000 else 0x10000A0000
def iommuBase : Nat := 0x10000A0000
def layerBase (s : Nat) : Nat := winBase s + 0x40000
def scanBase (s pl : Nat) : Nat := winBase s + 0x50000 + pl * 0x1000
def trunkBase (s pl : Nat) : Nat := winBase s + 0x60000 + pl * 0x1000
/-- R19, R398: CRC unit u: unit u mod 4 of slice u / 4, or shared unit u - 16. -/
def crcBase (u : Nat) : Nat :=
  if u < 16 then winBase (u / 4) + 0x70000 + u % 4 * 0x100 else 0x1000050000 + (u - 16) * 0x100
def sysBase : Nat := 0x1000000000
def timeBase : Nat := 0x1000010000
def netBase : Nat := 0x1000020000
def ledBase : Nat := 0x1000030000
def adcBase : Nat := 0x1000040000
def recBase : Nat := 0x1000060000
def updBase : Nat := 0x1000070000
def redBase : Nat := 0x1000080000
def hstBase : Nat := 0x1000090000

/-- R224, R230: word w of a matrix at reset: the identity, WGAIN 1.0, offsets 0. -/
def matrixReset (w : Nat) : Nat :=
  match w with
  | 0 => 0x2000 | 2 => 0x20000000 | 5 => 0x2000 | 6 => 0x2000 | _ => 0
/-- R230: word w of a curve at reset: entries 2w and 2w + 1, each min(65535, 32 i). -/
def curveReset (w : Nat) : Nat := min 65535 (64 * w) + 65536 * min 65535 (64 * w + 32)

/-! ### Slc (R29) -/
def Slc.SLC_ID (s : Nat) : Reg := ⟨slcBase s, BitVec.ofNat 64 (0x80320500+s)⟩
def Slc.SLC_CTRL (s : Nat) : Reg := ⟨slcBase s + 4, 0⟩
def Slc.SLC_STATUS (s : Nat) : Reg := ⟨slcBase s + 8, 0⟩
def Slc.SLC_COMMIT_CFG (s : Nat) : Reg := ⟨slcBase s + 0x10, 0x400⟩
def Slc.SLC_NEXT_CP_FRAME (s : Nat) : Reg := ⟨slcBase s + 0x14, 0⟩
def Slc.SLC_COMMIT_STATUS (s : Nat) : Reg := ⟨slcBase s + 0x18, 0⟩
def Slc.SLC_LATE_TOTAL (s : Nat) : Reg := ⟨slcBase s + 0x1C, 0⟩
def Slc.SLC_LATE_LAST (s : Nat) : Reg := ⟨slcBase s + 0x20, 0⟩
def Slc.SLC_ERR (s : Nat) : Reg := ⟨slcBase s + 0x24, 0⟩

/-! ### Sched (R171) -/
def Sched.SCHED_CTRL (s : Nat) : Reg := ⟨schedBase s, 3⟩
def Sched.SCHED_STATUS (s : Nat) : Reg := ⟨schedBase s + 4, 0x13000⟩
def Sched.SCHED_ERR (s : Nat) : Reg := ⟨schedBase s + 8, 0⟩
def Sched.INT_STATUS (s : Nat) : Reg := ⟨schedBase s + 0xC, 0⟩
def Sched.INT_ENABLE (s : Nat) : Reg := ⟨schedBase s + 0x10, 0⟩
def Sched.TICK_CFG (s : Nat) : Reg := ⟨schedBase s + 0x14, 0x2000A⟩
def Sched.BP_CFG (s : Nat) : Reg := ⟨schedBase s + 0x18, 0xE00100⟩
def Sched.BP_STATUS (s : Nat) : Reg := ⟨schedBase s + 0x1C, 0⟩
def Sched.SAVE_POOL_BASE (s : Nat) : Reg := ⟨schedBase s + 0x20, 0⟩
def Sched.SAVE_POOL_CFG (s : Nat) : Reg := ⟨schedBase s + 0x28, 0⟩
def Sched.SAVE_STATUS (s : Nat) : Reg := ⟨schedBase s + 0x2C, 0⟩
def Sched.CQ_BASE (s : Nat) : Reg := ⟨schedBase s + 0x30, 0⟩
def Sched.CQ_CFG (s : Nat) : Reg := ⟨schedBase s + 0x38, 0⟩
def Sched.CQ_HEAD (s : Nat) : Reg := ⟨schedBase s + 0x3C, 0⟩
def Sched.CQ_TAIL (s : Nat) : Reg := ⟨schedBase s + 0x40, 0⟩
def Sched.CQ_LOST (s : Nat) : Reg := ⟨schedBase s + 0x44, 0⟩
def Sched.DELAY_STATUS (s : Nat) : Reg := ⟨schedBase s + 0x48, 0⟩
def Sched.KILL_HANDLE (s : Nat) : Reg := ⟨schedBase s + 0x50, 0⟩
def Sched.KILL_RESULT (s : Nat) : Reg := ⟨schedBase s + 0x58, 0x80000000⟩
def Sched.WG_CFG (s g : Nat) : Reg := ⟨schedBase s + 0x80 + g * 4, 0x2000101⟩
def Sched.WG_STATUS (s g : Nat) : Reg := ⟨schedBase s + 0xA0 + g * 4, 0⟩
def Sched.CORE_CTRL (s c : Nat) : Reg := ⟨schedBase s + 0xC0 + c * 4, 0⟩
def Sched.CORE_STATUS (s c : Nat) : Reg := ⟨schedBase s + 0xE0 + c * 4, 0x10⟩
def Sched.FLOW_CFG (s f : Nat) : Reg := ⟨schedBase s + 0x100 + f * 4, 0x10000⟩
def Sched.FLOW_RELEASE_NEXT (s f : Nat) : Reg := ⟨schedBase s + 0x200 + f * 8, 0⟩
def Sched.FLOW_NEXT_SEQ (s f : Nat) : Reg := ⟨schedBase s + 0x204 + f * 8, 0⟩
def Sched.SUBMIT_DESC (s i : Nat) : Reg := ⟨schedBase s + 0x400 + i * 4, 0⟩
def Sched.SUBMIT (s : Nat) : Reg := ⟨schedBase s + 0x440, 0⟩
def Sched.SUBMIT_RESULT (s : Nat) : Reg := ⟨schedBase s + 0x448, 0x8000000000000000⟩
def Sched.ETS_CFG (s e : Nat) : Reg := ⟨schedBase s + 0x800 + e * 0x20, 0⟩
def Sched.ETS_CTL (s e : Nat) : Reg := ⟨schedBase s + 0x804 + e * 0x20, 0xFF00⟩
def Sched.ETS_ARG (s e : Nat) : Reg := ⟨schedBase s + 0x808 + e * 0x20, 0⟩
def Sched.ETS_STATUS (s e : Nat) : Reg := ⟨schedBase s + 0x810 + e * 0x20, 0⟩
def Sched.ETS_SEQ (s e : Nat) : Reg := ⟨schedBase s + 0x818 + e * 0x20, 0⟩
def Sched.EV_SEEN (s : Nat) : Reg := ⟨schedBase s + 0xC00, 0⟩
def Sched.DISPATCH_COUNT (s : Nat) : Reg := ⟨schedBase s + 0xC10, 0⟩
def Sched.PREEMPT_COUNT (s : Nat) : Reg := ⟨schedBase s + 0xC14, 0⟩
def Sched.CANCEL_COUNT (s : Nat) : Reg := ⟨schedBase s + 0xC18, 0⟩
def Sched.BUSY_COUNT (s : Nat) : Reg := ⟨schedBase s + 0xC1C, 0⟩
def Sched.YIELD_NOSLOT (s : Nat) : Reg := ⟨schedBase s + 0xC20, 0⟩
def Sched.RELEASE_BUF_USED (s : Nat) : Reg := ⟨schedBase s + 0xC24, 0⟩
def Sched.DESC_SEL (s : Nat) : Reg := ⟨schedBase s + 0xC30, 0⟩
def Sched.DESC_STATE (s : Nat) : Reg := ⟨schedBase s + 0xC34, 0⟩
def Sched.DESC_GEN (s : Nat) : Reg := ⟨schedBase s + 0xC38, 0⟩
def Sched.IMG_CFG (s i : Nat) : Reg := ⟨schedBase s + 0x1000 + i * 0x20, 0⟩
def Sched.IMG_GROUPS (s i : Nat) : Reg := ⟨schedBase s + 0x1004 + i * 0x20, 0⟩
def Sched.IMG_FLOWS (s i : Nat) : Reg := ⟨schedBase s + 0x1008 + i * 0x20, 0⟩
def Sched.IMG_ENTRY_BASE (s i : Nat) : Reg := ⟨schedBase s + 0x1010 + i * 0x20, 0⟩

/-! ### Dma (R203, R204) -/
def Dma.CH_CTRL (k : Nat) : Reg := ⟨dmaBase k, 0x10⟩
def Dma.CH_STATUS (k : Nat) : Reg := ⟨dmaBase k + 4, 0⟩
def Dma.RING_BASE (k : Nat) : Reg := ⟨dmaBase k + 8, 0⟩
def Dma.RING_CFG (k : Nat) : Reg := ⟨dmaBase k + 0x10, 0⟩
def Dma.RING_HEAD (k : Nat) : Reg := ⟨dmaBase k + 0x14, 0⟩
def Dma.PROD_ADDR (k : Nat) : Reg := ⟨dmaBase k + 0x18, 0⟩
def Dma.DOORBELL (k : Nat) : Reg := ⟨dmaBase k + 0x20, 0⟩
def Dma.BYTES_DONE (k : Nat) : Reg := ⟨dmaBase k + 0x24, 0⟩
def Dma.DESC_COUNT (k : Nat) : Reg := ⟨dmaBase k + 0x28, 0⟩
def Dma.INT_STATUS (k : Nat) : Reg := ⟨dmaBase k + 0x2C, 0⟩
def Dma.INT_ENABLE (k : Nat) : Reg := ⟨dmaBase k + 0x30, 0⟩

/-! ### DmaB (R203, R204) -/
def DmaB.DMA_ERR (t : Nat) : Reg := ⟨dmaBlkBase t, 0⟩
def DmaB.DMA_EV_STATUS (t : Nat) : Reg := ⟨dmaBlkBase t + 4, 0⟩
def DmaB.DMA_BUSY (t : Nat) : Reg := ⟨dmaBlkBase t + 8, 0⟩

/-! ### Mmu (R201, R202) -/
def Mmu.MMU_CTRL (t : Nat) : Reg := ⟨mmuBase t, 0⟩
def Mmu.ASID_TABLE_BASE (t : Nat) : Reg := ⟨mmuBase t + 8, 0⟩
def Mmu.TLBI_CTRL (t : Nat) : Reg := ⟨mmuBase t + 0x10, 0⟩
def Mmu.TLBI_VA (t : Nat) : Reg := ⟨mmuBase t + 0x18, 0⟩
def Mmu.FQ_STATUS (t : Nat) : Reg := ⟨mmuBase t + 0x20, 0⟩
def Mmu.INT_STATUS (t : Nat) : Reg := ⟨mmuBase t + 0x24, 0⟩
def Mmu.INT_ENABLE (t : Nat) : Reg := ⟨mmuBase t + 0x28, 0⟩
def Mmu.MMU_ERR (t : Nat) : Reg := ⟨mmuBase t + 0x2C, 0⟩
def Mmu.FAULT_COUNT (t : Nat) : Reg := ⟨mmuBase t + 0x30, 0⟩
def Mmu.WALK_COUNT (t : Nat) : Reg := ⟨mmuBase t + 0x34, 0⟩
def Mmu.FQ_RECORD (t i : Nat) : Reg := ⟨mmuBase t + 0x40 + i * 4, 0⟩
def Mmu.FQ_POP (t : Nat) : Reg := ⟨mmuBase t + 0x60, 0⟩
def Mmu.FAULT_RESP (t : Nat) : Reg := ⟨mmuBase t + 0x64, 0⟩

/-! ### Mc (R201) -/
def Mc.FRAME_RETIRED (s : Nat) : Reg := ⟨mmuBase s + 0x800, 0xFFFFFFFFFFFFFFFF⟩
def Mc.LY_PREV_BASE (s l : Nat) : Reg := ⟨mmuBase s + 0x810 + l * 0x10, 0⟩
def Mc.LY_PREV_LAST (s l : Nat) : Reg := ⟨mmuBase s + 0x818 + l * 0x10, 0xFFFFFFFFFFFFFFFF⟩
def Mc.MC_CE_COUNT (s : Nat) : Reg := ⟨mmuBase s + 0xC00, 0⟩
def Mc.MC_UE_COUNT (s : Nat) : Reg := ⟨mmuBase s + 0xC04, 0⟩
def Mc.MC_LAST_ADDR (s : Nat) : Reg := ⟨mmuBase s + 0xC08, 0⟩
def Mc.MC_LAST_INFO (s : Nat) : Reg := ⟨mmuBase s + 0xC10, 0⟩
def Mc.MC_SCRUB_CFG (s : Nat) : Reg := ⟨mmuBase s + 0xC14, 0x1801⟩
def Mc.MC_SCRUB_PASSES (s : Nat) : Reg := ⟨mmuBase s + 0xC18, 0⟩

/-! ### Iommu (R202) -/
def Iommu.ABORT_LOST : Reg := ⟨iommuBase + 0x70, 0⟩
def Iommu.STE (i : Nat) : Reg := ⟨iommuBase + 0x1000 + i * 8, 0⟩

/-! ### Layer (R230) -/
def Layer.LY_BASE (s l : Nat) : Reg := ⟨layerBase s + l * 0x40, 0⟩
def Layer.LY_STRIDE (s l : Nat) : Reg := ⟨layerBase s + 8 + l * 0x40, 0⟩
def Layer.LY_FMT (s l : Nat) : Reg := ⟨layerBase s + 0xC + l * 0x40, 0⟩
def Layer.LY_CTRL (s l : Nat) : Reg := ⟨layerBase s + 0x10 + l * 0x40, 0⟩
def Layer.LY_ACT_BASE (s l : Nat) : Reg := ⟨layerBase s + 0x18 + l * 0x40, 0⟩
def Layer.LY_ACT_STRIDE (s l : Nat) : Reg := ⟨layerBase s + 0x20 + l * 0x40, 0⟩
def Layer.LY_ACT_FMT (s l : Nat) : Reg := ⟨layerBase s + 0x24 + l * 0x40, 0⟩
def Layer.LY_ACT_CTRL (s l : Nat) : Reg := ⟨layerBase s + 0x28 + l * 0x40, 0⟩
def Layer.LY_LATCH_FRAME (s l : Nat) : Reg := ⟨layerBase s + 0x2C + l * 0x40, 0xFFFFFFFF⟩
def Layer.LY_TILES (s l : Nat) : Reg := ⟨layerBase s + 0x30 + l * 0x40, 0⟩
def Layer.LY_FAULTS (s l : Nat) : Reg := ⟨layerBase s + 0x34 + l * 0x40, 0⟩
def Layer.LY_COMMIT (s : Nat) : Reg := ⟨layerBase s + 0x400, 0⟩
def Layer.LAYER_ERR (s : Nat) : Reg := ⟨layerBase s + 0x404, 0⟩
def Layer.INT_STATUS (s : Nat) : Reg := ⟨layerBase s + 0x408, 0⟩
def Layer.INT_ENABLE (s : Nat) : Reg := ⟨layerBase s + 0x40C, 0⟩
def Layer.READAHEAD_STOPS (s : Nat) : Reg := ⟨layerBase s + 0x410, 0⟩
def Layer.TST_INVALID_COUNT (s : Nat) : Reg := ⟨layerBase s + 0x414, 0⟩
def Layer.TST_CLIP_COUNT (s : Nat) : Reg := ⟨layerBase s + 0x418, 0⟩
def Layer.STORE_CE_COUNT (s : Nat) : Reg := ⟨layerBase s + 0x41C, 0⟩
def Layer.STORE_UE_COUNT (s : Nat) : Reg := ⟨layerBase s + 0x420, 0⟩
def Layer.APPLIED_FRAME (s : Nat) : Reg := ⟨layerBase s + 0x424, 0xFFFFFFFF⟩
def Layer.LATE_COUNT (s : Nat) : Reg := ⟨layerBase s + 0x428, 0⟩
def Layer.OUT_FMT (s pl : Nat) : Reg := ⟨layerBase s + 0x4000 + pl * 0x20, 0⟩
def Layer.PORT_SEG (s pl : Nat) : Reg := ⟨layerBase s + 0x4004 + pl * 0x20, 0⟩
def Layer.PORT_ERR (s pl : Nat) : Reg := ⟨layerBase s + 0x4008 + pl * 0x20, 0⟩
def Layer.PORT_SKIPPED (s pl : Nat) : Reg := ⟨layerBase s + 0x400C + pl * 0x20, 0⟩
def Layer.LUSTRE_CTRL (s : Nat) : Reg := ⟨layerBase s + 0x8000, 0x400⟩
def Layer.LUSTRE_STATUS (s : Nat) : Reg := ⟨layerBase s + 0x8004, 0⟩
def Layer.LUSTRE_UPDATES (s : Nat) : Reg := ⟨layerBase s + 0x8008, 0⟩
def Layer.PROF_SOURCE (s p : Nat) : Reg := ⟨layerBase s + 0x8100 + p * 0x20, 0⟩
def Layer.PROF_XREF (s p : Nat) : Reg := ⟨layerBase s + 0x8104 + p * 0x20, 0⟩
def Layer.PROF_SLOPE_RG (s p : Nat) : Reg := ⟨layerBase s + 0x8108 + p * 0x20, 0⟩
def Layer.PROF_SLOPE_BW (s p : Nat) : Reg := ⟨layerBase s + 0x810C + p * 0x20, 0⟩
def Layer.PROF_LIMIT (s p : Nat) : Reg := ⟨layerBase s + 0x8110 + p * 0x20, 0x88007800⟩
def Layer.PROF_STEP (s p : Nat) : Reg := ⟨layerBase s + 0x8114 + p * 0x20, 0x40⟩
def Layer.LUSTRE_GAIN (s pl k : Nat) : Reg := ⟨layerBase s + 0xC000 + pl * 0x200 + k * 8, 0x8000800080008000⟩
def Layer.LUSTRE_NODE (s pl j : Nat) : Reg := ⟨layerBase s + 0xD000 + pl * 0x40 + j * 4, 0⟩
def Layer.LUSTRE_STALE (s pl : Nat) : Reg := ⟨layerBase s + 0xD400 + pl * 8, 0⟩

/-! ### Scan (R69) -/
def Scan.SCAN_CTRL (s pl : Nat) : Reg := ⟨scanBase s pl, 0⟩
def Scan.SCAN_STATUS (s pl : Nat) : Reg := ⟨scanBase s pl + 4, 0⟩
def Scan.RASTER_H (s pl : Nat) : Reg := ⟨scanBase s pl + 8, 0x10440400⟩
def Scan.RASTER_V (s pl : Nat) : Reg := ⟨scanBase s pl + 0xC, 0x20810100⟩
def Scan.RASTER_TIME (s pl : Nat) : Reg := ⟨scanBase s pl + 0x10, 0x50979A⟩
def Scan.LINE_CMP (s pl : Nat) : Reg := ⟨scanBase s pl + 0x14, 0⟩
def Scan.LINE_POS (s pl : Nat) : Reg := ⟨scanBase s pl + 0x18, 0⟩
def Scan.FRAME_SENT (s pl : Nat) : Reg := ⟨scanBase s pl + 0x1C, 0xFFFFFFFF⟩
def Scan.INT_STATUS (s pl : Nat) : Reg := ⟨scanBase s pl + 0x20, 0⟩
def Scan.INT_ENABLE (s pl : Nat) : Reg := ⟨scanBase s pl + 0x24, 0⟩
def Scan.EV_ENABLE (s pl : Nat) : Reg := ⟨scanBase s pl + 0x28, 0⟩
def Scan.SCAN_ERR (s pl : Nat) : Reg := ⟨scanBase s pl + 0x2C, 0⟩
def Scan.UNDERRUN_COUNT (s pl : Nat) : Reg := ⟨scanBase s pl + 0x30, 0⟩
def Scan.STALE_RUN (s pl : Nat) : Reg := ⟨scanBase s pl + 0x34, 0⟩
def Scan.LATE_DISCARD_COUNT (s pl : Nat) : Reg := ⟨scanBase s pl + 0x38, 0⟩
def Scan.HOLD_COUNT (s pl : Nat) : Reg := ⟨scanBase s pl + 0x3C, 0⟩
def Scan.APPLIED_FRAME (s pl : Nat) : Reg := ⟨scanBase s pl + 0x40, 0xFFFFFFFF⟩
def Scan.LATE_COUNT (s pl : Nat) : Reg := ⟨scanBase s pl + 0x44, 0⟩

/-! ### Trunk (R265) -/
def Trunk.TRK_CTRL (s pl : Nat) : Reg := ⟨trunkBase s pl, 6⟩
def Trunk.TRK_STATUS (s pl : Nat) : Reg := ⟨trunkBase s pl + 4, 0⟩
def Trunk.TRK_ERR (s pl : Nat) : Reg := ⟨trunkBase s pl + 8, 0⟩
def Trunk.INT_STATUS (s pl : Nat) : Reg := ⟨trunkBase s pl + 0xC, 0⟩
def Trunk.INT_ENABLE (s pl : Nat) : Reg := ⟨trunkBase s pl + 0x10, 0⟩
def Trunk.PROBE_CFG (s pl : Nat) : Reg := ⟨trunkBase s pl + 0x14, 0x28⟩
def Trunk.FARTHEST_LAT (s pl : Nat) : Reg := ⟨trunkBase s pl + 0x18, 0⟩
def Trunk.CLAIM_TX (s pl : Nat) : Reg := ⟨trunkBase s pl + 0x1C, 0⟩
def Trunk.RX_CODE_ERRS (s pl : Nat) : Reg := ⟨trunkBase s pl + 0x20, 0⟩
def Trunk.TEL_CRC_ERRS (s pl : Nat) : Reg := ⟨trunkBase s pl + 0x24, 0⟩
def Trunk.TEL_DROPS (s pl : Nat) : Reg := ⟨trunkBase s pl + 0x28, 0⟩
def Trunk.PROBES_LOST (s pl : Nat) : Reg := ⟨trunkBase s pl + 0x2C, 0⟩
def Trunk.TRAIN_COUNT (s pl : Nat) : Reg := ⟨trunkBase s pl + 0x30, 0⟩
def Trunk.LINK_DOWN_COUNT (s pl : Nat) : Reg := ⟨trunkBase s pl + 0x34, 0⟩
def Trunk.TEL_BASE (s pl : Nat) : Reg := ⟨trunkBase s pl + 0x38, 0⟩
def Trunk.CMD_DATA (s pl i : Nat) : Reg := ⟨trunkBase s pl + 0x40 + i * 4, 0⟩
def Trunk.CMD_PUSH (s pl : Nat) : Reg := ⟨trunkBase s pl + 0x60, 0⟩
def Trunk.CMD_STATUS (s pl : Nat) : Reg := ⟨trunkBase s pl + 0x64, 0⟩
def Trunk.APPLIED_FRAME (s pl : Nat) : Reg := ⟨trunkBase s pl + 0x68, 0xFFFFFFFF⟩
def Trunk.LATE_COUNT (s pl : Nat) : Reg := ⟨trunkBase s pl + 0x6C, 0⟩
def Trunk.NODE_SEEN (s pl : Nat) : Reg := ⟨trunkBase s pl + 0x70, 0⟩
def Trunk.NODE_CFG (s pl k : Nat) : Reg := ⟨trunkBase s pl + 0x100 + k * 8, 0⟩
def Trunk.NODE_LAT (s pl k : Nat) : Reg := ⟨trunkBase s pl + 0x300 + k * 4, 0⟩
def Trunk.NODE_ATTR (s pl k : Nat) : Reg := ⟨trunkBase s pl + 0x400 + k * 8, 0⟩

/-! ### Crc (R405) -/
def Crc.CRC_CFG (u : Nat) : Reg := ⟨crcBase u, 0⟩
def Crc.CRC_CTRL (u : Nat) : Reg := ⟨crcBase u + 4, 0⟩
def Crc.CRC_STATUS (u : Nat) : Reg := ⟨crcBase u + 8, 0⟩
def Crc.CRC_FEED8 (u : Nat) : Reg := ⟨crcBase u + 0x10, 0⟩
def Crc.CRC_FEED16 (u : Nat) : Reg := ⟨crcBase u + 0x14, 0⟩
def Crc.CRC_FEED32 (u : Nat) : Reg := ⟨crcBase u + 0x18, 0⟩
def Crc.CRC_VALUE (u : Nat) : Reg := ⟨crcBase u + 0x20, 0xFFFFFFFF⟩
def Crc.CRC_RESULT (u : Nat) : Reg := ⟨crcBase u + 0x24, 0⟩
def Crc.CRC_BYTES (u : Nat) : Reg := ⟨crcBase u + 0x28, 0⟩

/-! ### Seg (R19, R220, R224) -/
def Seg.SEGMAP (s e w : Nat) : Reg := ⟨winBase s + 0x80000 + e * 0x10 + w * 4, 0⟩
def Seg.MATRIX (s m w : Nat) : Reg := ⟨winBase s + 0xC0000 + m * 0x40 + w * 4, BitVec.ofNat 64 (matrixReset w)⟩
def Seg.MATRIX_WGAIN (s m : Nat) : Reg := ⟨winBase s + 0xC0018 + m * 0x40, 0x2000⟩
def Seg.CURVE (s t w : Nat) : Reg := ⟨winBase s + 0xE0000 + t * 0x2000 + w * 4, BitVec.ofNat 64 (curveReset w)⟩

/-! ### Sys (R438, R483) -/
def Sys.SYS_MODULE_ID : Reg := ⟨sysBase, 0⟩
def Sys.SYS_REV : Reg := ⟨sysBase + 8, 0x50B⟩
def Sys.RESET_CAUSE : Reg := ⟨sysBase + 0xC, 0⟩
def Sys.SYS_RESET : Reg := ⟨sysBase + 0x10, 0⟩
def Sys.BOOT_STAGE : Reg := ⟨sysBase + 0x14, 2⟩
def Sys.SYS_INT_STATUS : Reg := ⟨sysBase + 0x18, 0⟩
def Sys.SYS_INT_ENABLE : Reg := ⟨sysBase + 0x1C, 0⟩
def Sys.FATAL_CAUSE : Reg := ⟨sysBase + 0x20, 0⟩
def Sys.FATAL_COUNT : Reg := ⟨sysBase + 0x24, 0⟩
def Sys.DUMP_STATUS : Reg := ⟨sysBase + 0x28, 0⟩
def Sys.DUMP_BASE : Reg := ⟨sysBase + 0x30, 0x1FC000000⟩
def Sys.DUMP_LEN : Reg := ⟨sysBase + 0x38, 0⟩
def Sys.DUMP_ACK : Reg := ⟨sysBase + 0x3C, 0⟩
def Sys.PWR_STATUS : Reg := ⟨sysBase + 0x40, 1⟩
def Sys.VIN_NOW : Reg := ⟨sysBase + 0x44, 0⟩
def Sys.VIN_MIN : Reg := ⟨sysBase + 0x48, 0x1FFFF⟩
def Sys.HOLDUP_UF : Reg := ⟨sysBase + 0x4C, 0⟩
def Sys.TEMP_PEAK : Reg := ⟨sysBase + 0x50, 0⟩
def Sys.PF_COUNT : Reg := ⟨sysBase + 0x54, 0⟩
def Sys.PWR_CLEAR : Reg := ⟨sysBase + 0x58, 0⟩
def Sys.GPI_CFG (i : Nat) : Reg := ⟨sysBase + 0x100 + i * 0x20, 0x10000⟩
def Sys.GPI_STUCK (i : Nat) : Reg := ⟨sysBase + 0x104 + i * 0x20, 0⟩
def Sys.GPI_STATUS (i : Nat) : Reg := ⟨sysBase + 0x108 + i * 0x20, 0⟩
def Sys.GPI_INT (i : Nat) : Reg := ⟨sysBase + 0x10C + i * 0x20, 0⟩
def Sys.GPI_ACTS (i : Nat) : Reg := ⟨sysBase + 0x110 + i * 0x20, 0⟩
def Sys.GPI_OVERSPEED (i : Nat) : Reg := ⟨sysBase + 0x114 + i * 0x20, 0⟩
def Sys.GPI_LAST (i : Nat) : Reg := ⟨sysBase + 0x118 + i * 0x20, 0⟩

/-! ### Time (R44, R287) -/
def Time.TIME_CTRL : Reg := ⟨timeBase, 8⟩
def Time.TIME_STATUS : Reg := ⟨timeBase + 4, 0⟩
def Time.TIME_ERR : Reg := ⟨timeBase + 8, 0⟩
def Time.INT_STATUS : Reg := ⟨timeBase + 0xC, 0⟩
def Time.INT_ENABLE : Reg := ⟨timeBase + 0x10, 0⟩
def Time.TIME_SNAP : Reg := ⟨timeBase + 0x20, 0⟩
def Time.SNAP_SEC : Reg := ⟨timeBase + 0x28, 0⟩
def Time.SNAP_NS : Reg := ⟨timeBase + 0x30, 0⟩
def Time.SNAP_SUB : Reg := ⟨timeBase + 0x34, 0⟩
def Time.STEP_OFF : Reg := ⟨timeBase + 0x40, 0⟩
def Time.SET_SEC : Reg := ⟨timeBase + 0x48, 0⟩
def Time.SET_NS : Reg := ⟨timeBase + 0x50, 0⟩
def Time.STEP_CMD : Reg := ⟨timeBase + 0x54, 0⟩
def Time.RATE_ACT : Reg := ⟨timeBase + 0x60, 0⟩
def Time.RATE_HOLD : Reg := ⟨timeBase + 0x64, 0⟩
def Time.SERVO_SAMPLE : Reg := ⟨timeBase + 0x68, 0⟩
def Time.SERVO_KP : Reg := ⟨timeBase + 0x70, 0x20000⟩
def Time.SERVO_KI : Reg := ⟨timeBase + 0x74, 0x4000⟩
def Time.RATE_LIMIT : Reg := ⟨timeBase + 0x78, 0xC350⟩
def Time.STEP_THRESH : Reg := ⟨timeBase + 0x7C, 0x186A0⟩
def Time.LOCK_CFG : Reg := ⟨timeBase + 0x80, 0x100000FA⟩
def Time.SERVO_TMO : Reg := ⟨timeBase + 0x84, 0x3E8⟩
def Time.LAST_OFFSET : Reg := ⟨timeBase + 0x88, 0⟩
def Time.SAMPLE_COUNT : Reg := ⟨timeBase + 0x8C, 0⟩
def Time.STEP_COUNT : Reg := ⟨timeBase + 0x90, 0⟩
def Time.UTC_OFFSET : Reg := ⟨timeBase + 0x94, 0⟩
def Time.TS_TX_LAT (p : Nat) : Reg := ⟨timeBase + 0x100 + p * 0x40, 0⟩
def Time.TS_RX_LAT (p : Nat) : Reg := ⟨timeBase + 0x104 + p * 0x40, 0⟩
def Time.TS_ASYM (p : Nat) : Reg := ⟨timeBase + 0x108 + p * 0x40, 0⟩
def Time.TSQ_STATUS (p : Nat) : Reg := ⟨timeBase + 0x10C + p * 0x40, 0⟩
def Time.TSQ_HEAD_ID (p : Nat) : Reg := ⟨timeBase + 0x110 + p * 0x40, 0⟩
def Time.TSQ_HEAD_NS (p : Nat) : Reg := ⟨timeBase + 0x114 + p * 0x40, 0⟩
def Time.TSQ_HEAD_SEC (p : Nat) : Reg := ⟨timeBase + 0x118 + p * 0x40, 0⟩
def Time.TSQ_POP (p : Nat) : Reg := ⟨timeBase + 0x120 + p * 0x40, 0⟩
def Time.TSQ_LOST (p : Nat) : Reg := ⟨timeBase + 0x124 + p * 0x40, 0⟩
def Time.TRIG_CTRL (j : Nat) : Reg := ⟨timeBase + 0x200 + j * 0x20, 0⟩
def Time.TRIG_FIRED (j : Nat) : Reg := ⟨timeBase + 0x204 + j * 0x20, 0⟩
def Time.TRIG_START_SEC (j : Nat) : Reg := ⟨timeBase + 0x208 + j * 0x20, 0⟩
def Time.TRIG_START_NS (j : Nat) : Reg := ⟨timeBase + 0x210 + j * 0x20, 0⟩
def Time.TRIG_PERIOD (j : Nat) : Reg := ⟨timeBase + 0x214 + j * 0x20, 0⟩
def Time.TRIG_STATUS (j : Nat) : Reg := ⟨timeBase + 0x218 + j * 0x20, 0⟩
def Time.LTC_CTRL : Reg := ⟨timeBase + 0x300, 0⟩
def Time.LTC_STATUS : Reg := ⟨timeBase + 0x304, 0⟩
def Time.LTC_HEAD_TC : Reg := ⟨timeBase + 0x308, 0⟩
def Time.LTC_HEAD_UB : Reg := ⟨timeBase + 0x30C, 0⟩
def Time.LTC_HEAD_NS : Reg := ⟨timeBase + 0x310, 0⟩
def Time.LTC_HEAD_SEC : Reg := ⟨timeBase + 0x318, 0⟩
def Time.LTC_POP : Reg := ⟨timeBase + 0x320, 0⟩
def Time.LTC_LOST : Reg := ⟨timeBase + 0x324, 0⟩
def Time.FI_CFG : Reg := ⟨timeBase + 0x380, 0x3E80000⟩
def Time.FI_PERIOD_NUM : Reg := ⟨timeBase + 0x384, 0x17D7840⟩
def Time.FI_PERIOD_DEN : Reg := ⟨timeBase + 0x388, 3⟩
def Time.FI_EPOCH_SEC : Reg := ⟨timeBase + 0x390, 0⟩
def Time.FI_EPOCH_NS : Reg := ⟨timeBase + 0x398, 0⟩
def Time.FI_LAST_NS : Reg := ⟨timeBase + 0x39C, 0⟩
def Time.FI_LAST_SEC : Reg := ⟨timeBase + 0x3A0, 0⟩
def Time.FI_GLITCHES : Reg := ⟨timeBase + 0x3A8, 0⟩
def Time.FI_LAST_OFFSET : Reg := ⟨timeBase + 0x3AC, 0⟩
def Time.FT_CTRL : Reg := ⟨timeBase + 0x400, 0⟩
def Time.FT_STATUS : Reg := ⟨timeBase + 0x404, 4⟩
def Time.FT_PERIOD_NUM : Reg := ⟨timeBase + 0x408, 0x17D7840⟩
def Time.FT_PERIOD_DEN : Reg := ⟨timeBase + 0x40C, 3⟩
def Time.FT_EPOCH_SEC : Reg := ⟨timeBase + 0x410, 0⟩
def Time.FT_EPOCH_NS : Reg := ⟨timeBase + 0x418, 0⟩
def Time.FT_FRAME : Reg := ⟨timeBase + 0x420, 0⟩
def Time.FT_NEXT_T_SEC : Reg := ⟨timeBase + 0x428, 0⟩
def Time.FT_NEXT_T_NS : Reg := ⟨timeBase + 0x430, 0⟩
def Time.FT_FACET_MARGIN : Reg := ⟨timeBase + 0x434, 0x7D0⟩
def Time.FT_ERR : Reg := ⟨timeBase + 0x438, 0⟩
def Time.FT_SKIPPED : Reg := ⟨timeBase + 0x43C, 0⟩
def Time.FT_PD_SHADOW (s : Nat) : Reg := ⟨timeBase + 0x440 + s * 4, 0x5B8D80⟩
def Time.FT_PD_ACTIVE (s : Nat) : Reg := ⟨timeBase + 0x450 + s * 4, 0x5B8D80⟩
def Time.FT_PD_COMMIT : Reg := ⟨timeBase + 0x460, 0⟩

/-! ### Net (R308) -/
def Net.NET_INT_SUMMARY : Reg := ⟨netBase, 0⟩
def Net.DEPKT_INT_STATUS : Reg := ⟨netBase + 4, 0⟩
def Net.DEPKT_INT_ENABLE : Reg := ⟨netBase + 8, 0⟩
def Net.PORT_CTRL (p : Nat) : Reg := ⟨netBase + 0x1000 + p * 0x1000, 0x5EE0000⟩
def Net.PORT_STATUS (p : Nat) : Reg := ⟨netBase + 0x1004 + p * 0x1000, 0⟩
def Net.PORT_ERR (p : Nat) : Reg := ⟨netBase + 0x1008 + p * 0x1000, 0⟩
def Net.INT_STATUS (p : Nat) : Reg := ⟨netBase + 0x100C + p * 0x1000, 0⟩
def Net.INT_ENABLE (p : Nat) : Reg := ⟨netBase + 0x1010 + p * 0x1000, 0⟩
def Net.MAC_ADDR (p : Nat) : Reg := ⟨netBase + 0x1018 + p * 0x1000, 0⟩
def Net.PAUSE_CFG (p : Nat) : Reg := ⟨netBase + 0x1020 + p * 0x1000, 0x1F4FFFF⟩
def Net.XOFF_CFG (p : Nat) : Reg := ⟨netBase + 0x1024 + p * 0x1000, 0x80C001⟩
def Net.XOFF_STATUS (p : Nat) : Reg := ⟨netBase + 0x1028 + p * 0x1000, 0⟩
def Net.DEFAULT_ACTION (p : Nat) : Reg := ⟨netBase + 0x102C + p * 0x1000, 0⟩
def Net.RX_FRAMES (p : Nat) : Reg := ⟨netBase + 0x1040 + p * 0x1000, 0⟩
def Net.RX_BYTES (p : Nat) : Reg := ⟨netBase + 0x1048 + p * 0x1000, 0⟩
def Net.RX_FCS_ERRS (p : Nat) : Reg := ⟨netBase + 0x1050 + p * 0x1000, 0⟩
def Net.RX_CODE_ERRS (p : Nat) : Reg := ⟨netBase + 0x1054 + p * 0x1000, 0⟩
def Net.RX_RUNTS (p : Nat) : Reg := ⟨netBase + 0x1058 + p * 0x1000, 0⟩
def Net.RX_OVERSIZE (p : Nat) : Reg := ⟨netBase + 0x105C + p * 0x1000, 0⟩
def Net.RX_FIFO_DROPS (p : Nat) : Reg := ⟨netBase + 0x1060 + p * 0x1000, 0⟩
def Net.RX_FILTER_DROPS (p : Nat) : Reg := ⟨netBase + 0x1064 + p * 0x1000, 0⟩
def Net.RX_PAUSE (p : Nat) : Reg := ⟨netBase + 0x1068 + p * 0x1000, 0⟩
def Net.TX_FRAMES (p : Nat) : Reg := ⟨netBase + 0x106C + p * 0x1000, 0⟩
def Net.TX_BYTES (p : Nat) : Reg := ⟨netBase + 0x1070 + p * 0x1000, 0⟩
def Net.TX_PAUSE (p : Nat) : Reg := ⟨netBase + 0x1078 + p * 0x1000, 0⟩
def Net.FLT_CTRL (p f : Nat) : Reg := ⟨netBase + 0x1100 + p * 0x1000 + f * 0x10, 0⟩
def Net.FLT_KEY (p f : Nat) : Reg := ⟨netBase + 0x1104 + p * 0x1000 + f * 0x10, 0⟩
def Net.FLT_IP (p f : Nat) : Reg := ⟨netBase + 0x1108 + p * 0x1000 + f * 0x10, 0⟩
def Net.FLT_UDP (p f : Nat) : Reg := ⟨netBase + 0x110C + p * 0x1000 + f * 0x10, 0⟩
def Net.RXR_CTRL (p r : Nat) : Reg := ⟨netBase + 0x1400 + p * 0x1000 + r * 0x40, 0⟩
def Net.RXR_STATUS (p r : Nat) : Reg := ⟨netBase + 0x1404 + p * 0x1000 + r * 0x40, 0⟩
def Net.RXR_BASE (p r : Nat) : Reg := ⟨netBase + 0x1408 + p * 0x1000 + r * 0x40, 0⟩
def Net.RXR_TAIL (p r : Nat) : Reg := ⟨netBase + 0x1410 + p * 0x1000 + r * 0x40, 0⟩
def Net.RXR_HEAD (p r : Nat) : Reg := ⟨netBase + 0x1414 + p * 0x1000 + r * 0x40, 0⟩
def Net.RXR_NOTIFY (p r : Nat) : Reg := ⟨netBase + 0x1418 + p * 0x1000 + r * 0x40, 1⟩
def Net.RXR_FRAMES (p r : Nat) : Reg := ⟨netBase + 0x141C + p * 0x1000 + r * 0x40, 0⟩
def Net.RXR_NOBUF (p r : Nat) : Reg := ⟨netBase + 0x1420 + p * 0x1000 + r * 0x40, 0⟩
def Net.RXR_TRUNC_FRAMES (p r : Nat) : Reg := ⟨netBase + 0x1424 + p * 0x1000 + r * 0x40, 0⟩
def Net.RXR_TRUNC_BYTES (p r : Nat) : Reg := ⟨netBase + 0x1428 + p * 0x1000 + r * 0x40, 0⟩
def Net.RXR_BAD_DROPS (p r : Nat) : Reg := ⟨netBase + 0x142C + p * 0x1000 + r * 0x40, 0⟩
def Net.RXR_FAULTS (p r : Nat) : Reg := ⟨netBase + 0x1430 + p * 0x1000 + r * 0x40, 0⟩
def Net.TXR_CTRL (p t : Nat) : Reg := ⟨netBase + 0x1600 + p * 0x1000 + t * 0x40, 0⟩
def Net.TXR_STATUS (p t : Nat) : Reg := ⟨netBase + 0x1604 + p * 0x1000 + t * 0x40, 0⟩
def Net.TXR_BASE (p t : Nat) : Reg := ⟨netBase + 0x1608 + p * 0x1000 + t * 0x40, 0⟩
def Net.TXR_TAIL (p t : Nat) : Reg := ⟨netBase + 0x1610 + p * 0x1000 + t * 0x40, 0⟩
def Net.TXR_HEAD (p t : Nat) : Reg := ⟨netBase + 0x1614 + p * 0x1000 + t * 0x40, 0⟩
def Net.TXR_FRAMES (p t : Nat) : Reg := ⟨netBase + 0x1618 + p * 0x1000 + t * 0x40, 0⟩
def Net.TXR_ERRS (p t : Nat) : Reg := ⟨netBase + 0x161C + p * 0x1000 + t * 0x40, 0⟩
def Net.GCL_CTRL (p : Nat) : Reg := ⟨netBase + 0x1800 + p * 0x1000, 0⟩
def Net.GCL_STATUS (p : Nat) : Reg := ⟨netBase + 0x1804 + p * 0x1000, 0⟩
def Net.ADMIN_BASE_SEC (p : Nat) : Reg := ⟨netBase + 0x1808 + p * 0x1000, 0⟩
def Net.ADMIN_BASE_NS (p : Nat) : Reg := ⟨netBase + 0x1810 + p * 0x1000, 0⟩
def Net.ADMIN_CYCLE (p : Nat) : Reg := ⟨netBase + 0x1814 + p * 0x1000, 0⟩
def Net.ADMIN_LEN (p : Nat) : Reg := ⟨netBase + 0x1818 + p * 0x1000, 0⟩
def Net.OPER_BASE_SEC (p : Nat) : Reg := ⟨netBase + 0x1820 + p * 0x1000, 0⟩
def Net.OPER_BASE_NS (p : Nat) : Reg := ⟨netBase + 0x1828 + p * 0x1000, 0⟩
def Net.OPER_CYCLE (p : Nat) : Reg := ⟨netBase + 0x182C + p * 0x1000, 0⟩
def Net.OPER_LEN (p : Nat) : Reg := ⟨netBase + 0x1830 + p * 0x1000, 0⟩
def Net.GCL_ENTRY (p b i : Nat) : Reg := ⟨netBase + 0x1A00 + p * 0x1000 + b * 0x100 + i * 4, 0⟩
def Net.FLOW_CTRL (f : Nat) : Reg := ⟨netBase + 0x8000 + f * 0x100, 0⟩
def Net.FLOW_GEOM (f : Nat) : Reg := ⟨netBase + 0x8004 + f * 0x100, 0⟩
def Net.FLOW_STRIDE (f : Nat) : Reg := ⟨netBase + 0x8008 + f * 0x100, 0⟩
def Net.FLOW_TMO (f : Nat) : Reg := ⟨netBase + 0x800C + f * 0x100, 0xC350⟩
def Net.FLOW_BUF (f b : Nat) : Reg := ⟨netBase + 0x8010 + f * 0x100 + b * 8, 0⟩
def Net.FLOW_SLOTS (f : Nat) : Reg := ⟨netBase + 0x8030 + f * 0x100, 0⟩
def Net.FLOW_RELEASE (f : Nat) : Reg := ⟨netBase + 0x8034 + f * 0x100, 0⟩
def Net.FLOW_PKTS (f : Nat) : Reg := ⟨netBase + 0x8038 + f * 0x100, 0⟩
def Net.FLOW_MISSING (f : Nat) : Reg := ⟨netBase + 0x803C + f * 0x100, 0⟩
def Net.FLOW_DUPES (f : Nat) : Reg := ⟨netBase + 0x8040 + f * 0x100, 0⟩
def Net.FLOW_LATE (f : Nat) : Reg := ⟨netBase + 0x8044 + f * 0x100, 0⟩
def Net.FLOW_FAULTS (f : Nat) : Reg := ⟨netBase + 0x8048 + f * 0x100, 0⟩
def Net.FLOW_DROPPED (f : Nat) : Reg := ⟨netBase + 0x804C + f * 0x100, 0⟩
def Net.FLOW_RANGE_ERRS (f : Nat) : Reg := ⟨netBase + 0x8050 + f * 0x100, 0⟩
def Net.SLOT_RTP (f b : Nat) : Reg := ⟨netBase + 0x8080 + f * 0x100 + b * 0x20, 0⟩
def Net.SLOT_INFO (f b : Nat) : Reg := ⟨netBase + 0x8084 + f * 0x100 + b * 0x20, 0⟩
def Net.SLOT_FIRST (f b : Nat) : Reg := ⟨netBase + 0x8088 + f * 0x100 + b * 0x20, 0⟩
def Net.SLOT_LAST (f b : Nat) : Reg := ⟨netBase + 0x8090 + f * 0x100 + b * 0x20, 0⟩
def Net.E131_SEQ (j : Nat) : Reg := ⟨netBase + 0xC000 + j * 4, 0⟩

/-! ### Led (R367) -/
def Led.LED_CTRL : Reg := ⟨ledBase, 2⟩
def Led.LED_STATUS : Reg := ⟨ledBase + 4, 0⟩
def Led.LED_ERR : Reg := ⟨ledBase + 8, 0⟩
def Led.INT_STATUS : Reg := ⟨ledBase + 0xC, 0⟩
def Led.INT_ENABLE : Reg := ⟨ledBase + 0x10, 0⟩
def Led.PWM_PERIOD : Reg := ⟨ledBase + 0x14, 0xC350⟩
def Led.PWM_COUNT : Reg := ⟨ledBase + 0x18, 0⟩
def Led.PHASE_SNAPS : Reg := ⟨ledBase + 0x1C, 0⟩
def Led.SINK_POWER : Reg := ⟨ledBase + 0x20, 0x80000000⟩
def Led.SINK_PWR_LIMIT : Reg := ⟨ledBase + 0x24, 0x7530⟩
def Led.HR_CTRL : Reg := ⟨ledBase + 0x30, 0x80A0C00⟩
def Led.HR_LIMITS : Reg := ⟨ledBase + 0x34, 0xFFF0000⟩
def Led.HR_ADJ : Reg := ⟨ledBase + 0x38, 0⟩
def Led.HR_SAFE : Reg := ⟨ledBase + 0x3C, 0⟩
def Led.VLED_MAX : Reg := ⟨ledBase + 0x40, 0xEA60⟩
def Led.HR_STATUS : Reg := ⟨ledBase + 0x44, 0⟩
def Led.TH_CFG (t : Nat) : Reg := ⟨ledBase + 0x50 + t * 4, 0x405A4600⟩
def Led.TH_STATUS (t : Nat) : Reg := ⟨ledBase + 0x70 + t * 4, 0x80000000⟩
def Led.TH_FAULTS : Reg := ⟨ledBase + 0x90, 0⟩
def Led.DERATE_STEP : Reg := ⟨ledBase + 0x94, 0x200⟩
def Led.DIAG_CFG : Reg := ⟨ledBase + 0xA0, 0x4781004⟩
def Led.ENG_CTRL (e : Nat) : Reg := ⟨ledBase + 0x100 + e * 0x20, 0x10000⟩
def Led.ENG_ORIGIN (e : Nat) : Reg := ⟨ledBase + 0x108 + e * 0x20, 0⟩
def Led.ENG_STATUS (e : Nat) : Reg := ⟨ledBase + 0x110 + e * 0x20, 0⟩
def Led.STEP (i : Nat) : Reg := ⟨ledBase + 0x400 + i * 8, 0⟩
def Led.CH_DUTY (c : Nat) : Reg := ⟨ledBase + 0x1000 + c * 0x20, 0⟩
def Led.CH_CFG (c : Nat) : Reg := ⟨ledBase + 0x1004 + c * 0x20, 0x8000⟩
def Led.CH_CURRENT (c : Nat) : Reg := ⟨ledBase + 0x1008 + c * 0x20, 0⟩
def Led.CH_STATUS (c : Nat) : Reg := ⟨ledBase + 0x100C + c * 0x20, 0⟩
def Led.CH_CLEAR (c : Nat) : Reg := ⟨ledBase + 0x1010 + c * 0x20, 0⟩
def Led.CH_DUTY_ACT (c : Nat) : Reg := ⟨ledBase + 0x1014 + c * 0x20, 0⟩
def Led.CURVE (k i : Nat) : Reg := ⟨ledBase + 0x4000 + k * 0x1000 + i * 4, BitVec.ofNat 64 (i * 262144 / 1023)⟩
def Led.TH_LUT (j : Nat) : Reg := ⟨ledBase + 0x8000 + j * 4, 0⟩

/-! ### Adc (R368, R382) -/
def Adc.ADC_CTRL : Reg := ⟨adcBase, 3⟩
def Adc.ADC_STATUS : Reg := ⟨adcBase + 4, 0⟩
def Adc.ADC_ERR : Reg := ⟨adcBase + 8, 0⟩
def Adc.INT_STATUS : Reg := ⟨adcBase + 0xC, 0⟩
def Adc.INT_ENABLE : Reg := ⟨adcBase + 0x10, 0⟩
def Adc.HK_RESULT (i : Nat) : Reg := ⟨adcBase + 0x40 + i * 4, 0⟩
def Adc.CONV_CTRL (u : Nat) : Reg := ⟨adcBase + 0x100 + u * 0x100, 0⟩
def Adc.CONV_TRIG_CFG (u : Nat) : Reg := ⟨adcBase + 0x104 + u * 0x100, 0⟩
def Adc.CONV_GO (u : Nat) : Reg := ⟨adcBase + 0x108 + u * 0x100, 0⟩
def Adc.CONV_STATUS (u : Nat) : Reg := ⟨adcBase + 0x10C + u * 0x100, 0⟩
def Adc.TRIG_LOST (u : Nat) : Reg := ⟨adcBase + 0x110 + u * 0x100, 0⟩
def Adc.FIFO_LOST (u : Nat) : Reg := ⟨adcBase + 0x114 + u * 0x100, 0⟩
def Adc.FIFO_POP (u : Nat) : Reg := ⟨adcBase + 0x118 + u * 0x100, 0⟩
def Adc.FIFO_HEAD (u : Nat) : Reg := ⟨adcBase + 0x11C + u * 0x100, 0⟩
def Adc.FIFO_HEAD_TIME (u : Nat) : Reg := ⟨adcBase + 0x120 + u * 0x100, 0⟩
def Adc.SLOT (u k : Nat) : Reg := ⟨adcBase + 0x140 + u * 0x100 + k * 4, 0⟩
def Adc.RESULT (u k : Nat) : Reg := ⟨adcBase + 0x180 + u * 0x100 + k * 4, 0⟩
def Adc.CAL_CTRL : Reg := ⟨adcBase + 0x1000, 0x20⟩
def Adc.CAL_STATUS : Reg := ⟨adcBase + 0x1004, 0⟩
def Adc.CAL_RESULT : Reg := ⟨adcBase + 0x1008, 0⟩
def Adc.CAL_CHANNELS : Reg := ⟨adcBase + 0x1010, 0⟩
def Adc.CAL_VREF_CERT : Reg := ⟨adcBase + 0x1018, 0x2625A0⟩
def Adc.CAL_ISET_CERT : Reg := ⟨adcBase + 0x101C, 0x1E8480⟩
def Adc.CAL_REF_ID : Reg := ⟨adcBase + 0x1020, 0⟩
def Adc.CAL_ISET_ID : Reg := ⟨adcBase + 0x1028, 0⟩
def Adc.CAL_OPERATOR : Reg := ⟨adcBase + 0x1030, 0⟩
def Adc.CAL_VREF_MEAS : Reg := ⟨adcBase + 0x1038, 0⟩
def Adc.CAL_ISET_MEAS : Reg := ⟨adcBase + 0x103C, 0⟩
def Adc.ADC_OFF_TRIM (u : Nat) : Reg := ⟨adcBase + 0x1040 + u * 4, 0⟩
def Adc.ADC1_GAIN_TRIM : Reg := ⟨adcBase + 0x1048, 0⟩
def Adc.VREF_TRIM : Reg := ⟨adcBase + 0x104C, 0⟩
def Adc.CAL_RUNS : Reg := ⟨adcBase + 0x1050, 0⟩
def Adc.CAL_ABORTS : Reg := ⟨adcBase + 0x1054, 0⟩
def Adc.CH_TRIM (c : Nat) : Reg := ⟨adcBase + 0x1100 + c * 4, 0⟩
def Adc.CH_CAL_ERR (c : Nat) : Reg := ⟨adcBase + 0x1200 + c * 4, 0⟩

/-! ### Rec (R397) -/
def Rec.REC_CTRL : Reg := ⟨recBase, 0x3E8C000⟩
def Rec.REC_STATUS : Reg := ⟨recBase + 4, 8⟩
def Rec.REC_ERR : Reg := ⟨recBase + 8, 0⟩
def Rec.INT_STATUS : Reg := ⟨recBase + 0xC, 0⟩
def Rec.INT_ENABLE : Reg := ⟨recBase + 0x10, 0⟩
def Rec.REC_NEXT_SEQ : Reg := ⟨recBase + 0x18, 0⟩
def Rec.REC_PERM_CFG : Reg := ⟨recBase + 0x20, 0x2000⟩
def Rec.REC_PERM_ACT : Reg := ⟨recBase + 0x24, 0x2000⟩
def Rec.REC_PERM_COUNT : Reg := ⟨recBase + 0x28, 0⟩
def Rec.REC_RING_HEAD : Reg := ⟨recBase + 0x2C, 0x2000⟩
def Rec.REC_LOST : Reg := ⟨recBase + 0x30, 0⟩
def Rec.REC_CORRUPT : Reg := ⟨recBase + 0x34, 0⟩
def Rec.REC_COMMITS : Reg := ⟨recBase + 0x38, 0⟩
def Rec.REC_CMD : Reg := ⟨recBase + 0x3C, 0⟩
def Rec.REC_READ_IDX : Reg := ⟨recBase + 0x40, 0⟩
def Rec.REC_READ_STATE : Reg := ⟨recBase + 0x44, 0⟩
def Rec.REC_READ_DATA (i : Nat) : Reg := ⟨recBase + 0x80 + i * 4, 0⟩
def Rec.HOST_LOG_CODE : Reg := ⟨recBase + 0x100, 0⟩
def Rec.HOST_LOG_PAYLOAD (i : Nat) : Reg := ⟨recBase + 0x104 + i * 4, 0⟩
def Rec.HOST_LOG_SUBMIT : Reg := ⟨recBase + 0x120, 0⟩

/-! ### Upd (R458) -/
def Upd.UPD_CTRL : Reg := ⟨updBase, 0⟩
def Upd.UPD_STATUS : Reg := ⟨updBase + 4, 0⟩
def Upd.UPD_ERR : Reg := ⟨updBase + 8, 0⟩
def Upd.INT_STATUS : Reg := ⟨updBase + 0xC, 0⟩
def Upd.INT_ENABLE : Reg := ⟨updBase + 0x10, 0⟩
def Upd.UPD_CMD : Reg := ⟨updBase + 0x20, 0⟩
def Upd.UPD_CMD_STATUS : Reg := ⟨updBase + 0x24, 0⟩
def Upd.UPD_ARG0 : Reg := ⟨updBase + 0x28, 0⟩
def Upd.UPD_ARG1 : Reg := ⟨updBase + 0x30, 0⟩
def Upd.FW_VERSION_A : Reg := ⟨updBase + 0x40, 0⟩
def Upd.FW_VERSION_B : Reg := ⟨updBase + 0x44, 0⟩
def Upd.FW_VERSION_Q : Reg := ⟨updBase + 0x48, 0⟩
def Upd.SEC_COUNTER : Reg := ⟨updBase + 0x4C, 0⟩
def Upd.SETTINGS_GEN : Reg := ⟨updBase + 0x50, 0⟩
def Upd.SETTINGS_VER : Reg := ⟨updBase + 0x54, 0⟩
def Upd.TRIAL_HEALTHY : Reg := ⟨updBase + 0x58, 0⟩
def Upd.CHUNKS_TOTAL : Reg := ⟨updBase + 0x5C, 0⟩
def Upd.FLASH_WEAR : Reg := ⟨updBase + 0x60, 0⟩
def Upd.CHUNK_MAP (i : Nat) : Reg := ⟨updBase + 0x80 + i * 4, 0⟩

/-! ### Red (R339) -/
def Red.RED_CTRL : Reg := ⟨redBase, 0x400⟩
def Red.RED_STATUS : Reg := ⟨redBase + 4, 1⟩
def Red.RED_ERR : Reg := ⟨redBase + 8, 0⟩
def Red.INT_STATUS : Reg := ⟨redBase + 0xC, 0⟩
def Red.INT_ENABLE : Reg := ⟨redBase + 0x10, 0⟩
def Red.RANK : Reg := ⟨redBase + 0x14, 0⟩
def Red.CLAIM : Reg := ⟨redBase + 0x18, 0⟩
def Red.PEER : Reg := ⟨redBase + 0x1C, 0⟩
def Red.TWIN_PORTS : Reg := ⟨redBase + 0x20, 0⟩
def Red.SWITCH_CMD : Reg := ⟨redBase + 0x24, 0⟩
def Red.SWITCH_STATUS : Reg := ⟨redBase + 0x28, 0⟩
def Red.SWITCH_FRAME : Reg := ⟨redBase + 0x2C, 0⟩
def Red.HB_SENT : Reg := ⟨redBase + 0x30, 0⟩
def Red.HB_MISS_A : Reg := ⟨redBase + 0x34, 0⟩
def Red.HB_MISS_B : Reg := ⟨redBase + 0x38, 0⟩
def Red.HB_BAD : Reg := ⟨redBase + 0x3C, 0⟩
def Red.MIRROR_SEQ_TX : Reg := ⟨redBase + 0x40, 0⟩
def Red.MIRROR_SEQ_APPLIED : Reg := ⟨redBase + 0x44, 0⟩
def Red.MIRROR_BYTES : Reg := ⟨redBase + 0x48, 0⟩
def Red.MIRROR_BUDGET : Reg := ⟨redBase + 0x4C, 0xD2900⟩
def Red.MIRROR_SKIPS : Reg := ⟨redBase + 0x50, 0⟩
def Red.MIRROR_OVERRUNS : Reg := ⟨redBase + 0x54, 0⟩
def Red.TAKEOVER_COUNT : Reg := ⟨redBase + 0x58, 0⟩
def Red.LANE_VOTES : Reg := ⟨redBase + 0x5C, 0⟩
def Red.SHOW_CTRL : Reg := ⟨redBase + 0x80, 0⟩
def Red.SHOW_ORIGIN : Reg := ⟨redBase + 0x88, 0⟩
def Red.SHOW_HELD : Reg := ⟨redBase + 0x90, 0⟩
def Red.SHOW_WORD (i : Nat) : Reg := ⟨redBase + 0x100 + i * 4, 0⟩
def Red.HOP_SKEW (p : Nat) : Reg := ⟨redBase + 0x200 + p * 4, 0⟩

/-! ### Hst (R439) -/
def Hst.HOST_STATUS : Reg := ⟨hstBase, 0⟩
def Hst.HOST_ERR : Reg := ⟨hstBase + 4, 0⟩
def Hst.INT_STATUS : Reg := ⟨hstBase + 8, 0⟩
def Hst.INT_ENABLE : Reg := ⟨hstBase + 0xC, 0⟩
def Hst.BAR2_BASE : Reg := ⟨hstBase + 0x10, 0⟩
def Hst.BAR2_STATUS : Reg := ⟨hstBase + 0x18, 0⟩
def Hst.VEC_ACK : Reg := ⟨hstBase + 0x20, 0⟩
def Hst.VEC_COND : Reg := ⟨hstBase + 0x28, 0⟩
def Hst.MBX_CMD (i : Nat) : Reg := ⟨hstBase + 0x100 + i * 4, 0⟩
def Hst.MBX_GO : Reg := ⟨hstBase + 0x140, 0⟩
def Hst.MBX_STATUS : Reg := ⟨hstBase + 0x144, 0⟩
def Hst.MBX_RESP (i : Nat) : Reg := ⟨hstBase + 0x180 + i * 4, 0⟩
def Hst.NTF_BASE : Reg := ⟨hstBase + 0x200, 0⟩
def Hst.NTF_CFG : Reg := ⟨hstBase + 0x208, 0⟩
def Hst.NTF_HEAD : Reg := ⟨hstBase + 0x20C, 0⟩
def Hst.NTF_TAIL : Reg := ⟨hstBase + 0x210, 0⟩
def Hst.NTF_LOST : Reg := ⟨hstBase + 0x214, 0⟩
def Hst.MSIX (v w : Nat) : Reg := ⟨hstBase + 0x1000 + v * 0x10 + w * 4, 0⟩
def Hst.MSIX_PBA (w : Nat) : Reg := ⟨hstBase + 0x1800 + w * 4, 0⟩

/-- The access codes of R8. -/
inductive Access
  | rw | ro | wo | w1c | w1s | rc | sc
  deriving DecidableEq, Repr

/-- The commit classes of R13. -/
inductive CommitClass
  | imm | win | shd
  deriving DecidableEq, Repr

/-- One row of a register table: offset from the block instance, dimensions (count, stride),
width, access, commit class, reset value of the instance, and the bits a write can act on. -/
structure RegRow where
  off : Nat
  dims : List (Nat × Nat)
  w64 : Bool
  acc : Access
  cls : CommitClass
  rst : List Nat → Nat
  mask : Nat

/-- The blocks of the physical address map (R18, R19). -/
inductive BlockId
  | slc | sched | dma | dmaB | mmu | mc | iommu | layer | scan | trunk | crc | seg | sys | time | net | led | adc | recorder | upd | red | hst
  deriving DecidableEq, Repr

/-- R29 -/
def slcRows : List RegRow := [
  ⟨0, [], false, .ro, .imm, fun ix => 0x80320500 + ix.headD 0, 0⟩,
  ⟨4, [], false, .rw, .imm, fun _ => 0, 1⟩,
  ⟨8, [], false, .ro, .imm, fun _ => 0, 0⟩,
  ⟨0x10, [], false, .rw, .imm, fun _ => 0x400, 0xFF07⟩,
  ⟨0x14, [], false, .ro, .imm, fun _ => 0, 0⟩,
  ⟨0x18, [], false, .ro, .imm, fun _ => 0, 0⟩,
  ⟨0x1C, [], false, .ro, .imm, fun _ => 0, 0⟩,
  ⟨0x20, [], false, .w1c, .imm, fun _ => 0, 0x80000000⟩,
  ⟨0x24, [], false, .w1c, .imm, fun _ => 0, 1⟩]

/-- R171 -/
def schedRows0 : List RegRow := [
  ⟨0, [], false, .rw, .imm, fun _ => 3, 3⟩,
  ⟨4, [], false, .ro, .imm, fun _ => 0x13000, 0⟩,
  ⟨8, [], false, .w1c, .imm, fun _ => 0, 0x3F⟩,
  ⟨0xC, [], false, .w1c, .imm, fun _ => 0, 3⟩,
  ⟨0x10, [], false, .rw, .imm, fun _ => 0, 7⟩,
  ⟨0x14, [], false, .rw, .imm, fun _ => 0x2000A, 0x3FFF03FF⟩,
  ⟨0x18, [], false, .rw, .imm, fun _ => 0xE00100, 0x1FF1FFF⟩,
  ⟨0x1C, [], false, .ro, .imm, fun _ => 0, 0⟩,
  ⟨0x20, [], true, .rw, .imm, fun _ => 0, 0xFFFFFFF000⟩,
  ⟨0x28, [], false, .rw, .imm, fun _ => 0, 0x7FF⟩,
  ⟨0x2C, [], false, .ro, .imm, fun _ => 0, 0⟩,
  ⟨0x30, [], true, .rw, .imm, fun _ => 0, 0xFFFFFFF000⟩,
  ⟨0x38, [], false, .rw, .imm, fun _ => 0, 0x71⟩,
  ⟨0x3C, [], false, .rw, .imm, fun _ => 0, 0xFFF⟩,
  ⟨0x40, [], false, .ro, .imm, fun _ => 0, 0⟩,
  ⟨0x44, [], false, .ro, .imm, fun _ => 0, 0⟩,
  ⟨0x48, [], false, .ro, .imm, fun _ => 0, 0⟩,
  ⟨0x50, [], true, .wo, .imm, fun _ => 0, 0xFFFFFFFFFFFFFFFF⟩,
  ⟨0x58, [], false, .ro, .imm, fun _ => 0x80000000, 0⟩,
  ⟨0x80, [(8, 4)], false, .rw, .imm, fun _ => 0x2000101, 0x1FFF01FF⟩,
  ⟨0xA0, [(8, 4)], false, .ro, .imm, fun _ => 0, 0⟩,
  ⟨0xC0, [(8, 4)], false, .rw, .imm, fun _ => 0, 3⟩,
  ⟨0xE0, [(8, 4)], false, .ro, .imm, fun _ => 0x10, 0⟩,
  ⟨0x100, [(64, 4)], false, .rw, .imm, fun _ => 0x10000, 0x1FF03⟩,
  ⟨0x200, [(64, 8)], false, .ro, .imm, fun _ => 0, 0⟩,
  ⟨0x204, [(64, 8)], false, .ro, .imm, fun _ => 0, 0⟩,
  ⟨0x400, [(16, 4)], false, .wo, .imm, fun _ => 0, 0xFFFFFFFF⟩,
  ⟨0x440, [], false, .wo, .imm, fun _ => 0, 0⟩,
  ⟨0x448, [], true, .ro, .imm, fun _ => 0x8000000000000000, 0⟩,
  ⟨0x800, [(32, 0x20)], false, .rw, .imm, fun _ => 0, 0xFFFFFF3F⟩,
  ⟨0x804, [(32, 0x20)], false, .rw, .imm, fun _ => 0xFF00, 0xFFFFF1⟩,
  ⟨0x808, [(32, 0x20)], true, .rw, .imm, fun _ => 0, 0xFFFFFFFFFFFFFFFF⟩,
  ⟨0x810, [(32, 0x20)], false, .ro, .imm, fun _ => 0, 0⟩,
  ⟨0x818, [(32, 0x20)], true, .ro, .imm, fun _ => 0, 0⟩,
  ⟨0xC00, [], true, .w1c, .imm, fun _ => 0, 0xFFFFFFFFFFFFFFFF⟩,
  ⟨0xC10, [], false, .ro, .imm, fun _ => 0, 0⟩,
  ⟨0xC14, [], false, .ro, .imm, fun _ => 0, 0⟩,
  ⟨0xC18, [], false, .ro, .imm, fun _ => 0, 0⟩,
  ⟨0xC1C, [], false, .ro, .imm, fun _ => 0, 0⟩,
  ⟨0xC20, [], false, .ro, .imm, fun _ => 0, 0⟩]
/-- R171 -/
def schedRows1 : List RegRow := [
  ⟨0xC24, [], false, .ro, .imm, fun _ => 0, 0⟩,
  ⟨0xC30, [], false, .rw, .imm, fun _ => 0, 0xFFF⟩,
  ⟨0xC34, [], false, .ro, .imm, fun _ => 0, 0⟩,
  ⟨0xC38, [], false, .ro, .imm, fun _ => 0, 0⟩,
  ⟨0x1020, [(63, 0x20)], false, .rw, .imm, fun _ => 0, 0x81FFFFFF⟩,
  ⟨0x1024, [(63, 0x20)], false, .rw, .imm, fun _ => 0, 0xFF⟩,
  ⟨0x1028, [(63, 0x20)], true, .rw, .imm, fun _ => 0, 0xFFFFFFFFFFFFFFFF⟩,
  ⟨0x1030, [(63, 0x20)], true, .rw, .imm, fun _ => 0, 0xFFFFFFFFFF⟩]
def schedRows : List RegRow := schedRows0 ++ schedRows1

/-- R203, R204 -/
def dmaRows : List RegRow := [
  ⟨0, [], false, .rw, .imm, fun _ => 0x10, 0x7FF1⟩,
  ⟨4, [], false, .ro, .imm, fun _ => 0, 0⟩,
  ⟨8, [], true, .rw, .imm, fun _ => 0, 0xFFFFFFFFFFFFFFC0⟩,
  ⟨0x10, [], false, .rw, .imm, fun _ => 0, 0xF⟩,
  ⟨0x14, [], false, .ro, .imm, fun _ => 0, 0⟩,
  ⟨0x18, [], true, .rw, .imm, fun _ => 0, 0xFFFFFFFFFFFFFFFC⟩,
  ⟨0x20, [], false, .wo, .imm, fun _ => 0, 0⟩,
  ⟨0x24, [], false, .ro, .imm, fun _ => 0, 0⟩,
  ⟨0x28, [], false, .ro, .imm, fun _ => 0, 0⟩,
  ⟨0x2C, [], false, .w1c, .imm, fun _ => 0, 0xF⟩,
  ⟨0x30, [], false, .rw, .imm, fun _ => 0, 0xF⟩]

/-- R203, R204 -/
def dmaBRows : List RegRow := [
  ⟨0, [], false, .w1c, .imm, fun _ => 0, 1⟩,
  ⟨4, [], false, .w1c, .imm, fun _ => 0, 0xFFFF⟩,
  ⟨8, [], false, .ro, .imm, fun _ => 0, 0⟩]

/-- R201, R202 -/
def mmuRows : List RegRow := [
  ⟨0, [], false, .rw, .imm, fun _ => 0, 1⟩,
  ⟨8, [], true, .rw, .imm, fun _ => 0, 0xFFFFFFF000⟩,
  ⟨0x10, [], false, .rw, .imm, fun _ => 0, 0xFFFF01F3⟩,
  ⟨0x18, [], true, .rw, .imm, fun _ => 0, 0xFFFFFFFFF000⟩,
  ⟨0x20, [], false, .ro, .imm, fun _ => 0, 0⟩,
  ⟨0x24, [], false, .w1c, .imm, fun _ => 0, 0xF⟩,
  ⟨0x28, [], false, .rw, .imm, fun _ => 0, 0x1F⟩,
  ⟨0x2C, [], false, .w1c, .imm, fun _ => 0, 7⟩,
  ⟨0x30, [], false, .ro, .imm, fun _ => 0, 0⟩,
  ⟨0x34, [], false, .ro, .imm, fun _ => 0, 0⟩,
  ⟨0x40, [(8, 4)], false, .ro, .imm, fun _ => 0, 0⟩,
  ⟨0x60, [], false, .wo, .imm, fun _ => 0, 0⟩,
  ⟨0x64, [], false, .wo, .imm, fun _ => 0, 0⟩]

/-- R201 -/
def mcRows : List RegRow := [
  ⟨0x800, [], true, .ro, .imm, fun _ => 0xFFFFFFFFFFFFFFFF, 0⟩,
  ⟨0x810, [(16, 0x10)], true, .ro, .imm, fun _ => 0, 0⟩,
  ⟨0x818, [(16, 0x10)], true, .ro, .imm, fun _ => 0xFFFFFFFFFFFFFFFF, 0⟩,
  ⟨0xC00, [], false, .ro, .imm, fun _ => 0, 0⟩,
  ⟨0xC04, [], false, .ro, .imm, fun _ => 0, 0⟩,
  ⟨0xC08, [], true, .ro, .imm, fun _ => 0, 0⟩,
  ⟨0xC10, [], false, .ro, .imm, fun _ => 0, 0⟩,
  ⟨0xC14, [], false, .rw, .imm, fun _ => 0x1801, 0xFF01⟩,
  ⟨0xC18, [], false, .ro, .imm, fun _ => 0, 0⟩]

/-- R202 -/
def iommuRows : List RegRow := [
  ⟨0x70, [], false, .ro, .imm, fun _ => 0, 0⟩,
  ⟨0x1000, [(256, 8)], true, .rw, .imm, fun _ => 0, 0x3FFFF⟩]

/-- R230 -/
def layerRows : List RegRow := [
  ⟨0, [(16, 0x40)], true, .rw, .shd, fun _ => 0, 0xFFFFFFFFFFC0⟩,
  ⟨8, [(16, 0x40)], false, .rw, .shd, fun _ => 0, 0xFFFFFFFF⟩,
  ⟨0xC, [(16, 0x40)], false, .rw, .shd, fun _ => 0, 0xFFFFFFFF⟩,
  ⟨0x10, [(16, 0x40)], false, .rw, .shd, fun _ => 0, 7⟩,
  ⟨0x18, [(16, 0x40)], true, .ro, .imm, fun _ => 0, 0⟩,
  ⟨0x20, [(16, 0x40)], false, .ro, .imm, fun _ => 0, 0⟩,
  ⟨0x24, [(16, 0x40)], false, .ro, .imm, fun _ => 0, 0⟩,
  ⟨0x28, [(16, 0x40)], false, .ro, .imm, fun _ => 0, 0⟩,
  ⟨0x2C, [(16, 0x40)], false, .ro, .imm, fun _ => 0xFFFFFFFF, 0⟩,
  ⟨0x30, [(16, 0x40)], false, .ro, .imm, fun _ => 0, 0⟩,
  ⟨0x34, [(16, 0x40)], false, .ro, .imm, fun _ => 0, 0⟩,
  ⟨0x400, [], false, .w1s, .shd, fun _ => 0, 0xFFFF⟩,
  ⟨0x404, [], false, .w1c, .imm, fun _ => 0, 0x1FFFF⟩,
  ⟨0x408, [], false, .w1c, .imm, fun _ => 0, 0x1FFFFF⟩,
  ⟨0x40C, [], false, .rw, .imm, fun _ => 0, 0x3FFFFF⟩,
  ⟨0x410, [], false, .ro, .imm, fun _ => 0, 0⟩,
  ⟨0x414, [], false, .ro, .imm, fun _ => 0, 0⟩,
  ⟨0x418, [], false, .ro, .imm, fun _ => 0, 0⟩,
  ⟨0x41C, [], false, .ro, .imm, fun _ => 0, 0⟩,
  ⟨0x420, [], false, .ro, .imm, fun _ => 0, 0⟩,
  ⟨0x424, [], false, .ro, .imm, fun _ => 0xFFFFFFFF, 0⟩,
  ⟨0x428, [], false, .ro, .imm, fun _ => 0, 0⟩,
  ⟨0x4000, [(8, 0x20)], false, .rw, .win, fun _ => 0, 1⟩,
  ⟨0x4004, [(8, 0x20)], false, .rw, .win, fun _ => 0, 0x7FFF3FFF⟩,
  ⟨0x4008, [(8, 0x20)], false, .w1c, .imm, fun _ => 0, 1⟩,
  ⟨0x400C, [(8, 0x20)], false, .ro, .imm, fun _ => 0, 0⟩,
  ⟨0x8000, [], false, .rw, .win, fun _ => 0x400, 0xF01⟩,
  ⟨0x8004, [], false, .ro, .imm, fun _ => 0, 0⟩,
  ⟨0x8008, [], false, .ro, .imm, fun _ => 0, 0⟩,
  ⟨0x8100, [(64, 0x20)], false, .rw, .win, fun _ => 0, 1⟩,
  ⟨0x8104, [(64, 0x20)], false, .rw, .win, fun _ => 0, 0xFFFF⟩,
  ⟨0x8108, [(64, 0x20)], false, .rw, .win, fun _ => 0, 0xFFFFFFFF⟩,
  ⟨0x810C, [(64, 0x20)], false, .rw, .win, fun _ => 0, 0xFFFFFFFF⟩,
  ⟨0x8110, [(64, 0x20)], false, .rw, .win, fun _ => 0x88007800, 0xFFFFFFFF⟩,
  ⟨0x8114, [(64, 0x20)], false, .rw, .win, fun _ => 0x40, 0xFFFF⟩,
  ⟨0xC000, [(8, 0x200), (64, 8)], true, .ro, .imm, fun _ => 0x8000800080008000, 0⟩,
  ⟨0xD000, [(8, 0x40), (16, 4)], false, .rw, .win, fun _ => 0, 0xFFFFFFFF⟩,
  ⟨0xD400, [(8, 8)], true, .ro, .imm, fun _ => 0, 0⟩]

/-- R69 -/
def scanRows : List RegRow := [
  ⟨0, [], false, .rw, .win, fun _ => 0, 0x133⟩,
  ⟨4, [], false, .ro, .imm, fun _ => 0, 0⟩,
  ⟨8, [], false, .rw, .win, fun _ => 0x10440400, 0xFFFFFFFF⟩,
  ⟨0xC, [], false, .rw, .win, fun _ => 0x20810100, 0xFFFFFFFF⟩,
  ⟨0x10, [], false, .ro, .imm, fun _ => 0x50979A, 0⟩,
  ⟨0x14, [], false, .rw, .imm, fun _ => 0, 0x3FFF⟩,
  ⟨0x18, [], false, .ro, .imm, fun _ => 0, 0⟩,
  ⟨0x1C, [], false, .ro, .imm, fun _ => 0xFFFFFFFF, 0⟩,
  ⟨0x20, [], false, .w1c, .imm, fun _ => 0, 0x7F⟩,
  ⟨0x24, [], false, .rw, .imm, fun _ => 0, 0x7F⟩,
  ⟨0x28, [], false, .rw, .imm, fun _ => 0, 0xF⟩,
  ⟨0x2C, [], false, .w1c, .imm, fun _ => 0, 0xF⟩,
  ⟨0x30, [], false, .ro, .imm, fun _ => 0, 0⟩,
  ⟨0x34, [], false, .ro, .imm, fun _ => 0, 0⟩,
  ⟨0x38, [], false, .ro, .imm, fun _ => 0, 0⟩,
  ⟨0x3C, [], false, .ro, .imm, fun _ => 0, 0⟩,
  ⟨0x40, [], false, .ro, .imm, fun _ => 0xFFFFFFFF, 0⟩,
  ⟨0x44, [], false, .ro, .imm, fun _ => 0, 0⟩]

/-- R265 -/
def trunkRows : List RegRow := [
  ⟨0, [], false, .rw, .imm, fun _ => 6, 0xF⟩,
  ⟨4, [], false, .ro, .imm, fun _ => 0, 0⟩,
  ⟨8, [], false, .w1c, .imm, fun _ => 0, 0x7F⟩,
  ⟨0xC, [], false, .w1c, .imm, fun _ => 0, 0x1F⟩,
  ⟨0x10, [], false, .rw, .imm, fun _ => 0, 0x3F⟩,
  ⟨0x14, [], false, .rw, .imm, fun _ => 0x28, 0xFF⟩,
  ⟨0x18, [], false, .ro, .imm, fun _ => 0, 0⟩,
  ⟨0x1C, [], false, .ro, .imm, fun _ => 0, 0⟩,
  ⟨0x20, [], false, .ro, .imm, fun _ => 0, 0⟩,
  ⟨0x24, [], false, .ro, .imm, fun _ => 0, 0⟩,
  ⟨0x28, [], false, .ro, .imm, fun _ => 0, 0⟩,
  ⟨0x2C, [], false, .ro, .imm, fun _ => 0, 0⟩,
  ⟨0x30, [], false, .ro, .imm, fun _ => 0, 0⟩,
  ⟨0x34, [], false, .ro, .imm, fun _ => 0, 0⟩,
  ⟨0x38, [], true, .rw, .imm, fun _ => 0, 0xFFFFFFFFFFFFFFC0⟩,
  ⟨0x40, [(8, 4)], false, .rw, .imm, fun _ => 0, 0xFFFFFFFF⟩,
  ⟨0x60, [], false, .wo, .imm, fun _ => 0, 0⟩,
  ⟨0x64, [], false, .ro, .imm, fun _ => 0, 0⟩,
  ⟨0x68, [], false, .ro, .imm, fun _ => 0xFFFFFFFF, 0⟩,
  ⟨0x6C, [], false, .ro, .imm, fun _ => 0, 0⟩,
  ⟨0x70, [], true, .ro, .imm, fun _ => 0, 0⟩,
  ⟨0x100, [(64, 8)], true, .rw, .win, fun _ => 0, 0x7FFFF8003FFFF⟩,
  ⟨0x300, [(64, 4)], false, .ro, .imm, fun _ => 0, 0⟩,
  ⟨0x400, [(64, 8)], true, .rw, .win, fun _ => 0, 0xFFFFFFFFFFFFFFFF⟩]

/-- R405 -/
def crcRows : List RegRow := [
  ⟨0, [], false, .rw, .imm, fun _ => 0, 7⟩,
  ⟨4, [], false, .sc, .imm, fun _ => 0, 1⟩,
  ⟨8, [], false, .ro, .imm, fun _ => 0, 0⟩,
  ⟨0x10, [], false, .wo, .imm, fun _ => 0, 0xFF⟩,
  ⟨0x14, [], false, .wo, .imm, fun _ => 0, 0xFFFF⟩,
  ⟨0x18, [], false, .wo, .imm, fun _ => 0, 0xFFFFFFFF⟩,
  ⟨0x20, [], false, .rw, .imm, fun _ => 0xFFFFFFFF, 0xFFFFFFFF⟩,
  ⟨0x24, [], false, .ro, .imm, fun _ => 0, 0⟩,
  ⟨0x28, [], false, .ro, .imm, fun _ => 0, 0⟩]

/-- R19, R220, R224 -/
def segRows : List RegRow := [
  ⟨0x80000, [(16384, 0x10), (4, 4)], false, .rw, .win, fun _ => 0, 0xFFFFFFFF⟩,
  ⟨0xC0000, [(1024, 0x40), (6, 4)], false, .rw, .win, fun ix => matrixReset (ix.getLastD 0), 0xFFFFFFFF⟩,
  ⟨0xC0018, [(1024, 0x40)], false, .rw, .win, fun _ => 0x2000, 0xFFFF⟩,
  ⟨0xE0000, [(16, 0x2000), (2048, 4)], false, .rw, .win, fun ix => curveReset (ix.getLastD 0), 0xFFFFFFFF⟩]

/-- R438, R483 -/
def sysRows : List RegRow := [
  ⟨0, [], true, .ro, .imm, fun _ => 0, 0⟩,
  ⟨8, [], false, .ro, .imm, fun _ => 0x50B, 0⟩,
  ⟨0xC, [], false, .ro, .imm, fun _ => 0, 0⟩,
  ⟨0x10, [], false, .wo, .imm, fun _ => 0, 0⟩,
  ⟨0x14, [], false, .ro, .imm, fun _ => 2, 0⟩,
  ⟨0x18, [], false, .w1c, .imm, fun _ => 0, 7⟩,
  ⟨0x1C, [], false, .rw, .imm, fun _ => 0, 7⟩,
  ⟨0x20, [], false, .ro, .imm, fun _ => 0, 0⟩,
  ⟨0x24, [], false, .ro, .imm, fun _ => 0, 0⟩,
  ⟨0x28, [], false, .ro, .imm, fun _ => 0, 0⟩,
  ⟨0x30, [], true, .ro, .imm, fun _ => 0x1FC000000, 0⟩,
  ⟨0x38, [], false, .ro, .imm, fun _ => 0, 0⟩,
  ⟨0x3C, [], false, .wo, .imm, fun _ => 0, 0⟩,
  ⟨0x40, [], false, .ro, .imm, fun _ => 1, 0⟩,
  ⟨0x44, [], false, .ro, .imm, fun _ => 0, 0⟩,
  ⟨0x48, [], false, .ro, .imm, fun _ => 0x1FFFF, 0⟩,
  ⟨0x4C, [], false, .ro, .imm, fun _ => 0, 0⟩,
  ⟨0x50, [], false, .ro, .imm, fun _ => 0, 0⟩,
  ⟨0x54, [], false, .ro, .imm, fun _ => 0, 0⟩,
  ⟨0x58, [], false, .wo, .imm, fun _ => 0, 0⟩,
  ⟨0x100, [(8, 0x20)], false, .rw, .imm, fun _ => 0x10000, 0xFFFF0007⟩,
  ⟨0x104, [(8, 0x20)], false, .rw, .imm, fun _ => 0, 0xFFFF⟩,
  ⟨0x108, [(8, 0x20)], false, .ro, .imm, fun _ => 0, 0⟩,
  ⟨0x10C, [(8, 0x20)], false, .w1c, .imm, fun _ => 0, 3⟩,
  ⟨0x110, [(8, 0x20)], false, .ro, .imm, fun _ => 0, 0⟩,
  ⟨0x114, [(8, 0x20)], false, .ro, .imm, fun _ => 0, 0⟩,
  ⟨0x118, [(8, 0x20)], true, .ro, .imm, fun _ => 0, 0⟩]

/-- R44, R287 -/
def timeRows0 : List RegRow := [
  ⟨0, [], false, .rw, .imm, fun _ => 8, 0x1F⟩,
  ⟨4, [], false, .ro, .imm, fun _ => 0, 0⟩,
  ⟨8, [], false, .w1c, .imm, fun _ => 0, 0xF3F⟩,
  ⟨0xC, [], false, .w1c, .imm, fun _ => 0, 0xF3F⟩,
  ⟨0x10, [], false, .rw, .imm, fun _ => 0, 0xF7F⟩,
  ⟨0x20, [], false, .wo, .imm, fun _ => 0, 0⟩,
  ⟨0x28, [], true, .ro, .imm, fun _ => 0, 0⟩,
  ⟨0x30, [], false, .ro, .imm, fun _ => 0, 0⟩,
  ⟨0x34, [], false, .ro, .imm, fun _ => 0, 0⟩,
  ⟨0x40, [], true, .rw, .imm, fun _ => 0, 0xFFFFFFFFFFFFFFFF⟩,
  ⟨0x48, [], true, .rw, .imm, fun _ => 0, 0xFFFFFFFFFFFF⟩,
  ⟨0x50, [], false, .rw, .imm, fun _ => 0, 0xFFFFFFFF⟩,
  ⟨0x54, [], false, .sc, .imm, fun _ => 0, 3⟩,
  ⟨0x60, [], false, .ro, .imm, fun _ => 0, 0⟩,
  ⟨0x64, [], false, .ro, .imm, fun _ => 0, 0⟩,
  ⟨0x68, [], true, .wo, .imm, fun _ => 0, 0xFFFFFFFFFFFFFFFF⟩,
  ⟨0x70, [], false, .rw, .imm, fun _ => 0x20000, 0xFFFFFF⟩,
  ⟨0x74, [], false, .rw, .imm, fun _ => 0x4000, 0xFFFFFF⟩,
  ⟨0x78, [], false, .rw, .imm, fun _ => 0xC350, 0xFFFFFFFF⟩,
  ⟨0x7C, [], false, .rw, .imm, fun _ => 0x186A0, 0xFFFFFFFF⟩,
  ⟨0x80, [], false, .rw, .imm, fun _ => 0x100000FA, 0xFFFFFFFF⟩,
  ⟨0x84, [], false, .rw, .imm, fun _ => 0x3E8, 0xFFFFFFFF⟩,
  ⟨0x88, [], false, .ro, .imm, fun _ => 0, 0⟩,
  ⟨0x8C, [], false, .ro, .imm, fun _ => 0, 0⟩,
  ⟨0x90, [], false, .ro, .imm, fun _ => 0, 0⟩,
  ⟨0x94, [], false, .rw, .imm, fun _ => 0, 0x1FFFF⟩,
  ⟨0x100, [(4, 0x40)], false, .rw, .imm, fun _ => 0, 0xFFFFFF⟩,
  ⟨0x104, [(4, 0x40)], false, .rw, .imm, fun _ => 0, 0xFFFFFF⟩,
  ⟨0x108, [(4, 0x40)], false, .rw, .imm, fun _ => 0, 0xFFFFFFFF⟩,
  ⟨0x10C, [(4, 0x40)], false, .ro, .imm, fun _ => 0, 0⟩,
  ⟨0x110, [(4, 0x40)], false, .ro, .imm, fun _ => 0, 0⟩,
  ⟨0x114, [(4, 0x40)], false, .ro, .imm, fun _ => 0, 0⟩,
  ⟨0x118, [(4, 0x40)], true, .ro, .imm, fun _ => 0, 0⟩,
  ⟨0x120, [(4, 0x40)], false, .wo, .imm, fun _ => 0, 0⟩,
  ⟨0x124, [(4, 0x40)], false, .ro, .imm, fun _ => 0, 0⟩,
  ⟨0x200, [(8, 0x20)], false, .rw, .imm, fun _ => 0, 0xFFFF3FF7⟩,
  ⟨0x204, [(8, 0x20)], false, .ro, .imm, fun _ => 0, 0⟩,
  ⟨0x208, [(8, 0x20)], true, .rw, .imm, fun _ => 0, 0xFFFFFFFFFFFF⟩,
  ⟨0x210, [(8, 0x20)], false, .rw, .imm, fun _ => 0, 0xFFFFFFFF⟩,
  ⟨0x214, [(8, 0x20)], false, .rw, .imm, fun _ => 0, 0xFFFFFFFF⟩]
/-- R44, R287 -/
def timeRows1 : List RegRow := [
  ⟨0x218, [(8, 0x20)], false, .ro, .imm, fun _ => 0, 0⟩,
  ⟨0x300, [], false, .rw, .imm, fun _ => 0, 0xF⟩,
  ⟨0x304, [], false, .ro, .imm, fun _ => 0, 0⟩,
  ⟨0x308, [], false, .ro, .imm, fun _ => 0, 0⟩,
  ⟨0x30C, [], false, .ro, .imm, fun _ => 0, 0⟩,
  ⟨0x310, [], false, .ro, .imm, fun _ => 0, 0⟩,
  ⟨0x318, [], true, .ro, .imm, fun _ => 0, 0⟩,
  ⟨0x320, [], false, .wo, .imm, fun _ => 0, 0⟩,
  ⟨0x324, [], false, .ro, .imm, fun _ => 0, 0⟩,
  ⟨0x380, [], false, .rw, .imm, fun _ => 0x3E80000, 0xFFFF0003⟩,
  ⟨0x384, [], false, .rw, .imm, fun _ => 0x17D7840, 0xFFFFFFFF⟩,
  ⟨0x388, [], false, .rw, .imm, fun _ => 3, 0xFFFFFFFF⟩,
  ⟨0x390, [], true, .rw, .imm, fun _ => 0, 0xFFFFFFFFFFFF⟩,
  ⟨0x398, [], false, .rw, .imm, fun _ => 0, 0xFFFFFFFF⟩,
  ⟨0x39C, [], false, .ro, .imm, fun _ => 0, 0⟩,
  ⟨0x3A0, [], true, .ro, .imm, fun _ => 0, 0⟩,
  ⟨0x3A8, [], false, .ro, .imm, fun _ => 0, 0⟩,
  ⟨0x3AC, [], false, .ro, .imm, fun _ => 0, 0⟩,
  ⟨0x400, [], false, .rw, .imm, fun _ => 0, 1⟩,
  ⟨0x404, [], false, .ro, .imm, fun _ => 4, 0⟩,
  ⟨0x408, [], false, .rw, .imm, fun _ => 0x17D7840, 0xFFFFFFFF⟩,
  ⟨0x40C, [], false, .rw, .imm, fun _ => 3, 0xFFFFFFFF⟩,
  ⟨0x410, [], true, .rw, .imm, fun _ => 0, 0xFFFFFFFFFFFF⟩,
  ⟨0x418, [], false, .rw, .imm, fun _ => 0, 0xFFFFFFFF⟩,
  ⟨0x420, [], true, .ro, .imm, fun _ => 0, 0⟩,
  ⟨0x428, [], true, .ro, .imm, fun _ => 0, 0⟩,
  ⟨0x430, [], false, .ro, .imm, fun _ => 0, 0⟩,
  ⟨0x434, [], false, .rw, .imm, fun _ => 0x7D0, 0xFFFFFFFF⟩,
  ⟨0x438, [], false, .w1c, .imm, fun _ => 0, 0xFF3⟩,
  ⟨0x43C, [], false, .ro, .imm, fun _ => 0, 0⟩,
  ⟨0x440, [(4, 4)], false, .rw, .shd, fun _ => 0x5B8D80, 0xFFFFFFFF⟩,
  ⟨0x450, [(4, 4)], false, .ro, .imm, fun _ => 0x5B8D80, 0⟩,
  ⟨0x460, [], false, .w1s, .shd, fun _ => 0, 0xF⟩]
def timeRows : List RegRow := timeRows0 ++ timeRows1

/-- R308 -/
def netRows0 : List RegRow := [
  ⟨0, [], false, .ro, .imm, fun _ => 0, 0⟩,
  ⟨4, [], false, .w1c, .imm, fun _ => 0, 0xFFFFFFFF⟩,
  ⟨8, [], false, .rw, .imm, fun _ => 0, 0xFFFFFFFF⟩,
  ⟨0x1000, [(4, 0x1000)], false, .rw, .imm, fun _ => 0x5EE0000, 0x3FFF01FF⟩,
  ⟨0x1004, [(4, 0x1000)], false, .ro, .imm, fun _ => 0, 0⟩,
  ⟨0x1008, [(4, 0x1000)], false, .w1c, .imm, fun _ => 0, 7⟩,
  ⟨0x100C, [(4, 0x1000)], false, .w1c, .imm, fun _ => 0, 0x777⟩,
  ⟨0x1010, [(4, 0x1000)], false, .rw, .imm, fun _ => 0, 0xF77⟩,
  ⟨0x1018, [(4, 0x1000)], true, .rw, .imm, fun _ => 0, 0xFFFFFFFFFFFF⟩,
  ⟨0x1020, [(4, 0x1000)], false, .rw, .imm, fun _ => 0x1F4FFFF, 0xFFFFFFFF⟩,
  ⟨0x1024, [(4, 0x1000)], false, .rw, .imm, fun _ => 0x80C001, 0xFFFFFF0F⟩,
  ⟨0x1028, [(4, 0x1000)], false, .ro, .imm, fun _ => 0, 0⟩,
  ⟨0x102C, [(4, 0x1000)], false, .rw, .imm, fun _ => 0, 0xF⟩,
  ⟨0x1040, [(4, 0x1000)], false, .ro, .imm, fun _ => 0, 0⟩,
  ⟨0x1048, [(4, 0x1000)], true, .ro, .imm, fun _ => 0, 0⟩,
  ⟨0x1050, [(4, 0x1000)], false, .ro, .imm, fun _ => 0, 0⟩,
  ⟨0x1054, [(4, 0x1000)], false, .ro, .imm, fun _ => 0, 0⟩,
  ⟨0x1058, [(4, 0x1000)], false, .ro, .imm, fun _ => 0, 0⟩,
  ⟨0x105C, [(4, 0x1000)], false, .ro, .imm, fun _ => 0, 0⟩,
  ⟨0x1060, [(4, 0x1000)], false, .ro, .imm, fun _ => 0, 0⟩,
  ⟨0x1064, [(4, 0x1000)], false, .ro, .imm, fun _ => 0, 0⟩,
  ⟨0x1068, [(4, 0x1000)], false, .ro, .imm, fun _ => 0, 0⟩,
  ⟨0x106C, [(4, 0x1000)], false, .ro, .imm, fun _ => 0, 0⟩,
  ⟨0x1070, [(4, 0x1000)], true, .ro, .imm, fun _ => 0, 0⟩,
  ⟨0x1078, [(4, 0x1000)], false, .ro, .imm, fun _ => 0, 0⟩,
  ⟨0x1100, [(4, 0x1000), (16, 0x10)], false, .rw, .imm, fun _ => 0, 0x3F1FDF⟩,
  ⟨0x1104, [(4, 0x1000), (16, 0x10)], false, .rw, .imm, fun _ => 0, 0xFFFFFFF⟩,
  ⟨0x1108, [(4, 0x1000), (16, 0x10)], false, .rw, .imm, fun _ => 0, 0xFFFFFFFF⟩,
  ⟨0x110C, [(4, 0x1000), (16, 0x10)], false, .rw, .imm, fun _ => 0, 0xFFFF⟩,
  ⟨0x1400, [(4, 0x1000), (4, 0x40)], false, .rw, .imm, fun _ => 0, 0xFFF000F7⟩,
  ⟨0x1404, [(4, 0x1000), (4, 0x40)], false, .ro, .imm, fun _ => 0, 0⟩,
  ⟨0x1408, [(4, 0x1000), (4, 0x40)], true, .rw, .imm, fun _ => 0, 0xFFFFFFFFFFFFFFE0⟩,
  ⟨0x1410, [(4, 0x1000), (4, 0x40)], false, .rw, .imm, fun _ => 0, 0xFFF⟩,
  ⟨0x1414, [(4, 0x1000), (4, 0x40)], false, .ro, .imm, fun _ => 0, 0⟩,
  ⟨0x1418, [(4, 0x1000), (4, 0x40)], false, .rw, .imm, fun _ => 1, 0x1FFFFFF⟩,
  ⟨0x141C, [(4, 0x1000), (4, 0x40)], false, .ro, .imm, fun _ => 0, 0⟩,
  ⟨0x1420, [(4, 0x1000), (4, 0x40)], false, .ro, .imm, fun _ => 0, 0⟩,
  ⟨0x1424, [(4, 0x1000), (4, 0x40)], false, .ro, .imm, fun _ => 0, 0⟩,
  ⟨0x1428, [(4, 0x1000), (4, 0x40)], false, .ro, .imm, fun _ => 0, 0⟩,
  ⟨0x142C, [(4, 0x1000), (4, 0x40)], false, .ro, .imm, fun _ => 0, 0⟩]
/-- R308 -/
def netRows1 : List RegRow := [
  ⟨0x1430, [(4, 0x1000), (4, 0x40)], false, .ro, .imm, fun _ => 0, 0⟩,
  ⟨0x1600, [(4, 0x1000), (4, 0x40)], false, .rw, .imm, fun _ => 0, 0xF1⟩,
  ⟨0x1604, [(4, 0x1000), (4, 0x40)], false, .ro, .imm, fun _ => 0, 0⟩,
  ⟨0x1608, [(4, 0x1000), (4, 0x40)], true, .rw, .imm, fun _ => 0, 0xFFFFFFFFFFFFFFE0⟩,
  ⟨0x1610, [(4, 0x1000), (4, 0x40)], false, .rw, .imm, fun _ => 0, 0xFFF⟩,
  ⟨0x1614, [(4, 0x1000), (4, 0x40)], false, .ro, .imm, fun _ => 0, 0⟩,
  ⟨0x1618, [(4, 0x1000), (4, 0x40)], false, .ro, .imm, fun _ => 0, 0⟩,
  ⟨0x161C, [(4, 0x1000), (4, 0x40)], false, .ro, .imm, fun _ => 0, 0⟩,
  ⟨0x1800, [(4, 0x1000)], false, .rw, .imm, fun _ => 0, 1⟩,
  ⟨0x1804, [(4, 0x1000)], false, .ro, .imm, fun _ => 0, 0⟩,
  ⟨0x1808, [(4, 0x1000)], true, .rw, .imm, fun _ => 0, 0xFFFFFFFFFFFF⟩,
  ⟨0x1810, [(4, 0x1000)], false, .rw, .imm, fun _ => 0, 0xFFFFFFFF⟩,
  ⟨0x1814, [(4, 0x1000)], false, .rw, .imm, fun _ => 0, 0xFFFFFFFF⟩,
  ⟨0x1818, [(4, 0x1000)], false, .rw, .imm, fun _ => 0, 0x7F⟩,
  ⟨0x1820, [(4, 0x1000)], true, .ro, .imm, fun _ => 0, 0⟩,
  ⟨0x1828, [(4, 0x1000)], false, .ro, .imm, fun _ => 0, 0⟩,
  ⟨0x182C, [(4, 0x1000)], false, .ro, .imm, fun _ => 0, 0⟩,
  ⟨0x1830, [(4, 0x1000)], false, .ro, .imm, fun _ => 0, 0⟩,
  ⟨0x1A00, [(4, 0x1000), (2, 0x100), (64, 4)], false, .rw, .imm, fun _ => 0, 0xFFFFFFFF⟩,
  ⟨0x8000, [(32, 0x100)], false, .rw, .imm, fun _ => 0, 0xFFF3FFF⟩,
  ⟨0x8004, [(32, 0x100)], false, .rw, .imm, fun _ => 0, 0x3FFF3FFF⟩,
  ⟨0x8008, [(32, 0x100)], false, .rw, .imm, fun _ => 0, 0xFFFFFFC0⟩,
  ⟨0x800C, [(32, 0x100)], false, .rw, .imm, fun _ => 0xC350, 0xFFFF⟩,
  ⟨0x8010, [(32, 0x100), (4, 8)], true, .rw, .imm, fun _ => 0, 0xFFFFFFFFFFFFFFC0⟩,
  ⟨0x8030, [(32, 0x100)], false, .ro, .imm, fun _ => 0, 0⟩,
  ⟨0x8034, [(32, 0x100)], false, .w1s, .imm, fun _ => 0, 0xF⟩,
  ⟨0x8038, [(32, 0x100)], false, .ro, .imm, fun _ => 0, 0⟩,
  ⟨0x803C, [(32, 0x100)], false, .ro, .imm, fun _ => 0, 0⟩,
  ⟨0x8040, [(32, 0x100)], false, .ro, .imm, fun _ => 0, 0⟩,
  ⟨0x8044, [(32, 0x100)], false, .ro, .imm, fun _ => 0, 0⟩,
  ⟨0x8048, [(32, 0x100)], false, .ro, .imm, fun _ => 0, 0⟩,
  ⟨0x804C, [(32, 0x100)], false, .ro, .imm, fun _ => 0, 0⟩,
  ⟨0x8050, [(32, 0x100)], false, .ro, .imm, fun _ => 0, 0⟩,
  ⟨0x8080, [(32, 0x100), (4, 0x20)], false, .ro, .imm, fun _ => 0, 0⟩,
  ⟨0x8084, [(32, 0x100), (4, 0x20)], false, .ro, .imm, fun _ => 0, 0⟩,
  ⟨0x8088, [(32, 0x100), (4, 0x20)], true, .ro, .imm, fun _ => 0, 0⟩,
  ⟨0x8090, [(32, 0x100), (4, 0x20)], true, .ro, .imm, fun _ => 0, 0⟩,
  ⟨0xC000, [(4096, 4)], false, .rw, .imm, fun _ => 0, 0xFFFFFFFF⟩]
def netRows : List RegRow := netRows0 ++ netRows1

/-- R367 -/
def ledRows : List RegRow := [
  ⟨0, [], false, .rw, .imm, fun _ => 2, 7⟩,
  ⟨4, [], false, .ro, .imm, fun _ => 0, 0⟩,
  ⟨8, [], false, .w1c, .imm, fun _ => 0, 3⟩,
  ⟨0xC, [], false, .w1c, .imm, fun _ => 0, 0x1F⟩,
  ⟨0x10, [], false, .rw, .imm, fun _ => 0, 0x3F⟩,
  ⟨0x14, [], false, .rw, .imm, fun _ => 0xC350, 0x3FFFF⟩,
  ⟨0x18, [], false, .ro, .imm, fun _ => 0, 0⟩,
  ⟨0x1C, [], false, .ro, .imm, fun _ => 0, 0⟩,
  ⟨0x20, [], false, .ro, .imm, fun _ => 0x80000000, 0⟩,
  ⟨0x24, [], false, .rw, .imm, fun _ => 0x7530, 0xFFFF⟩,
  ⟨0x30, [], false, .rw, .imm, fun _ => 0x80A0C00, 0xFFFFFF07⟩,
  ⟨0x34, [], false, .rw, .imm, fun _ => 0xFFF0000, 0xFFF0FFF⟩,
  ⟨0x38, [], false, .rw, .imm, fun _ => 0, 0xFFF⟩,
  ⟨0x3C, [], false, .rw, .imm, fun _ => 0, 0xFFF⟩,
  ⟨0x40, [], false, .rw, .imm, fun _ => 0xEA60, 0x1FFFF⟩,
  ⟨0x44, [], false, .ro, .imm, fun _ => 0, 0⟩,
  ⟨0x50, [(8, 4)], false, .rw, .imm, fun _ => 0x405A4600, 0xFFFFFF01⟩,
  ⟨0x70, [(8, 4)], false, .ro, .imm, fun _ => 0x80000000, 0⟩,
  ⟨0x90, [], false, .ro, .imm, fun _ => 0, 0⟩,
  ⟨0x94, [], false, .rw, .imm, fun _ => 0x200, 0xFFFF⟩,
  ⟨0xA0, [], false, .rw, .imm, fun _ => 0x4781004, 0xFFFFF0F⟩,
  ⟨0x100, [(8, 0x20)], false, .rw, .imm, fun _ => 0x10000, 0xFF1F7F01⟩,
  ⟨0x108, [(8, 0x20)], true, .rw, .imm, fun _ => 0, 0xFFFFFFFFFFFFFFFF⟩,
  ⟨0x110, [(8, 0x20)], false, .ro, .imm, fun _ => 0, 0⟩,
  ⟨0x400, [(128, 8)], true, .rw, .imm, fun _ => 0, 0xFFFFFFFF0001FFFF⟩,
  ⟨0x1000, [(48, 0x20)], false, .rw, .imm, fun _ => 0, 0xFFFF⟩,
  ⟨0x1004, [(48, 0x20)], false, .rw, .imm, fun _ => 0x8000, 0x3FFFFFF⟩,
  ⟨0x1008, [(48, 0x20)], false, .rw, .imm, fun _ => 0, 0x3FF⟩,
  ⟨0x100C, [(48, 0x20)], false, .ro, .imm, fun _ => 0, 0⟩,
  ⟨0x1010, [(48, 0x20)], false, .wo, .imm, fun _ => 0, 0⟩,
  ⟨0x1014, [(48, 0x20)], false, .ro, .imm, fun _ => 0, 0⟩,
  ⟨0x4000, [(4, 0x1000), (1024, 4)], false, .rw, .imm, fun ix => (ix.getLastD 0) * 262144 / 1023, 0x7FFFF⟩,
  ⟨0x8000, [(257, 4)], false, .rw, .imm, fun _ => 0, 0xFFFF⟩]

/-- R368, R382 -/
def adcRows : List RegRow := [
  ⟨0, [], false, .rw, .imm, fun _ => 3, 3⟩,
  ⟨4, [], false, .ro, .imm, fun _ => 0, 0⟩,
  ⟨8, [], false, .w1c, .imm, fun _ => 0, 1⟩,
  ⟨0xC, [], false, .w1c, .imm, fun _ => 0, 0x3F⟩,
  ⟨0x10, [], false, .rw, .imm, fun _ => 0, 0x7F⟩,
  ⟨0x40, [(32, 4)], false, .ro, .imm, fun _ => 0, 0⟩,
  ⟨0x100, [(2, 0x100)], false, .rw, .imm, fun _ => 0, 0xF7⟩,
  ⟨0x104, [(2, 0x100)], false, .rw, .imm, fun _ => 0, 0x3FFFF0FF⟩,
  ⟨0x108, [(2, 0x100)], false, .wo, .imm, fun _ => 0, 0⟩,
  ⟨0x10C, [(2, 0x100)], false, .ro, .imm, fun _ => 0, 0⟩,
  ⟨0x110, [(2, 0x100)], false, .ro, .imm, fun _ => 0, 0⟩,
  ⟨0x114, [(2, 0x100)], false, .ro, .imm, fun _ => 0, 0⟩,
  ⟨0x118, [(2, 0x100)], false, .wo, .imm, fun _ => 0, 0⟩,
  ⟨0x11C, [(2, 0x100)], false, .ro, .imm, fun _ => 0, 0⟩,
  ⟨0x120, [(2, 0x100)], true, .ro, .imm, fun _ => 0, 0⟩,
  ⟨0x140, [(2, 0x100), (16, 4)], false, .rw, .imm, fun _ => 0, 0x3F0F1F⟩,
  ⟨0x180, [(2, 0x100), (16, 4)], false, .ro, .imm, fun _ => 0, 0⟩,
  ⟨0x1000, [], false, .rw, .imm, fun _ => 0x20, 0x33⟩,
  ⟨0x1004, [], false, .ro, .imm, fun _ => 0, 0⟩,
  ⟨0x1008, [], false, .ro, .imm, fun _ => 0, 0⟩,
  ⟨0x1010, [], true, .rw, .imm, fun _ => 0, 0xFFFFFFFFFFFF⟩,
  ⟨0x1018, [], false, .rw, .imm, fun _ => 0x2625A0, 0xFFFFFFFF⟩,
  ⟨0x101C, [], false, .rw, .imm, fun _ => 0x1E8480, 0xFFFFFFFF⟩,
  ⟨0x1020, [], true, .rw, .imm, fun _ => 0, 0xFFFFFFFFFFFFFFFF⟩,
  ⟨0x1028, [], true, .rw, .imm, fun _ => 0, 0xFFFFFFFFFFFFFFFF⟩,
  ⟨0x1030, [], true, .rw, .imm, fun _ => 0, 0xFFFFFFFFFFFFFFFF⟩,
  ⟨0x1038, [], false, .ro, .imm, fun _ => 0, 0⟩,
  ⟨0x103C, [], false, .ro, .imm, fun _ => 0, 0⟩,
  ⟨0x1040, [(2, 4)], false, .ro, .imm, fun _ => 0, 0⟩,
  ⟨0x1048, [], false, .ro, .imm, fun _ => 0, 0⟩,
  ⟨0x104C, [], false, .ro, .imm, fun _ => 0, 0⟩,
  ⟨0x1050, [], false, .ro, .imm, fun _ => 0, 0⟩,
  ⟨0x1054, [], false, .ro, .imm, fun _ => 0, 0⟩,
  ⟨0x1100, [(48, 4)], false, .ro, .imm, fun _ => 0, 0⟩,
  ⟨0x1200, [(48, 4)], false, .ro, .imm, fun _ => 0, 0⟩]

/-- R397 -/
def recorderRows : List RegRow := [
  ⟨0, [], false, .rw, .imm, fun _ => 0x3E8C000, 0xFFFFFF03⟩,
  ⟨4, [], false, .ro, .imm, fun _ => 8, 0⟩,
  ⟨8, [], false, .w1c, .imm, fun _ => 0, 7⟩,
  ⟨0xC, [], false, .w1c, .imm, fun _ => 0, 0xF⟩,
  ⟨0x10, [], false, .rw, .imm, fun _ => 0, 0x1F⟩,
  ⟨0x18, [], true, .ro, .imm, fun _ => 0, 0⟩,
  ⟨0x20, [], false, .rw, .imm, fun _ => 0x2000, 0x1FFFF⟩,
  ⟨0x24, [], false, .ro, .imm, fun _ => 0x2000, 0⟩,
  ⟨0x28, [], false, .ro, .imm, fun _ => 0, 0⟩,
  ⟨0x2C, [], false, .ro, .imm, fun _ => 0x2000, 0⟩,
  ⟨0x30, [], false, .ro, .imm, fun _ => 0, 0⟩,
  ⟨0x34, [], false, .ro, .imm, fun _ => 0, 0⟩,
  ⟨0x38, [], false, .ro, .imm, fun _ => 0, 0⟩,
  ⟨0x3C, [], false, .sc, .imm, fun _ => 0, 0xFFFF0003⟩,
  ⟨0x40, [], false, .rw, .imm, fun _ => 0, 0x1FFFF⟩,
  ⟨0x44, [], false, .ro, .imm, fun _ => 0, 0⟩,
  ⟨0x80, [(16, 4)], false, .ro, .imm, fun _ => 0, 0⟩,
  ⟨0x100, [], false, .rw, .imm, fun _ => 0, 0xFF07FFFF⟩,
  ⟨0x104, [(7, 4)], false, .rw, .imm, fun _ => 0, 0xFFFFFFFF⟩,
  ⟨0x120, [], false, .wo, .imm, fun _ => 0, 0⟩]

/-- R458 -/
def updRows : List RegRow := [
  ⟨0, [], false, .rw, .imm, fun _ => 0, 1⟩,
  ⟨4, [], false, .ro, .imm, fun _ => 0, 0⟩,
  ⟨8, [], false, .w1c, .imm, fun _ => 0, 1⟩,
  ⟨0xC, [], false, .w1c, .imm, fun _ => 0, 3⟩,
  ⟨0x10, [], false, .rw, .imm, fun _ => 0, 7⟩,
  ⟨0x20, [], false, .wo, .imm, fun _ => 0, 0xFF⟩,
  ⟨0x24, [], false, .ro, .imm, fun _ => 0, 0⟩,
  ⟨0x28, [], true, .rw, .imm, fun _ => 0, 0xFFFFFFFFFFFFFFFF⟩,
  ⟨0x30, [], true, .rw, .imm, fun _ => 0, 0xFFFFFFFFFFFFFFFF⟩,
  ⟨0x40, [], false, .ro, .imm, fun _ => 0, 0⟩,
  ⟨0x44, [], false, .ro, .imm, fun _ => 0, 0⟩,
  ⟨0x48, [], false, .ro, .imm, fun _ => 0, 0⟩,
  ⟨0x4C, [], false, .ro, .imm, fun _ => 0, 0⟩,
  ⟨0x50, [], false, .ro, .imm, fun _ => 0, 0⟩,
  ⟨0x54, [], false, .ro, .imm, fun _ => 0, 0⟩,
  ⟨0x58, [], false, .ro, .imm, fun _ => 0, 0⟩,
  ⟨0x5C, [], false, .ro, .imm, fun _ => 0, 0⟩,
  ⟨0x60, [], false, .ro, .imm, fun _ => 0, 0⟩,
  ⟨0x80, [(32, 4)], false, .ro, .imm, fun _ => 0, 0⟩]

/-- R339 -/
def redRows : List RegRow := [
  ⟨0, [], false, .rw, .imm, fun _ => 0x400, 0xF01⟩,
  ⟨4, [], false, .ro, .imm, fun _ => 1, 0⟩,
  ⟨8, [], false, .w1c, .imm, fun _ => 0, 1⟩,
  ⟨0xC, [], false, .w1c, .imm, fun _ => 0, 0x1F⟩,
  ⟨0x10, [], false, .rw, .imm, fun _ => 0, 0x1F⟩,
  ⟨0x14, [], false, .rw, .imm, fun _ => 0, 0xFFFF⟩,
  ⟨0x18, [], false, .ro, .imm, fun _ => 0, 0⟩,
  ⟨0x1C, [], false, .ro, .imm, fun _ => 0, 0⟩,
  ⟨0x20, [], false, .rw, .imm, fun _ => 0, 0xFFFFFFFF⟩,
  ⟨0x24, [], false, .wo, .imm, fun _ => 0, 0xFF01⟩,
  ⟨0x28, [], false, .ro, .imm, fun _ => 0, 0⟩,
  ⟨0x2C, [], false, .ro, .imm, fun _ => 0, 0⟩,
  ⟨0x30, [], false, .ro, .imm, fun _ => 0, 0⟩,
  ⟨0x34, [], false, .ro, .imm, fun _ => 0, 0⟩,
  ⟨0x38, [], false, .ro, .imm, fun _ => 0, 0⟩,
  ⟨0x3C, [], false, .ro, .imm, fun _ => 0, 0⟩,
  ⟨0x40, [], false, .ro, .imm, fun _ => 0, 0⟩,
  ⟨0x44, [], false, .ro, .imm, fun _ => 0, 0⟩,
  ⟨0x48, [], false, .ro, .imm, fun _ => 0, 0⟩,
  ⟨0x4C, [], false, .ro, .imm, fun _ => 0xD2900, 0⟩,
  ⟨0x50, [], false, .ro, .imm, fun _ => 0, 0⟩,
  ⟨0x54, [], false, .ro, .imm, fun _ => 0, 0⟩,
  ⟨0x58, [], false, .ro, .imm, fun _ => 0, 0⟩,
  ⟨0x5C, [], false, .ro, .imm, fun _ => 0, 0⟩,
  ⟨0x80, [], false, .rw, .imm, fun _ => 0, 1⟩,
  ⟨0x88, [], true, .rw, .imm, fun _ => 0, 0xFFFFFFFFFFFFFFFF⟩,
  ⟨0x90, [], true, .rw, .imm, fun _ => 0, 0xFFFFFFFFFFFFFFFF⟩,
  ⟨0x100, [(32, 4)], false, .rw, .imm, fun _ => 0, 0xFFFFFFFF⟩,
  ⟨0x200, [(32, 4)], false, .rw, .imm, fun _ => 0, 0xFFFFFF⟩]

/-- R439 -/
def hstRows : List RegRow := [
  ⟨0, [], false, .ro, .imm, fun _ => 0, 0⟩,
  ⟨4, [], false, .w1c, .imm, fun _ => 0, 0x3F⟩,
  ⟨8, [], false, .w1c, .imm, fun _ => 0, 3⟩,
  ⟨0xC, [], false, .rw, .imm, fun _ => 0, 7⟩,
  ⟨0x10, [], true, .rw, .imm, fun _ => 0, 0xFFC0000000⟩,
  ⟨0x18, [], false, .ro, .imm, fun _ => 0, 0⟩,
  ⟨0x20, [], false, .wo, .imm, fun _ => 0, 0x3F⟩,
  ⟨0x28, [], true, .ro, .imm, fun _ => 0, 0⟩,
  ⟨0x100, [(16, 4)], false, .rw, .imm, fun _ => 0, 0xFFFFFFFF⟩,
  ⟨0x140, [], false, .wo, .imm, fun _ => 0, 0⟩,
  ⟨0x144, [], false, .ro, .imm, fun _ => 0, 0⟩,
  ⟨0x180, [(16, 4)], false, .ro, .imm, fun _ => 0, 0⟩,
  ⟨0x200, [], true, .rw, .imm, fun _ => 0, 0xFFFFFFFFFFFFFFC0⟩,
  ⟨0x208, [], false, .rw, .imm, fun _ => 0, 0x10F⟩,
  ⟨0x20C, [], false, .rw, .imm, fun _ => 0, 0xFFF⟩,
  ⟨0x210, [], false, .ro, .imm, fun _ => 0, 0⟩,
  ⟨0x214, [], false, .ro, .imm, fun _ => 0, 0⟩,
  ⟨0x1000, [(64, 0x10), (4, 4)], false, .rw, .imm, fun _ => 0, 0xFFFFFFFF⟩,
  ⟨0x1800, [(2, 4)], false, .ro, .imm, fun _ => 0, 0⟩]

/-- A placement of a block in the address map: base, instances (count, stride), size. -/
structure Placement where
  blk : BlockId
  base : Nat
  dims : List (Nat × Nat)
  size : Nat
  rows : List RegRow

/-- R18, R19: where the blocks lie. -/
def placements : List Placement := [
  ⟨.slc, 0x1001000000, [(4, 0x100000)], 0x10000, slcRows⟩,
  ⟨.sched, 0x1001010000, [(4, 0x100000)], 0x10000, schedRows⟩,
  ⟨.dma, 0x1001020000, [(4, 0x100000), (16, 0x100)], 0x100, dmaRows⟩,
  ⟨.dma, 0x1000092000, [(8, 0x100)], 0x100, dmaRows⟩,
  ⟨.dmaB, 0x1001021000, [(4, 0x100000)], 0x1000, dmaBRows⟩,
  ⟨.dmaB, 0x1000092800, [], 0x100, dmaBRows⟩,
  ⟨.mmu, 0x1001030000, [(4, 0x100000)], 0x70, mmuRows⟩,
  ⟨.mmu, 0x10000A0000, [], 0x70, mmuRows⟩,
  ⟨.mc, 0x1001030000, [(4, 0x100000)], 0x10000, mcRows⟩,
  ⟨.iommu, 0x10000A0000, [], 0x10000, iommuRows⟩,
  ⟨.layer, 0x1001040000, [(4, 0x100000)], 0x10000, layerRows⟩,
  ⟨.scan, 0x1001050000, [(4, 0x100000), (8, 0x1000)], 0x1000, scanRows⟩,
  ⟨.trunk, 0x1001060000, [(4, 0x100000), (8, 0x1000)], 0x1000, trunkRows⟩,
  ⟨.crc, 0x1001070000, [(4, 0x100000), (4, 0x100)], 0x100, crcRows⟩,
  ⟨.crc, 0x1000050000, [(4, 0x100)], 0x100, crcRows⟩,
  ⟨.seg, 0x1001000000, [(4, 0x100000)], 0x100000, segRows⟩,
  ⟨.sys, 0x1000000000, [], 0x10000, sysRows⟩,
  ⟨.time, 0x1000010000, [], 0x10000, timeRows⟩,
  ⟨.net, 0x1000020000, [], 0x10000, netRows⟩,
  ⟨.led, 0x1000030000, [], 0x10000, ledRows⟩,
  ⟨.adc, 0x1000040000, [], 0x10000, adcRows⟩,
  ⟨.recorder, 0x1000060000, [], 0x10000, recorderRows⟩,
  ⟨.upd, 0x1000070000, [], 0x10000, updRows⟩,
  ⟨.red, 0x1000080000, [], 0x10000, redRows⟩,
  ⟨.hst, 0x1000090000, [], 0x2000, hstRows⟩]

/-- The indices of an offset along (count, stride) dimensions, outermost first, and what is left. -/
def splitDims : List (Nat × Nat) → Nat → Option (List Nat × Nat)
  | [], o => some ([], o)
  | (c, st) :: t, o =>
    if o / st < c then (splitDims t (o % st)).map fun (ix, r) => (o / st :: ix, r) else none

/-- A register found at an address: its block, row, instance indices and register indices, and
the byte offset of the access within it (4 for the high half of a 64-bit register). -/
structure Found where
  blk : BlockId
  row : RegRow
  inst : List Nat
  idx : List Nat
  half : Nat

def Found.all (f : Found) : List Nat := f.inst ++ f.idx

/-- The row of a block an offset falls on. -/
def findRow : List RegRow → Nat → Option (RegRow × List Nat × Nat)
  | [], _ => none
  | r :: t, o =>
    if o < r.off then findRow t o
    else match splitDims r.dims (o - r.off) with
      | some (ix, h) =>
        if h < (if r.w64 then 8 else 4) then some (r, ix, h) else findRow t o
      | none => findRow t o

/-- The register at a physical address, if the address falls on one (R7, R21). -/
def findReg (a : Nat) : Option Found :=
  go a placements
where
  go (a : Nat) : List Placement → Option Found
    | [] => none
    | p :: t =>
      if a < p.base then go a t
      else match splitDims p.dims (a - p.base) with
        | none => go a t
        | some (ins, o) =>
          if o < p.size then
            match findRow p.rows o with
            | some (r, ix, h) => some ⟨p.blk, r, ins, ix, h⟩
            | none => go a t
          else go a t

/-- The register a found access names: its aligned address and reset value. -/
def Found.reg (f : Found) (a : Nat) : Reg :=
  ⟨a - f.half, BitVec.ofNat 64 (f.row.rst f.all)⟩

end Sys2Proof.Machine
end

