-- ==== Sys2Proof/Machine/KMap.lean ====
section
/-! DEFINITION. Reading and writing sparse data (KMap): one canonical form, in which equal
contents are equal lists. -/

namespace Sys2Proof.Machine

variable {β : Type}

/-- The value at key k; d where no entry lists k. -/
def kget (d : β) (k : Nat) : KMap β → β
  | [] => d
  | (k', v) :: t => if k' = k then v else kget d k t

/-- The map without key k. -/
def kdel (k : Nat) : KMap β → KMap β
  | [] => []
  | (k', v) :: t => if k' = k then kdel k t else (k', v) :: kdel k t

/-- The map with the entry (k, v) put before the first larger key. -/
def kins (k : Nat) (v : β) : KMap β → KMap β
  | [] => [(k, v)]
  | (k', v') :: t => if k < k' then (k, v) :: (k', v') :: t else (k', v') :: kins k v t

/-- Key k holds v: an entry equal to the default is not listed. -/
def kset [DecidableEq β] (d : β) (k : Nat) (v : β) (m : KMap β) : KMap β :=
  if v = d then kdel k m else kins k v (kdel k m)

/-- Key k holds f of what it held. -/
def kupd [DecidableEq β] (d : β) (k : Nat) (f : β → β) (m : KMap β) : KMap β :=
  kset d k (f (kget d k m)) m

/-- The canonical form: keys strictly rising, no entry equal to the default. -/
abbrev KWf (d : β) (m : KMap β) : Prop :=
  (m.map Prod.fst).Pairwise (· < ·) ∧ ∀ p ∈ m, p.2 ≠ d

/-- The entries whose keys satisfy a test, in key order. -/
def kfilter (f : Nat → Bool) (m : KMap β) : KMap β := m.filter fun p => f p.1

/-- Fold a step over the numbers 0 .. n-1, in rising order. -/
def upTo {α : Type} : Nat → (Nat → α → α) → α → α
  | 0, _, a => a
  | n + 1, f, a => f n (upTo n f a)

/-- Fold a step over a list, in order. -/
def forAll {α γ : Type} (f : γ → α → α) : List γ → α → α
  | [], a => a
  | x :: t, a => forAll f t (f x a)

end Sys2Proof.Machine
end

