-- ==== Sys2Proof/Machine/State.lean ====
section
/-! DEFINITION. The state of the block: plain data, every piece the spec names.

Instances (ports, contexts, channels, ...) are held in sparse maps keyed by their number; the
default of a map is the instance's state after reset.  The registers of the register tables live
in ONE bank, `regs`, keyed by physical address. -/

namespace Sys2Proof.Machine

/-- Why a step stops.  No command of this block is raised as a fault: every command the spec
gives an effect answers a next state.  -/
inductive Fault
  /-- Raised by nothing.  Safe: it only makes the type inhabited. -/
  | none
  deriving DecidableEq, Repr

/-- Why a command is refused. -/
inductive Refusal
  /-- Answered by an arm of the dispatch whose command has no meaning yet.  Safe. -/
  | notModelled (mnemonic : String)
  deriving DecidableEq, Repr

/-! ### Events (R383, R486, R488) -/

/-- An event on its way to the recorder within one command. -/
structure Ev where
  code : Nat
  sev : Nat
  origin : Nat
  inst : Nat
  payload : List Byte
  deriving DecidableEq, Repr

/-- A record in the staging buffer (R383, R384): its SEQ is taken on entry, except while the
start-up scan runs. -/
structure StagedRec where
  seq : Option Nat
  uptime : Nat
  sec : Nat
  ns : Nat
  flags : Nat
  code : Nat
  source : Nat
  payload : List Byte
  deriving DecidableEq, Repr

/-- A rate window (R488), timed on UPTIME in ns. -/
structure RateWin where
  start : Option Nat := none
  count : Nat := 0
  suppressed : Nat := 0
  deriving DecidableEq, Repr

/-- The event recorder beside its registers (chapter 14). -/
structure RecSt where
  arriving : List Ev := []
  staged : List StagedRec := []
  lost : Nat := 0
  lostFirst : Nat := 0
  lostLast : Nat := 0
  /-- the MRAM: 64 bytes a slot; an unlisted slot is erased -/
  store : KMap (List Byte) := []
  windows : KMap RateWin := []
  /-- real instants (0.1 ns) -/
  lastFlush : Nat := 0
  frozenAt : Nat := 0
  /-- R386: the instant at which the commit in progress began -/
  commitFrom : Option Nat := none
  /-- R391 step 1: the new N, and the origin of the command -/
  clearing : Option (Nat × Nat) := none
  /-- R391 step 3: the instant at which the erase ends, and the new N -/
  erase : Option (Nat × Nat) := none
  /-- R384: how many records entered on the clock of the last, and that clock -/
  entered : Nat := 0
  enteredAt : Nat := 0
  deriving DecidableEq, Repr

/-! ### Registers and commit (R6, R33) -/

/-- A WIN write that waits for its commit point; late: for the one after the next (R51). -/
structure Armed where
  val : Word
  late : Bool
  deriving DecidableEq, Repr

/-! ### Frame timeline, scan-out and commit (chapter 2) -/

/-- The frame timeline beside its registers: the state is FT_STATUS.STATE. -/
structure TimelineSt where
  /-- the next frame to start (n_first while ARMED) -/
  next : Nat := 0
  /-- the last frame started in this run -/
  last : Option Nat := none
  /-- R42: a mark for the first frame counts for the second -/
  credit : Option (Nat × Nat) := none
  deriving DecidableEq, Repr

/-- The commit logic of a slice. -/
structure SliceSt where
  /-- the frame whose raster was started last, and the real instant of its S_n (0.1 ns) -/
  frame : Option Nat := none
  startAt : Nat := 0
  /-- the commit point of that raster has passed -/
  cpDone : Bool := true
  /-- R75: the most recent commit point's n; the counter on its clock (R146), T_n and P_n in ns -/
  cpFrame : Option Nat := none
  cpCnt : Nat := 0
  cpTn : Nat := 0
  cpFacet : Nat := 0
  /-- R75, R227: the counter-independent instants (0.1 ns) of commit points, newest first -/
  cpTimes : List (Nat × Nat) := []
  /-- R52: the commit bits that the most recent commit point latched: layers, PRESENT_DELAY -/
  latchedLy : Nat := 0
  latchedPd : Bool := false
  deriving DecidableEq, Repr

/-- What a port sends in one period (R57 to R62). -/
inductive FrameKind
  | none | full | stale | hold | refresh | lowRate
  deriving DecidableEq, Repr

/-- What stands in a porch (R247, R251): the probe, the PAD bytes in its place, a CMD packet, or a CFG
packet: its node, the NODE_CFG value of CP_n, whether it answers a change (step 3), and NODE_LAT[k] as
it stood when the packet left (R248; none: it has not left). -/
inductive PorchItem
  | probe (node : Nat)
  | noProbe
  | cmd (bytes : List Byte)
  | cfg (node val : Nat) (changed : Bool) (lat : Option Nat)
  deriving DecidableEq, Repr

/-- The frame a port is sending: its header fields (R242, R243) and its bank. -/
structure TxFrame where
  n : Nat
  kind : FrameKind
  flags : Nat
  facet : Nat
  lead : Nat
  claim : Nat
  bank : Nat
  startAt : Nat
  endAt : Nat
  done : Bool := false
  /-- R247: the packets of each porch line, in order -/
  porch : List (List PorchItem) := []
  /-- R231: the running disparity (true: positive) at the first symbol of the frame -/
  disp : Bool := false
  /-- R218: words of the bank scan-out found uncorrectable -/
  bad : List Nat := []
  /-- R228: gains that the frame still uses, by node, where they have changed since -/
  oldGains : KMap Word := []
  deriving DecidableEq, Repr

/-- A port beside its registers. -/
structure PortSt where
  /-- the raster in progress or last run: RASTER_H, RASTER_V and W as of its S_n -/
  ras : Option (Nat × Nat × Nat) := none
  /-- mode in effect since the last S_n (0 STOP, 1 LOW_RATE, 2 RUN, 3 HOLD) -/
  mode : Nat := 0
  /-- R490: a change applied at the last commit point; at any since the last LOW_RATE start -/
  changed : Bool := false
  changedLow : Bool := false
  /-- R222: the kept entries, in walk order -/
  kept : List Nat := []
  oldGains : KMap Word := []
  tx : Option TxFrame := none
  /-- the commit-point events of the current raster already raised (R66) -/
  vblankDone : Bool := false
  matchDone : Bool := false
  deriving DecidableEq, Repr

/-! ### Cue cores (chapters 3 and 4) -/

/-- R76. -/
inductive CtxState
  | free | loading | ready | stalled | waiting | faulted | saving
  deriving DecidableEq, Repr

/-- Why a context is STALLED (R76). -/
inductive StallCause
  | loadMiss | storeBuf | atomic | tldFull | tstPath | submit | submitBusy | release
  /-- R81: the outstanding delivery met, by its destination -/
  | tile (dst : Nat)
  /-- R160: the bytes that do not fit -/
  | relBuf (need : Nat)
  /-- R137 -/
  | crcBusy (u : Nat)
  deriving DecidableEq, Repr

/-- R87: the fault record a context holds. -/
structure CtxFault where
  cause : Nat
  kind : Nat
  va : Nat
  lane : Nat
  write : Bool
  fetch : Bool
  /-- the token of the queued record; none while it waits for space (R187) -/
  token : Option Nat := none
  /-- R89: core and context (4 * core + context) and pc at the fault -/
  from_ : Nat := 0
  pc : Nat := 0
  deriving DecidableEq, Repr

/-- An entry of a store buffer (R82), with the instant at which its address was translated (R181). -/
structure StoreEntry where
  pa : Nat
  bytes : List Byte
  at_ : Nat
  deriving DecidableEq, Repr

/-- A load that missed: its register, its element size and the lanes still to come, each with its
virtual and its physical address (a scalar load has lane 0 alone). -/
structure Miss where
  rd : Nat
  vec : Bool
  size : Nat
  signed : Bool
  len : Nat
  lanes : List (Nat × Nat × Nat)
  /-- R110: lanes whose request has not left the core: 8 misses are outstanding -/
  queued : List (Nat × Nat × Nat) := []
  /-- when the addresses were translated (R181) -/
  at_ : Nat := 0
  deriving DecidableEq, Repr

/-- An atomic on its way to the memory controller (R117). -/
structure AtomicReq where
  op : Nat
  rd : Nat
  dbl : Bool
  pa : Nat
  va : Nat
  b : Word
  cmp : Word
  /-- when the address was translated (R181) -/
  at_ : Nat
  deriving DecidableEq, Repr

/-- A tile request (R126). -/
structure TldReq where
  ctx : Nat
  layer : Nat
  dst : Nat
  col : Nat
  row : Nat
  deriving DecidableEq, Repr

/-- What a WAITING context waits for (R133, R134): lines (wait.ev), a deadline in sr.time units. -/
structure Wait where
  ev : Bool
  mask : Nat
  deadline : Option Nat
  rd : Nat
  deriving DecidableEq, Repr

/-- How a context leaves its hardware (R92, R95). -/
inductive SaveKind
  | resume | restart | faulted
  deriving DecidableEq, Repr

/-- Why a save was asked for (R92). -/
inductive PreemptWhy
  | wg0 | relBuf | drain | hold | yield
  deriving DecidableEq, Repr

/-- A hardware context (R70, R73, R76). -/
structure Ctx where
  st : CtxState := .free
  stall : Option StallCause := none
  g : KMap Word := []
  v : KMap (BitVec 512) := []
  p : KMap (BitVec 32) := []
  pc : Nat := 0
  sat : Bool := false
  restarted : Bool := false
  resumed : Bool := false
  vrm : Nat := 0
  tlmLimit : Nat := 0
  asid : Nat := 0
  image : Nat := 0
  desc : Nat := 0
  icount : Nat := 0
  wait : Option Wait := none
  fault : Option CtxFault := none
  miss : Option Miss := none
  atomic : Option AtomicReq := none
  sbuf : List StoreEntry := []
  tlds : List TldReq := []
  /-- a pre-emption request issued and not yet taken -/
  preempt : Option PreemptWhy := none
  save : Option SaveKind := none
  /-- R155: a drain or hold that waits for a save slot -/
  slotWait : Bool := false
  /-- R168: a kill that waits for the instruction boundary or the save -/
  killed : Bool := false
  /-- the task's blocking submission was counted in BUSY_COUNT (R143) -/
  busyCounted : Bool := false
  dispatchNo : Nat := 0
  deriving DecidableEq, Repr

/-- R134: a wait has just ended: what more edges of its clock are added to (`mask` 0: none).  R321: the
context as it waited, which a mirror set of that clock still captures. -/
structure Woke where
  clk : Nat
  dispatchNo : Nat
  icount : Nat
  mask : Nat
  rd : Nat
  got : Nat
  was : Ctx
  deriving DecidableEq, Repr

/-- R137: an operation that reached a busy check-value unit and waits its turn. -/
structure CrcTurn where
  unit : Nat
  at_ : Nat
  dispatchNo : Nat
  icount : Nat
  deriving DecidableEq, Repr

/-- A line of a data cache, tagged with its ASID (R82). -/
structure CacheLine where
  asid : Nat
  line : Nat
  bytes : List Byte
  deriving DecidableEq, Repr

/-! ### Scheduler (chapter 5) -/

/-- R147, with its codes. -/
inductive DescState
  | free | delayed | ready | running | saved | faultPending | held | releasing
  deriving DecidableEq, Repr

/-- A tst write on its way to the frame store (R127). -/
structure TstWrite where
  seg : Nat
  off : Nat
  lanes : Nat
  ch : List (BitVec 512)
  deriving DecidableEq, Repr

/-- What goes to the frame store: pixels, or a completion mark (R128). -/
inductive PathItem
  | tst (w : TstWrite)
  | commit (ports val : Nat)
  deriving DecidableEq, Repr

/-- An item of a slice's path to the frame store: what orders it (R128): the context of a task
outside any flow, or 64 + the flow; the context that issued it; whether it lies in the release
buffer (R158). -/
structure PathEntry where
  owner : Nat
  ctx : Nat
  buffered : Bool
  item : PathItem
  deriving DecidableEq, Repr

/-- A task descriptor (R142, R147). -/
structure Desc where
  st : DescState := .free
  gen : Nat := 0
  entry : Nat := 0
  wg : Nat := 0
  flow : Nat := 0
  flowValid : Bool := false
  mirrorTag : Bool := false
  notify : Bool := false
  cost : Nat := 0
  image : Nat := 0
  args : List Word := []
  tag : Nat := 0
  seq : Nat := 0
  icount : Nat := 0
  due : Nat := 0
  dispatched : Bool := false
  restart : Bool := false
  ctx : Option Nat := none
  slot : Option Nat := none
  /-- kept beside the save slot: the 64-line mask of a wait.ev, the pending tld requests and the
  fault record's token -/
  savedWait : Option Wait := none
  savedTlds : List TldReq := []
  savedFault : Option CtxFault := none
  /-- R128, R158: the writes held in the release buffer, in issue order, and the tcommits, until the
  task's release -/
  held : List PathEntry := []
  endStatus : Nat := 0
  endCause : Nat := 0
  endUser : Nat := 0
  deriving DecidableEq, Repr

/-- Who submits a task (R140). -/
inductive SubSrc
  | ctx (k rd len : Nat) (nb enq : Bool)
  | host
  deriving DecidableEq, Repr

/-- A submission that waits for a scheduler cycle: its descriptor words (R142). -/
structure Sub where
  src : SubSrc
  ctrl : Nat
  image : Nat
  start : Nat
  args : List Word
  tag : Nat
  tail : Nat
  /-- a spawn spec with reserved bits set (R131) -/
  badSpec : Bool
  deriving DecidableEq, Repr

/-- The scheduler of a slice beside its registers. -/
structure SchedSt where
  queue : KMap (List Nat) := []
  /-- the delay list: due time (sr.time units) and descriptor, in due and submission order -/
  delay : List (Nat × Nat) := []
  expired : List Nat := []
  /-- contexts whose tasks are requeued, and tasks resumed by Renro -/
  requeues : List (Nat × Nat) := []
  endings : List Nat := []
  subs : List Sub := []
  cancels : List (Nat × Nat × Nat) := []
  kill : Option Nat := none
  /-- R154: the number of the next dispatch -/
  dispatchNo : Nat := 0
  slots : List Nat := []
  /-- R159, R161: flow slots passed without a task: flow, sequence -/
  skips : List (Nat × Nat) := []
  path : List PathEntry := []
  /-- R160: the bytes that last found the release buffer full -/
  full : Option Nat := none
  /-- R167: event-triggered entries whose BPN output is asserted -/
  bpn : List Nat := []
  /-- R163: the grid of the frame mode: T (2^-32 ns), period NUM, DEN, F -/
  grid : Option (Nat × Nat × Nat × Nat) := none
  /-- R169: cores disabled whose DRAINED is still to be logged -/
  draining : List Nat := []
  deriving DecidableEq, Repr

/-! ### Memory, translation and DMA (chapter 6) -/

/-- A translation a TLB holds (R180): virtual page base and size, physical base, permissions. -/
structure TlbEntry where
  asid : Nat
  glob : Bool
  va : Nat
  size : Nat
  pa : Nat
  r : Bool
  w : Bool
  x : Bool
  deriving DecidableEq, Repr

/-- Who made a fault record (R186). -/
structure FaultRec where
  va : Nat
  token : Nat
  source : Nat
  kind : Nat
  write : Bool
  fetch : Bool
  resumable : Bool
  asid : Nat
  id : Nat
  info : Nat
  bytes : Nat
  time : Nat
  deriving DecidableEq, Repr

/-- The source of an outstanding record. -/
inductive FaultSrc
  | ctx (desc gen : Nat)
  | chan (k : Nat)
  deriving DecidableEq, Repr

/-- A resumable record that Renro has not answered: its token, who waits, the instant of posting,
and the address that faulted (R188, R189). -/
structure OpenFault where
  token : Nat
  src : FaultSrc
  at_ : Nat
  asid : Nat
  va : Nat
  deriving DecidableEq, Repr

/-- A table entry a walk cache holds (R180): an entry of level 0 to 2 that names a next table. -/
structure WalkEntry where
  asid : Nat
  level : Nat
  /-- VA[47:39-9l], the bits that index the levels down to this one -/
  tag : Nat
  table : Nat
  deriving DecidableEq, Repr

/-- An invalidation under way (R181): the fields of TLBI_CTRL and TLBI_VA at GO, and when. -/
structure Tlbi where
  type : Nat
  span : Nat
  asid : Nat
  va : Nat
  at_ : Nat
  deriving DecidableEq, Repr

/-- A fault queue (R186, R187). -/
structure FaultQueue where
  recs : List FaultRec := []
  nextToken : Nat := 0
  /-- resumable records not answered yet -/
  open_ : List OpenFault := []
  /-- records that wait for space, oldest first (token filled when posted) -/
  held : List (FaultRec × FaultSrc) := []
  /-- R421: resumable records Renro has still to copy to the host -/
  toCopy : List FaultRec := []
  deriving DecidableEq, Repr

/-- A DMA descriptor as read (R191). -/
structure DmaDesc where
  ctrl : Nat
  rows : Nat
  src : Nat
  dst : Nat
  len : Nat
  rsvd : Nat
  srcStride : Nat
  dstStride : Nat
  fill : Nat
  tag : Nat
  deriving DecidableEq, Repr

/-- A DMA channel beside its registers: the state is CH_STATUS.STATE. -/
structure Chan where
  prod : Nat := 0
  desc : Option DmaDesc := none
  /-- a trigger edge not yet taken -/
  edge : Bool := false
  /-- a doorbell whose producer word is still to be read (after a fault on it) -/
  wantProd : Bool := false
  /-- R190: bursts left in the present turn -/
  turn : Nat := 0
  deriving DecidableEq, Repr

/-! ### Layer fetch (chapter 7) -/

/-- A request a fetcher has taken (R210): the layer values in force, the commit point epoch. -/
structure Taken where
  req : TldReq
  epoch : Nat
  base : Nat
  stride : Nat
  fmt : Nat
  ctrl : Nat
  bad : Bool
  withdrawn : Bool
  deriving DecidableEq, Repr

/-- A layer fetcher. -/
structure Fetcher where
  queue : List TldReq := []
  taken : List Taken := []
  /-- R211: tiles (column, row, bytes) read ahead, at most 4, and the next one to read -/
  ahead : List (Nat × Nat × List Byte) := []
  nextAhead : Option (Nat × Nat) := none
  /-- commit points passed: requests taken before one carry a smaller epoch -/
  epoch : Nat := 0
  /-- R207: the layer was latched with a bad configuration -/
  bad : Bool := false
  deriving DecidableEq, Repr

/-! ### LED drive and measurement (chapter 12), calibration (chapter 13) -/

/-- A channel beside its registers. -/
structure LedCh where
  /-- R343: the src held while FREEZE is 1 -/
  src : Nat := 0
  /-- R347: recent writes of CH_DUTY, CH_CFG, CH_CURRENT: instant and the three values before it,
  newest first -/
  recent : List (Nat × Nat × Nat × Nat) := []
  /-- R347: the CH_CURRENT in use since the last period start -/
  curr : Nat := 0
  /-- R347: the dither accumulator (R351 may take it below 0) -/
  acc : Int := 0
  /-- the period in progress or last started: its start (real instant, 0.1 ns) and the length of
  its pulse, in LED clocks -/
  onAt : Nat := 0
  onClk : Nat := 0
  /-- the present period is one to be measured, and whether it has been sampled -/
  measurable : Bool := false
  sampled : Bool := false
  openRun : Nat := 0
  openFree : Nat := 0
  dropRun : Nat := 0
  dropFree : Nat := 0
  shortRun : Nat := 0
  shortFree : Nat := 0
  adjRun : Nat := 0
  adjMiss : Nat := 0
  /-- R350: periods with d > 0 gone unmeasured; R351: periods since the last measured one -/
  unmeasured : Nat := 0
  sinceMeas : Nat := 0
  /-- R357: in the present 10 ms interval: VSINK was measured, and the clocks of on-time and in all of
  the periods started -/
  powSeen : Bool := false
  onSum : Nat := 0
  ofSum : Nat := 0
  /-- R359: the lowest VSINK in its interval -/
  hrMin : Option Nat := none
  deriving DecidableEq, Repr

/-- The LED block. -/
structure LedSt where
  ch : KMap LedCh := []
  /-- R346: the real instant (0.1 ns) of a counter zero, and the P in force -/
  zeroAt : Nat := 0
  period : Nat := 50000
  /-- R346: a valid write of PWM_PERIOD waits for the wrap -/
  written : Bool := false
  /-- R348: by how many clocks the present period is lengthened -/
  stretch : Nat := 0
  /-- R281: a DST_PWM firing under way -/
  refPending : Bool := false
  /-- real instants of the last updates -/
  derateAt : Nat := 0
  powerAt : Nat := 0
  headAt : Nat := 0
  deriving DecidableEq, Repr

/-- An entry of a converter FIFO (R362). -/
structure AdcEntry where
  code : Nat
  input : Nat
  slot : Nat
  delayed : Bool
  time : Nat
  deriving DecidableEq, Repr

/-- A converter. -/
structure Conv where
  /-- the slot being converted -/
  slot : Option Nat := none
  slotAt : Nat := 0
  sampleCnt : Nat := 0
  /-- the sequence was started late by a housekeeping conversion (R364) -/
  delayed : Bool := false
  /-- instants: when the converter last became idle, and its last housekeeping conversion -/
  idleAt : Nat := 0
  hkAt : Nat := 0
  hkUntil : Nat := 0
  /-- R363: no PWM trigger before this instant is still to come: the last one was just before it -/
  trigFrom : Nat := 0
  /-- R281: a DST_ADC firing under way -/
  fired : Bool := false
  fifo : List AdcEntry := []
  deriving DecidableEq, Repr

/-- The converters and the housekeeping scan (R364, R461). -/
structure AdcSt where
  conv : KMap Conv := []
  hkNext : Nat := 0
  /-- real instant of each input's last housekeeping conversion -/
  hkWhen : KMap Nat := []
  scanHot : Bool := false
  lastHot : Bool := false
  deriving DecidableEq, Repr

/-- What a calibration pulse measures. -/
inductive CalPhase
  | measure | verify
  deriving DecidableEq, Repr

/-- A calibration run in progress (R374, R375). -/
structure CalRun where
  mode : Nat
  seq : Nat
  mask : Nat
  allowJump : Bool
  store : Bool
  vref0 : Nat
  iset0 : Nat
  /-- REF: the step 1..4; OPEN, JIG: the channel, its phase, its point, its pulse -/
  step : Nat := 1
  ch : Nat := 0
  phase : CalPhase := .measure
  point : Nat := 0
  pulse : Nat := 0
  /-- R375: the instant of the last pulse, or of the run's start -/
  pulseAt : Nat := 0
  /-- the codes of the present point's pulses, and of the points measured, summed -/
  sum : Nat := 0
  meas : List Nat := []
  /-- the verify residuals of the present channel, in uA -/
  resid : List Int := []
  /-- results of the present group: channel, GAIN, OFFSET, the residual of each point (uA) -/
  newTrims : List (Nat × Int × Int × List Int) := []
  /-- results of groups committed in this run -/
  done : List (Nat × Int × Int × List Int) := []
  /-- REF: the offsets, the VREF target, the code of input 10 on converter 0 -/
  refTrims : List Int := []
  groups : Nat := 0
  temp : Int := 0
  deriving DecidableEq, Repr

/-- A calibration record in the settings store (R379): trims named by kind and index. -/
structure CalRecord where
  seq : Nat
  mode : Nat
  /-- (0, u) ADC_OFF_TRIM; (1, 0) ADC1_GAIN; (2, 0) VREF; (3, c) CH_TRIM -/
  trims : List ((Nat × Nat) × Nat)
  residuals : List (Nat × List Int)
  certs : List Nat
  measured : List Nat
  temp : Int
  sec : Nat
  ns : Nat
  flags : Nat
  /-- its CRC-32C as stored -/
  crc : Nat
  deriving DecidableEq, Repr

structure CalSt where
  run : Option CalRun := none
  runSeq : Nat := 0
  rampAt : Nat := 0
  deriving DecidableEq, Repr

/-! ### Settings, firmware slots and power (chapters 17 and 18) -/

/-- The settings of the PTP stack (R269); until others are stored, those of the default profile
(PRESUMED, log entry 135). -/
structure PtpCfg where
  on : Bool := true
  p2p : Bool := false
  ether : Bool := false
  domain : Nat := 0
  announce : Nat := 3
  vlan : Option Nat := none
  deriving DecidableEq, Repr

/-- The objects of a settings generation (R452) that the model reads. -/
structure Settings where
  epoch : Nat := 0
  autostart : Bool := false
  timeWait : Nat := 10
  fatalRestart : Bool := true
  faultHold : Nat := 5
  recN : Nat := 8192
  clearCount : Nat := 0
  /-- stored register values plus 1, by physical address; 0: none stored: LED channel
  configuration, tables, HR_CTRL, RANK, RED_CTRL, TWIN_PORTS, HOP_SKEW, UPD_CTRL, latencies, the
  show image address and the like -/
  stored : KMap Nat := []
  ptp : PtpCfg := {}
  cal : List CalRecord := []
  deriving DecidableEq, Repr

/-- A generation of the settings log (R452, R408): what each copy holds. -/
structure Generation where
  gen : Nat
  ver : Nat
  writer : Nat
  data : Settings
  ok0 : Bool := true
  ok1 : Bool := true
  /-- both copies hold the same data -/
  same : Bool := true
  /-- its length in one copy, in bytes -/
  size : Nat := 0
  deriving DecidableEq, Repr

/-- A firmware slot (R440, R442): its header and its chunks as programmed. -/
structure FwSlot where
  /-- the slot's state, as UPD_STATUS codes it -/
  st : Nat := 0
  header : List Byte := []
  chunks : KMap (List Byte) := []
  /-- R446: index to CRC-32C of the marked chunk table entries -/
  marks : KMap Nat := []
  erases : KMap Nat := []
  deriving DecidableEq, Repr

/-- The boot control record (R449). -/
structure BootRec where
  active : Nat := 0
  previous : Nat := 1
  trial : Bool := false
  tries : Nat := 0
  seq : Nat := 0
  deriving DecidableEq, Repr

/-- An update command in progress (R445): opcode, result, end of its run time, its record. -/
structure UpdRun where
  op : Nat
  result : Nat
  code : Nat
  payload : List Byte
  /-- the slot and the chunk that the end of the command marks; the new state of the slot -/
  slot : Nat := 0
  idx : Nat := 0
  st : Nat := 0
  deriving DecidableEq, Repr

/-- A live activation (R447). -/
structure Activation where
  target : Nat
  /-- ports and the modes recorded in step 1 -/
  modes : List (Nat × Nat)
  runs : List Nat
  paused : Bool := false
  deriving DecidableEq, Repr

structure UpdSt where
  slotA : FwSlot := {}
  slotB : FwSlot := {}
  boot : BootRec := {}
  cmd : Option UpdRun := none
  act : Option Activation := none
  gens : List Generation := []
  /-- the settings in force -/
  cur : Settings := {}
  /-- host changes not yet written; a change to write at once; the instant of the last generation
  (R452) -/
  dirty : Bool := false
  urgent : Bool := false
  genAt : Nat := 0
  wearLogged : Option Nat := none
  bytesToday : Nat := 0
  dayAt : Nat := 0
  settingsVer : Nat := 1
  readMin : Nat := 1
  handoverVer : Nat := 0
  /-- the generation a trial migrated from -/
  migratedFrom : Option Nat := none
  /-- R450: modes and running slices before the activation -/
  trialModes : List (Nat × Nat) := []
  trialRuns : List Nat := []
  fatalSinceBoot : Bool := false
  healthAt : Nat := 0
  /-- R450: a condition of the present second has failed -/
  broken : Bool := false
  /-- R452, R441: bytes ever appended to the settings log of a copy -/
  logBytes : Nat := 0
  deriving DecidableEq, Repr

/-- Supply and thermal state (chapter 18). -/
structure PowerSt where
  /-- every rail is off -/
  off : Bool := false
  warnAt : Option Nat := none
  /-- the warning was a thermal trip -/
  tripped : Bool := false
  /-- POWER_RESTORED waits for start-up step 3: ns below 34.0 V -/
  restored : Option Nat := none
  warnLogged : Bool := false
  deriving DecidableEq, Repr

/-! ### Start-up, fatal sequence, GPI and host (chapter 16) -/

structure BootSt where
  /-- the present step was finished, or waits (HOLD_FOR_HOST) -/
  contSent : Bool := false
  step7At : Nat := 0
  quartz : Bool := false
  /-- NODE_COUNT of every port last seen, and since when it is unchanged (R426) -/
  countsAt : Nat := 0
  /-- R432: uptimes (real instants) of the last fatal errors -/
  fatals : List Nat := []
  /-- R422, R432 step 5: the instant of the management reset -/
  mgmtAt : Option Nat := none
  /-- the step of the fatal sequence reached, 0 none -/
  fatalStep : Nat := 0
  fatalDetail : List Byte := []
  /-- WALL fields of the FATAL record: seconds, ns, flags -/
  fatalSec : Nat := 0
  fatalNs : Nat := 0
  fatalFlags : Nat := 0
  fatalSeq : Nat := 0
  fatalUptime : Nat := 0
  /-- LATER_FATALS of the dump under way -/
  later : Nat := 0
  firstSummary : List Byte := []
  latestSummary : List Byte := []
  dumpLogged : Bool := true
  /-- R434: the last dump was not written: an earlier one was kept -/
  dumpKept : Bool := false
  watchdogAt : Nat := 0
  deriving DecidableEq, Repr

/-- A general-purpose input beside its registers (R428 to R430). -/
structure Gpi where
  lastTick : Nat := 0
  count : Nat := 0
  stamp : Nat := 0
  activeAt : Nat := 0
  deriving DecidableEq, Repr

/-- A mailbox command Renro works on (R420): the result and the response words. -/
structure Mbx where
  result : Nat
  resp : List Nat
  /-- UNMAP, UNLOAD_IMAGE: until the invalidations of every translator have completed (R182) -/
  wait : Bool := false
  deriving DecidableEq, Repr

/-- A loaded image (R100 to R103). -/
structure Image where
  asid : Nat
  slices : Nat
  buildId : Nat
  debug : Bool
  /-- its sections: virtual address and length in bytes -/
  pages : List (Nat × Nat)
  deriving DecidableEq, Repr

structure HostSt where
  mbx : Option Mbx := none
  inService : List Nat := []
  /-- the bytes the last completed register or window read returned to a requester (0 host,
  1 Renro): an output of the block -/
  readOut : KMap (List Byte) := []
  ntfSeq : Nat := 0
  images : KMap (Option Image) := []
  groups : List (Nat × Nat × List Nat) := []
  /-- the next free page of Renro memory for tables (R417) -/
  nextTable : Nat := 0
  /-- R182: invalidations Renro has still to issue: translator, ASID -/
  tlbiDue : List (Nat × Nat) := []
  /-- AON copies in SYS (R414), refreshed every 1 ms -/
  aonAt : Nat := 0
  aon : KMap Word := []
  deriving DecidableEq, Repr

/-! ### Network ports (chapter 10) -/

/-- A receive ring beside its registers (R296). -/
structure RxRing where
  notified : Nat := 0
  firstAt : Option Nat := none
  deriving DecidableEq, Repr

/-- A transmit frame read whole into its ring's buffer (R297). -/
structure NetFrame where
  /-- indices of its descriptors, in ring order -/
  descs : List Nat
  flags : Nat
  tsId : Nat
  vlan : Nat
  seqIdx : Nat
  bytes : List Byte
  deriving DecidableEq, Repr

/-- What a port is sending (R298). -/
structure NetSend where
  /-- the ring; none for a PAUSE frame -/
  ring : Option Nat
  frame : NetFrame
  bytes : List Byte
  endAt : Nat
  deriving DecidableEq, Repr

/-- An Ethernet port beside its registers. -/
structure NetPort where
  rx : KMap RxRing := []
  tx : KMap (Option NetFrame) := []
  sending : Option NetSend := none
  /-- R301: transmission held until this real instant (0.1 ns) -/
  heldUntil : Nat := 0
  /-- R302: quanta of a PAUSE frame to send -/
  pause : Option Nat := none
  xoffAt : Nat := 0
  /-- R299, R300: whether a list has become operational since ENABLE, the switch instant pending
  (counter, 2^-32 ns), the open gates -/
  listed : Bool := false
  switchAt : Option Nat := none
  /-- R300: the list that switch makes operational: seconds, ns, cycle, length -/
  admin : Nat × Nat × Nat × Nat := (0, 0, 0, 0)
  gates : Nat := 15
  /-- R279: after a time step, the gates hold until this counter value -/
  holdTo : Option Nat := none
  /-- R289: frames that Renro has ready for TX ring 3, oldest first -/
  out : List NetFrame := []
  deriving DecidableEq, Repr

/-- A depacketiser flow beside its registers (R304, R305). -/
structure FlowSt where
  filling : Option Nat := none
  lastSlot : Nat := 3
  rtp : Nat := 0
  /-- the RTP timestamp of a frame being dropped whole -/
  dropping : Option Nat := none
  high : Option Nat := none
  seen : List Nat := []
  lastAt : Nat := 0
  /-- RTP timestamp of the last frame ended, whose late packets are discarded -/
  ended : Option Nat := none
  /-- the report of the FILLING slot: MISSING, FAULT, its first and last packet in sr.time units -/
  missing : Nat := 0
  fault : Bool := false
  first : Nat := 0
  last : Nat := 0
  deriving DecidableEq, Repr

structure NetSt where
  ports : KMap NetPort := []
  flows : KMap FlowSt := []
  deriving DecidableEq, Repr

/-! ### Twin operation (chapter 11) -/

/-- What a valid beat says (R317). -/
structure Beat where
  role : Nat
  sinks : Bool
  synced : Bool
  flags : Nat
  claim : Nat
  frame : Nat
  mirrorSeq : Nat
  switchFrame : Nat
  beat : Nat
  moduleId : Nat
  deriving DecidableEq, Repr

/-- How sinks are taken (R330). -/
inductive SinkWay
  | solo | agreement | handover | failure
  deriving DecidableEq, Repr

/-- A CONTEXT record of a mirror set (R322). -/
structure MirCtx where
  buildId : Nat
  entry : Nat
  slice : Nat
  wg : Nat
  tag : Nat
  arg0 : Nat
  arg1 : Nat
  state : List Byte
  tlm : List Byte
  deriving DecidableEq, Repr

/-- A DELAY record: the descriptor's bytes, the due time and the slice. -/
structure MirDelay where
  desc : List Byte
  due : Nat
  slice : Nat
  deriving DecidableEq, Repr

structure RedSt where
  /-- PAIR_EN as read at step 9 -/
  paired : Bool := false
  /-- the highest epoch heard in a peer's beats -/
  heard : Nat := 0
  beatNo : Nat := 0
  /-- the last valid beat, and per path the real instant of the last valid beat's start -/
  peer : Option Beat := none
  lastA : Nat := 0
  lastB : Nat := 0
  goodA : Nat := 0
  goodB : Nat := 0
  /-- consecutive beats of a SEEKING peer -/
  seekRun : Nat := 0
  seekAt : Nat := 0
  peerLost : Bool := false
  /-- R312: the claims in the headers of twin-wired ports and of the others, and the changes that
  wait: earliest instant (0.1 ns) and the two claims, oldest first -/
  claimTwin : Nat := 0
  claimOther : Nat := 0
  claimNext : List (Nat × Nat × Nat) := []
  ilkOut : Bool := false
  /-- R330: the sinks may be taken by failure -/
  tookOver : Bool := false
  handover : Option Nat := none
  /-- R334: the switch pending: frame h; on the active, or announced by the peer -/
  switch : Option Nat := none
  switchHeard : Option Nat := none
  /-- R335: ports whose first NODE_LAT[0] is compared, with the value loaded -/
  skewWait : KMap Nat := []
  /-- R317, R321: the last beat and the last set sent -/
  txBeat : List Byte := []
  txSet : List Byte := []
  /-- R315, R316: the outputs of lanes that differ from the voted ones -/
  lanes : KMap (Option LaneOut) := []
  /-- R322: frames of the set that wait to be posted, and the set's sequence number where it is whole;
  the last set sent complete (R317) -/
  mirOut : List (List Byte) := []
  mirSeq : Option Nat := none
  mirSent : Nat := 0
  /-- R321: the record last captured of each mirrored task, by descriptor, with its generation -/
  captured : KMap (Option (Nat × List Byte)) := []
  /-- R326: CONTEXT records still to be instantiated -/
  toMake : List MirCtx := []
  /-- R324: the frame of the last set applied (its low 32 bits) -/
  appliedFrame : Option Nat := none
  /-- the set being received: sequence, frames in order; the records held for takeover -/
  rxSeq : Option Nat := none
  rxNext : Nat := 0
  rxBytes : List Byte := []
  delays : List MirDelay := []
  contexts : List MirCtx := []
  deriving DecidableEq, Repr

/-! ### Trunk ports (chapter 8) and time (chapter 9) -/

/-- An entry of a port's telemetry table (R259). -/
structure TelEntry where
  bytes : List Byte := []
  frame : Nat := 0
  fresh : Bool := false
  at_ : Nat := 0
  deriving DecidableEq, Repr

/-- A probe on its way (R251). -/
structure Probe where
  node : Nat
  frame : Nat
  leftAt : Nat
  deriving DecidableEq, Repr

structure TrunkSt where
  tel : KMap TelEntry := []
  probe : Option Probe := none
  lastProbed : Nat := 63
  /-- R254: consecutive out-of-tolerance samples per node -/
  outliers : KMap Nat := []
  /-- R249: commands queued: the frames still to carry each, and its packet -/
  cmds : List (Nat × List Byte) := []
  /-- R247: the instant at which CFG_PENDING falls -/
  cfgDoneAt : Option Nat := none
  cfgPend : List Nat := []
  cfgNext : Nat := 0
  trainAt : Nat := 0
  retryAt : Option Nat := none
  /-- R234: consecutive good training sets received since training began; a TP2 was among them -/
  goodSets : Nat := 0
  sawTp2 : Bool := false
  /-- R260: the snapshot on its way to DRAM -/
  copy : Option (List Byte) := none
  deriving DecidableEq, Repr

/-- A transmit timestamp (R272). -/
structure TsEntry where
  id : Nat
  sec : Nat
  ns : Nat
  sub : Nat
  step : Nat
  ring : Nat
  deriving DecidableEq, Repr

/-- A timed trigger beside its registers (R280 to R283). -/
structure TrigSt where
  /-- the instants to come (counter, 2^-32 ns), soonest first -/
  next : List Nat := []
  deriving DecidableEq, Repr

structure LtcEntry where
  bytes : List Byte
  sec : Nat
  ns : Nat
  step : Nat
  deriving DecidableEq, Repr

/-- A step as it was (R268, R279): its clock, the counter and STEP_SEQ before it, and whether a command
made it (R278). -/
structure StepRec where
  clk : Nat
  cnt : Nat
  seq : Nat
  cmd : Bool
  deriving DecidableEq, Repr

/-- A Sync received (R269, R270): its sequence number, receive time and correction in 2^-16 ns, its
STEP_SEQ, the master's time once known. -/
structure PtpSync where
  seq : Nat
  t2 : Int
  step : Nat
  corr : Int
  t1 : Option Int
  deriving DecidableEq, Repr

/-- What Renro's PTP stack holds of the port in SLAVE (R269, R270): times in 2^-16 ns. -/
structure PtpSt where
  seq : Nat := 0
  sync : Option PtpSync := none
  /-- the request sent last: its sequence number, when, its transmit time and STEP_SEQ -/
  reqSeq : Option Nat := none
  reqAt : Nat := 0
  t3 : Option (Int × Nat) := none
  /-- peer delay: the peer's answer: our receive time, STEP_SEQ, its t2, its correction -/
  resp : Option (Int × Nat × Int × Int) := none
  /-- the path delay last measured -/
  path : Option Int := none
  /-- a peer's request to follow up: its port identity, its sequence number -/
  owed : Option (List Byte × Nat) := none
  /-- logMinDelayReqInterval as the master announces it -/
  logReq : Int := 0
  /-- the last Announce: when, and its log interval -/
  annAt : Option Nat := none
  annLog : Int := 0
  deriving DecidableEq, Repr

structure TimeSt where
  tsq : KMap (List TsEntry) := []
  trig : KMap TrigSt := []
  ltc : List LtcEntry := []
  /-- R274: the integral term, in 2^-32 ppb -/
  integ : Int := 0
  sampleAt : Nat := 0
  lockRun : Nat := 0
  /-- R276: when HOLDOVER was entered -/
  holdAt : Nat := 0
  /-- R284: consecutive valid frames, the last one's instant and rate -/
  ltcRun : Nat := 0
  ltcAt : Nat := 0
  /-- R285: the instant of the last accepted FRAME_IN edge -/
  fiAt : Option Nat := none
  /-- R269, R270: the port in SLAVE and the grandmaster's identity -/
  slave : Option Nat := none
  gm : Nat := 0
  /-- R279: the steps, newest first, at most 16 -/
  steps : List StepRec := []
  ptp : PtpSt := {}
  deriving DecidableEq, Repr

/-! ### The machine -/

structure State where
  /-- real time, in 0.1 ns: a multiple of the TIME clock's 40 -/
  clk : Nat := 0
  /-- the real instant of the last reset of the management cluster -/
  upBase : Nat := 0
  /-- R266: the time counter, in 2^-32 ns -/
  cnt : Nat := 0
  /-- how many free values have been drawn (the model's own) -/
  freeCtr : Nat := 0
  /-- the register bank, by physical address -/
  regs : KMap Word := []
  /-- R33: armed WIN writes, by register address -/
  armed : KMap (Option Armed) := []
  /-- R6: the holding registers, keyed by 2 * address + requester (0 host, 1 Renro) -/
  heldLow : KMap (Option Nat) := []
  /-- R9: sticky bits set by the module, by register address: the clock and the bits set on it -/
  setNow : KMap (Nat × Nat) := []
  capture : KMap (Option Nat) := []
  rcd : RecSt := {}
  tl : TimelineSt := {}
  slices : KMap SliceSt := []
  ports : KMap PortSt := []
  /-- contexts, by 32 * slice + 4 * core + context; cores by 8 * slice + core -/
  ctxs : KMap Ctx := []
  /-- R77: per core, the context that issued last (at reset 3: DESIGN CHOICE, log entry 129); per
  context, when it issued last -/
  lastIssue : KMap Nat := []
  issuedAt : KMap Nat := []
  woke : KMap (Option Woke) := []
  crcTurns : KMap (Option CrcTurn) := []
  /-- R135, R165: per slice, the lines that have risen on a clock: the clock and their mask -/
  edges : KMap (Nat × Nat) := []
  tlm : KMap Byte := []
  dcache : KMap (List CacheLine) := []
  descs : KMap Desc := []
  sched : KMap SchedSt := []
  dram : KMap Byte := []
  /-- poisoned lines, by address / 64 -/
  poison : KMap Bool := []
  /-- R174: lines with an error that no access has met yet: 1 a single bit, 2 beyond correction -/
  latent : KMap Nat := []
  tlb : KMap (List TlbEntry) := []
  walkCache : KMap (List WalkEntry) := []
  tlbis : KMap (Option Tlbi) := []
  fq : KMap FaultQueue := []
  chans : KMap Chan := []
  /-- R190: per slice (4: the host channels) the channel whose turn it is -/
  dmaTurn : KMap Nat := []
  /-- R176: per slice the next line to scrub -/
  scrubAt : KMap Nat := []
  fetchers : KMap Fetcher := []
  /-- the frame stores, by 64-bit word address; words found uncorrectable -/
  store : KMap Word := []
  storeBad : KMap Bool := []
  /-- R57: the completion marks of the back banks, by port: frame in bits 15..0, UNCHANGED in 16 -/
  marks : KMap (Option Nat) := []
  trunk : KMap TrunkSt := []
  time : TimeSt := {}
  net : NetSt := {}
  red : RedSt := {}
  led : LedSt := {}
  adc : AdcSt := {}
  cal : CalSt := {}
  upd : UpdSt := {}
  power : PowerSt := {}
  boot : BootSt := {}
  gpi : KMap Gpi := []
  host : HostSt := {}
  crcBusy : KMap Nat := []
  hostMem : KMap Byte := []
  /-- the commands that wait, first in, first out -/
  pending : List Instr := []
  deriving DecidableEq, Repr

/-- The machine right after reset: every field at its reset value (a map lists only what differs
from the default of its instances). -/
def State.reset : State := {}

end Sys2Proof.Machine
end

