-- ==== Sys2Proof/Machine/Ops.lean ====
section
/-! DEFINITION. The named operations over the state: registers, time, events, memory. -/

namespace Sys2Proof.Machine

/-! ### Numbers -/

/-- Bits hi..lo of v. -/
def bitsOf (v hi lo : Nat) : Nat := v / 2 ^ lo % 2 ^ (hi + 1 - lo)

/-- v with bits hi..lo replaced by x. -/
def putBits (v hi lo x : Nat) : Nat :=
  v - bitsOf v hi lo * 2 ^ lo + x % 2 ^ (hi + 1 - lo) * 2 ^ lo

/-- The number v of width w read as two's complement. -/
def sgn (w v : Nat) : Int := if v % 2 ^ w < 2 ^ (w - 1) then (v % 2 ^ w : Nat) else (v % 2 ^ w : Nat) - 2 ^ w

/-- An integer as a two's complement number of width w. -/
def unsgn (w : Nat) (i : Int) : Nat := (i % (2 ^ w : Nat)).toNat

/-- Clamp to a closed range. -/
def clampI (lo hi i : Int) : Int := max lo (min hi i)

def ceilDiv (a b : Nat) : Nat := (a + b - 1) / b

/-- The set bits of a mask below n, rising. -/
def bitList (n m : Nat) : List Nat := (List.range n).filter fun i => m.testBit i

def b2n (b : Bool) : Nat := if b then 1 else 0

/-! ### Registers -/

/-- What register r holds. -/
def rd (r : Reg) (s : State) : Nat := (kget r.reset r.addr s.regs).toNat

/-- Register r holds v. -/
def wr (r : Reg) (v : Nat) (s : State) : State :=
  { s with regs := kset r.reset r.addr (BitVec.ofNat 64 v) s.regs }

def fld (r : Reg) (hi lo : Nat) (s : State) : Nat := bitsOf (rd r s) hi lo
def bit (r : Reg) (i : Nat) (s : State) : Bool := (rd r s).testBit i
def setFld (r : Reg) (hi lo x : Nat) (s : State) : State := wr r (putBits (rd r s) hi lo x) s
def setBit (r : Reg) (i : Nat) (b : Bool) (s : State) : State := setFld r i i (b2n b) s

/-- R11: a 32-bit counter counts k more, and saturates. -/
def bumpBy (r : Reg) (k : Nat) (s : State) : State := wr r (min (rd r s + k) 0xFFFFFFFF) s
def bump (r : Reg) (s : State) : State := bumpBy r 1 s

/-- R9: the bits of a sticky status register that the module has set on this clock. -/
def setOnClock (r : Reg) (s : State) : Nat :=
  let q := kget (0, 0) r.addr s.setNow
  if q.1 = s.clk then q.2 else 0

/-- R9: set the bits of m in a sticky status register. -/
def orReg (r : Reg) (m : Nat) (s : State) : State :=
  wr r (rd r s ||| m) { s with setNow := kset (0, 0) r.addr (s.clk, setOnClock r s ||| m) s.setNow }

/-! ### Free values -/

/-- A fresh free value (DESIGN CHOICE, log entry 2) and the state with the counter advanced. -/
def fresh (s : State) : Word × State :=
  (Config.freeValue s.freeCtr, { s with freeCtr := s.freeCtr + 1 })

/-! ### Time (R23, R266) -/

/-- Real time in 0.1 ns of one TIME clock, one TRK_TX clock, one slot. -/
def timeClk : Nat := 40
def trkClk : Nat := 32
def slotLen : Nat := 192

/-- R266: the increment of the counter per TIME clock, in 2^-32 ns, computed to 2^-32 ns. -/
def incr (s : State) : Nat :=
  (2 ^ 34 + Int.fdiv (sgn 32 (rd Time.RATE_ACT s) * 2 ^ 30) 1000000000).toNat

/-- k TIME clocks pass. -/
def advance (k : Nat) (s : State) : State :=
  { s with clk := s.clk + timeClk * k, cnt := s.cnt + incr s * k }

/-- Time goes on to the first TIME clock at or after the real instant t (0.1 ns). -/
def hopClk (t : Nat) (s : State) : State := advance (ceilDiv (t - s.clk) timeClk) s

/-- The bytes a completed read returned to its requester. -/
def putRead (who : Req) (bs : List Byte) (s : State) : State :=
  { s with host := { s.host with
      readOut := kset [] (match who with | .host => 0 | .renro => 1) bs s.host.readOut } }

/-- Time goes on to the first TIME clock at which the counter reads at least c (2^-32 ns). -/
def hopCnt (c : Nat) (s : State) : State := advance (ceilDiv (c - s.cnt) (incr s)) s

/-- The real instant (0.1 ns), not before now, at which the counter reads c exactly, rounded up
to a multiple of the clock q (R41: interpolated at the present increment). -/
def edgeAt (q c : Nat) (s : State) : Nat :=
  ceilDiv (s.clk * incr s + (c - s.cnt) * timeClk) (incr s * q) * q

/-- Counter units (2^-32 ns) of n ns. -/
def nsUnits (n : Nat) : Nat := n * 2 ^ 32

def nowNs (s : State) : Nat := s.cnt / 2 ^ 32
def nowSec (s : State) : Nat := nowNs s / 1000000000
def nowNsec (s : State) : Nat := nowNs s % 1000000000
def nowSub (s : State) : Nat := s.cnt / 2 ^ 16 % 2 ^ 16

/-- R73: sr.time, seconds x 10^9 + ns. -/
def srTime (s : State) : Nat := nowNs s % 2 ^ 64

/-- R268: STEP_SEQ. -/
def stepSeq (s : State) : Nat := fld Time.TIME_STATUS 11 8 s

/-- R268, R279: the counter and STEP_SEQ as they stood `back` units of 2^-32 ns of the counter ago: a
value taken before a step keeps the side it was taken on. -/
def captureBack (back : Nat) (s : State) : Nat × Nat :=
  let ago := ceilDiv (10 * back) (2 ^ 32)
  match (s.time.steps.filter fun x => s.clk < x.clk + ago).getLast? with
  | none => (s.cnt - back, stepSeq s)
  | some x => (x.cnt - (back - nsUnits (s.clk - x.clk) / 10), x.seq)

/-- R38: the period's numerator and denominator. -/
def periodNum (s : State) : Nat := rd Time.FT_PERIOD_NUM s
def periodDen (s : State) : Nat := rd Time.FT_PERIOD_DEN s
/-- n periods, in units of 2^-k ns, rounded down. -/
def periodsIn (k n : Nat) (s : State) : Nat := n * periodNum s * 2 ^ k / periodDen s
/-- R38: T_n in 2^-32 ns, rounded down to 2^-16 ns. -/
def frameT (n : Nat) (s : State) : Nat :=
  ((rd Time.FT_EPOCH_SEC s * 1000000000 + rd Time.FT_EPOCH_NS s) * 2 ^ 16 + periodsIn 16 n s) * 2 ^ 16

/-- R422, R432 step 5: the last reset of the management cluster: the last reset of the module, or the
management reset of a fatal error. -/
def mgmtBase (s : State) : Nat :=
  match s.boot.mgmtAt with
  | some t => if t ≤ s.clk then t else s.upBase
  | none => s.upBase

/-- R383: ns since the last reset of the management cluster. -/
def uptime (s : State) : Nat := (s.clk - mgmtBase s) / 10

/-- A real time of n ns, in 0.1 ns. -/
def realNs (n : Nat) : Nat := n * 10

/-! ### Events (R484 to R488) -/

/-- Little-endian bytes of a payload field (R486). -/
def leBytes : Nat → Nat → List Byte
  | 0, _ => []
  | n + 1, v => BitVec.ofNat 8 v :: leBytes n (v / 256)

def p1 (v : Nat) : List Byte := leBytes 1 v
def p2 (v : Nat) : List Byte := leBytes 2 v
def p4 (v : Nat) : List Byte := leBytes 4 v
def p8 (v : Nat) : List Byte := leBytes 8 v

/-- The number little-endian bytes spell. -/
def leNat : List Byte → Nat
  | [] => 0
  | b :: t => b.toNat + 256 * leNat t

/-- R489: the severity of a code: 1 INFO, 2 WARN, 3 ERROR, 4 FATAL. -/
def severityOf (code : Nat) : Nat :=
  if code ∈ [0x0102, 0x0441, 0x0A07] then 4
  else if code ∈ [0x0103, 0x0110, 0x0113, 0x0116, 0x0120, 0x0304, 0x0305, 0x0306, 0x0311, 0x0312,
      0x0313, 0x0403, 0x0440, 0x0502, 0x0506, 0x0507, 0x0705, 0x070A, 0x0804, 0x0805, 0x0807,
      0x080C, 0x0905, 0x0A08, 0x0A0A, 0x0A10, 0x0B03, 0x0B07, 0x0B09, 0x0B0B, 0x0B0D, 0x0D10] then 3
  else if code ∈ [0x0101, 0x0104, 0x0105, 0x0111, 0x0202, 0x0205, 0x020A, 0x020E, 0x0302, 0x0307,
      0x0308, 0x030B, 0x030C, 0x0315, 0x0408, 0x0409, 0x0501, 0x0509, 0x0601, 0x0604, 0x060A,
      0x0701, 0x0707, 0x0709, 0x0802, 0x0809, 0x080D, 0x080E, 0x0901, 0x0902, 0x0906, 0x0A01,
      0x0A04, 0x0A0B, 0x0A0C, 0x0A0E, 0x0B01, 0x0B02, 0x0B04, 0x0B05, 0x0B08, 0x0C01, 0x0C04,
      0x0D02, 0x0D04] then 1
  else 2

/-- The recorder's state, changed. -/
def updRcd (f : RecSt → RecSt) (s : State) : State := { s with rcd := f s.rcd }

/-- An event reaches the recorder (it enters when the command ends: R384). -/
def logBy (origin code inst : Nat) (payload : List Byte) (s : State) : State :=
  updRcd (fun q => { q with
      arriving := q.arriving ++ [⟨code, severityOf code, origin, inst, payload⟩] }) s

/-- An event of the hardware (ORIGIN 0) or, where the spec names Renro as its writer, of Renro
(ORIGIN 1). -/
def logEv (code inst : Nat) (payload : List Byte) (s : State) : State := logBy 0 code inst payload s
def logRenro (code inst : Nat) (payload : List Byte) (s : State) : State :=
  logBy 1 code inst payload s

/-- R487: INSTANCE of a record that concerns no single instance. -/
def noInst : Nat := 0xFF

/-- R488: key of a rate window. -/
def winKey (code inst node : Nat) : Nat := code * 65536 + inst % 256 * 256 + node % 256

/-- R488: ask a window of `ns` that lets `n` records through: is this one written, and how many
were suppressed since the last. -/
def askWindow (key ns n : Nat) (s : State) : Bool × Nat × State :=
  let w := kget ({} : RateWin) key s.rcd.windows
  let put (w' : RateWin) : State :=
    updRcd (fun q => { q with windows := kset ({} : RateWin) key w' q.windows }) s
  let isOpen := match w.start with
    | none => false
    | some t => t ≤ uptime s && uptime s < t + ns
  if !isOpen then (true, w.suppressed, put ⟨some (uptime s), 1, 0⟩)
  else if w.count < n then (true, w.suppressed, put { w with count := w.count + 1, suppressed := 0 })
  else (false, 0, put { w with suppressed := w.suppressed + 1 })

/-- An event limited to one per `ns` for its code, INSTANCE and node (R488). -/
def logPerNode (code inst node ns : Nat) (payload : List Byte) (s : State) : State :=
  let (ok, _, s) := askWindow (winKey code inst node) ns 1 s
  if ok then logEv code inst payload s else s

def logPer (code inst ns : Nat) (payload : List Byte) (s : State) : State :=
  logPerNode code inst 0xFF ns payload s

/-- As logPer; the record carries the events since the last record (its own included). -/
def logPerCounted (code inst ns : Nat) (payload : Nat → List Byte) (s : State) : State :=
  let (ok, k, s) := askWindow (winKey code inst 0xFF) ns 1 s
  if ok then logEv code inst (payload (k + 1)) s else s

/-- At most 16 records per second for a code and INSTANCE; each carries the count suppressed since
the last as its final field (R89, R200, R486). -/
def logSixteenBy (origin code inst : Nat) (payload : List Byte) (s : State) : State :=
  let (ok, k, s) := askWindow (winKey code inst 0xFF) 1000000000 16 s
  if ok then logBy origin code inst (payload ++ p4 k) s else s
def logSixteen (code inst : Nat) (payload : List Byte) (s : State) : State :=
  logSixteenBy 0 code inst payload s

def oneSecond : Nat := 1000000000
def oneMinute : Nat := 60000000000

/-! ### Instances -/

def ctxAt (k : Nat) (s : State) : Ctx := kget {} k s.ctxs
def setCtx (k : Nat) (c : Ctx) (s : State) : State := { s with ctxs := kset {} k c s.ctxs }
def updCtx (k : Nat) (f : Ctx → Ctx) (s : State) : State := setCtx k (f (ctxAt k s)) s
/-- Contexts are numbered 32 * slice + 4 * core + context. -/
def ctxNo (i : CtxId) : Nat := 32 * i.slice.val + 4 * i.core.val + i.ctx.val
def ctxSlice (k : Nat) : Nat := k / 32
def ctxCore (k : Nat) : Nat := k / 4 % 8
def schedAt (sl : Nat) (s : State) : SchedSt := kget {} sl s.sched
def setSched (sl : Nat) (c : SchedSt) (s : State) : State := { s with sched := kset {} sl c s.sched }
def updSched (sl : Nat) (f : SchedSt → SchedSt) (s : State) : State :=
  setSched sl (f (schedAt sl s)) s
def sliceAt (sl : Nat) (s : State) : SliceSt := kget {} sl s.slices
def setSlice (sl : Nat) (c : SliceSt) (s : State) : State := { s with slices := kset {} sl c s.slices }
def updSlice (sl : Nat) (f : SliceSt → SliceSt) (s : State) : State :=
  setSlice sl (f (sliceAt sl s)) s
/-- Global ports are numbered 8 * slice + local port. -/
def portAt (p : Nat) (s : State) : PortSt := kget {} p s.ports
def setPort (p : Nat) (c : PortSt) (s : State) : State := { s with ports := kset {} p c s.ports }
def updPort (p : Nat) (f : PortSt → PortSt) (s : State) : State := setPort p (f (portAt p s)) s
def chanAt (k : Nat) (s : State) : Chan := kget {} k s.chans
def setChan (k : Nat) (c : Chan) (s : State) : State := { s with chans := kset {} k c s.chans }
def updChan (k : Nat) (f : Chan → Chan) (s : State) : State := setChan k (f (chanAt k s)) s
def descAt (d : Nat) (s : State) : Desc := kget {} d s.descs
/-- Descriptors are numbered 4096 * slice + index. -/
def setDesc (d : Nat) (c : Desc) (s : State) : State := { s with descs := kset {} d c s.descs }
def updDesc (d : Nat) (f : Desc → Desc) (s : State) : State := setDesc d (f (descAt d s)) s

/-- R70: g0 reads 0 and discards writes. -/
def Ctx.getG (c : Ctx) (r : Nat) : Word := if r = 0 then 0 else kget 0 r c.g
def Ctx.setG (c : Ctx) (r : Nat) (v : Word) : Ctx :=
  if r = 0 then c else { c with g := kset 0 r v c.g }
/-- R70: p0 reads all ones and discards writes. -/
def Ctx.getP (c : Ctx) (r : Nat) : BitVec 32 := if r = 0 then 0xFFFFFFFF else kget 0 r c.p
def Ctx.setP (c : Ctx) (r : Nat) (v : BitVec 32) : Ctx :=
  if r = 0 then c else { c with p := kset 0 r v c.p }
def Ctx.getV (c : Ctx) (r : Nat) : BitVec 512 := kget 0 r c.v
def Ctx.setV (c : Ctx) (r : Nat) (v : BitVec 512) : Ctx := { c with v := kset 0 r v c.v }

/-- R73: sr.icount and pc after an instruction of len bytes. -/
def Ctx.retire (c : Ctx) (len : Nat) : Ctx :=
  { c with pc := (c.pc + len) % 2 ^ 48, icount := (c.icount + 1) % 2 ^ 64 }

end Sys2Proof.Machine
end

