-- ==== Sys2Proof/Machine/Recorder.lean ====
section
/-! DEFINITION. The event recorder (chapter 14): records, the staging buffer, the event store. -/

namespace Sys2Proof.Machine

/-! ### Status fields -/

def recScanning (s : State) : Bool := bit Rec.REC_STATUS 3 s
def recClearing (s : State) : Bool := bit Rec.REC_STATUS 2 s
def recFrozen (s : State) : Bool := bit Rec.REC_STATUS 0 s
def recFlushing (s : State) : Bool := bit Rec.REC_STATUS 1 s
/-- R387, R388: each record is committed at once. -/
def recDirect (s : State) : Bool := bit Rec.REC_CTRL 0 s || bit Rec.REC_STATUS 5 s

/-- R387, R391, R393: may a commit begin: a record is staged, FREEZE is 0, no scan and no erase is
under way, and a flush or direct mode asks. -/
def mayStart (s : State) : Bool :=
  !s.rcd.staged.isEmpty && !bit Rec.REC_CTRL 1 s && !recScanning s && s.rcd.erase.isNone
    && (recDirect s || recFlushing s)

/-- R386: the commit of the oldest record begins where none is in progress. -/
def beginCommit (s : State) : State :=
  if s.rcd.commitFrom.isNone && mayStart s then
    updRcd (fun q => { q with commitFrom := some s.clk }) s
  else s

/-- R387: a flush starts. -/
def startFlush (s : State) : State :=
  let s := updRcd (fun q => { q with lastFlush := s.clk }) s
  beginCommit (if s.rcd.staged.isEmpty then s else setBit Rec.REC_STATUS 1 true s)

/-! ### Entering the staging buffer (R384, R387, R389) -/

/-- R383: WALL_FLAGS. -/
def wallFlags (s : State) : Nat :=
  fld Time.TIME_STATUS 3 3 s + 2 * fld Time.TIME_STATUS 4 4 s + 4 * fld Time.FT_STATUS 2 2 s
    + 256 * fld Time.TIME_STATUS 11 8 s

/-- R383: SOURCE. -/
def sourceOf (e : Ev) : Nat := e.sev + 16 * e.origin + 256 * (e.inst % 256)

/-- R384: the record of an event, as it enters; seq as given. -/
def stamp (e : Ev) (seq : Option Nat) (s : State) : StagedRec :=
  { seq := seq, uptime := uptime s, sec := nowSec s % 2 ^ 48, ns := nowNsec s,
    flags := wallFlags s, code := e.code, source := sourceOf e, payload := e.payload.take 28 }

/-- R384: a SEQ is taken, unless the start-up scan runs. -/
def takeSeq (s : State) : State :=
  if recScanning s then s else wr Rec.REC_NEXT_SEQ ((rd Rec.REC_NEXT_SEQ s + 1) % 2 ^ 64) s

/-- R387: a record of severity ERROR or above, or the buffer's level, starts a flush. -/
def flushIfDue (sev : Nat) (s : State) : State :=
  if sev ≥ 3 ∨ s.rcd.staged.length ≥ max 1 (fld Rec.REC_CTRL 15 8 s) then startFlush s else s

/-- A record takes its place at the tail of the buffer, which has room. -/
def stage (e : Ev) (s : State) : State :=
  let r := stamp e (if recScanning s then none else some (rd Rec.REC_NEXT_SEQ s)) s
  beginCommit (flushIfDue e.sev (updRcd (fun q => { q with staged := q.staged ++ [r] }) (takeSeq s)))

/-- R389: a record of a code is lost. -/
def loseRec (code : Nat) (s : State) : State :=
  let s := bump Rec.REC_LOST s
  let s := orReg Rec.REC_ERR 2 (orReg Rec.INT_STATUS 1 s)
  updRcd (fun q => { q with
      lost := q.lost + 1
      lostFirst := if q.lost = 0 then code else q.lostFirst
      lostLast := code }) s

/-- R384, R389: a record enters the buffer, or is lost when it holds 256. -/
def enterRec (e : Ev) (s : State) : State :=
  if s.rcd.staged.length < 256 then stage e s else loseRec e.code s

/-- R384: does a record of one clock enter before another: by CODE, then by INSTANCE. -/
def evBefore (a b : Ev) : Bool := a.code < b.code || (a.code == b.code && a.inst ≤ b.inst)

def evInsert (e : Ev) : List Ev → List Ev
  | [] => [e]
  | x :: t => if evBefore x e then x :: evInsert e t else e :: x :: t

/-- R384: the order in which records that arrive on one clock enter. -/
def evSort (es : List Ev) : List Ev := es.foldl (fun l e => evInsert e l) []

/-- R384: how many staged records entered on the present clock, by earlier commands. -/
def sameTurn (s : State) : Nat :=
  if s.rcd.enteredAt = s.clk then min s.rcd.entered s.rcd.staged.length else 0

def recBefore (a b : StagedRec) : Bool :=
  a.code < b.code || (a.code == b.code && a.source / 256 ≤ b.source / 256)

def recInsert (r : StagedRec) : List StagedRec → List StagedRec
  | [] => [r]
  | x :: t => if recBefore x r then x :: recInsert r t else r :: x :: t

/-- R384: records that entered on one clock, in their order; the numbers they took keep their places. -/
def regroup (g : List StagedRec) : List StagedRec :=
  List.zipWith (fun r q => { r with seq := q }) (g.foldl (fun l r => recInsert r l) [])
    (g.map StagedRec.seq)

/-- R384: the last n records of the buffer entered on the present clock, k of them by earlier
commands. -/
def noteTurn (k n : Nat) (s : State) : State :=
  let old := s.rcd.staged.length - n
  updRcd (fun q => { q with
      entered := n
      enteredAt := s.clk
      staged := if k = 0 then q.staged else q.staged.take old ++ regroup (q.staged.drop old) }) s

/-- The records a command created enter the buffer. -/
def settle (s : State) : State :=
  let t := forAll enterRec (evSort s.rcd.arriving) (updRcd (fun q => { q with arriving := [] }) s)
  let added := t.rcd.staged.length - s.rcd.staged.length
  if added = 0 then t else noteTurn (sameTurn s) (sameTurn s + added) t

/-! ### How a command ends -/

/-- The state a command leaves, at real time t, with the queue it was given. -/
def ended (t : Nat) (queue : List Instr) (s : State) : State :=
  { settle s with clk := t, pending := queue }

/-- A command that takes no time. -/
def atOnce (f : State → State) (s : State) : Host.Outcome State Fault Refusal :=
  .next (ended s.clk s.pending (f s))

/-- A command whose event lies at an instant the time first goes on to. -/
def timed (hop f : State → State) (s : State) : Host.Outcome State Fault Refusal :=
  .next (ended (max s.clk (hop s).clk) s.pending (f (hop s)))

/-! ### Committing (R386, R390) -/

/-- R383: the bytes of a record, MARK included. -/
def recBytes (r : StagedRec) : List Byte :=
  let head := p8 (r.seq.getD 0) ++ p8 r.uptime ++ leBytes 6 r.sec ++ p4 r.ns ++ p2 r.flags
    ++ p2 r.code ++ p2 r.source ++ r.payload ++ List.replicate (28 - r.payload.length) 0
  head ++ p2 (crc16 head) ++ p2 0xA55A

def storeSlots : Nat := 131072

/-- R390: the slot of the next commit. -/
def commitSlot (s : State) : Nat :=
  if rd Rec.REC_PERM_COUNT s < rd Rec.REC_PERM_ACT s then rd Rec.REC_PERM_COUNT s
  else rd Rec.REC_RING_HEAD s

/-- R390: the write position after a commit. -/
def advanceSlot (s : State) : State :=
  if rd Rec.REC_PERM_COUNT s < rd Rec.REC_PERM_ACT s then
    wr Rec.REC_PERM_COUNT (rd Rec.REC_PERM_COUNT s + 1) s
  else if rd Rec.REC_RING_HEAD s + 1 = storeSlots then
    setBit Rec.REC_STATUS 4 true (wr Rec.REC_RING_HEAD (rd Rec.REC_PERM_ACT s) s)
  else wr Rec.REC_RING_HEAD (rd Rec.REC_RING_HEAD s + 1) s

/-- R386, R390: a record is committed to its slot. -/
def commitRec (r : StagedRec) (s : State) : State :=
  let slot := commitSlot s
  let s := updRcd (fun q => { q with store := kset [] slot (recBytes r) q.store }) s
  let s := advanceSlot s
  let s := bump Rec.REC_COMMITS s
  if r.source % 8 ≥ 3 then orReg Rec.INT_STATUS 2 s else s

/-- R384: the records created from here on come after those that entered. -/
def closeTurn (s : State) : State := updRcd (fun q => { q with entered := 0 }) s

/-- R389: space has appeared: EVENTS_LOST enters first. -/
def enterLost (s : State) : State :=
  if s.rcd.lost = 0 then s
  else
    let p := p4 (min s.rcd.lost 0xFFFFFFFF) ++ p2 s.rcd.lostFirst ++ p2 s.rcd.lostLast
    let s := updRcd (fun q => { q with lost := 0, lostFirst := 0, lostLast := 0 }) s
    closeTurn (stage ⟨0x0C02, severityOf 0x0C02, 0, noInst, p⟩ s)

/-- R391 step 2: REC_CLEARED is created, and the erase of 78.6 ms starts. -/
def createCleared (n origin : Nat) (s : State) : State :=
  let last := (rd Rec.REC_NEXT_SEQ s + 2 ^ 64 - 1) % 2 ^ 64
  let s := updRcd (fun q => { q with
      clearing := none
      erase := some (s.clk + 786432000, n) }) s
  closeTurn (stage ⟨0x0C01, severityOf 0x0C01, 0, noInst, p8 last ++ p4 n ++ p1 origin⟩ s)

/-- The buffer is empty: the flush ends (R387), and a clear goes on to its step 2 (R391). -/
def flushEnds (s : State) : State :=
  let s := setBit Rec.REC_STATUS 1 false s
  match s.rcd.clearing with
  | none => s
  | some (n, origin) => createCleared n origin s

/-- R393: with FREEZE set, FROZEN reads 1 once no commit is in progress. -/
def freezeIfDue (s : State) : State :=
  if bit Rec.REC_CTRL 1 s && s.rcd.commitFrom.isNone then setBit Rec.REC_STATUS 0 true s else s

/-- The oldest staged record is committed, and the commit of the next begins. -/
def commitOldest (s : State) : State :=
  match s.rcd.staged with
  | [] => s
  | r :: t =>
    let s := commitRec r (updRcd (fun q => { q with staged := t, commitFrom := none }) s)
    let s := freezeIfDue (enterLost s)
    beginCommit (if s.rcd.staged.isEmpty then flushEnds s else s)

/-- n commits of 1.8 us each. -/
def commitN : Nat → State → State
  | 0, s => s
  | n + 1, s => commitN n (commitOldest s)

/-- R386: how long a commit takes, in 0.1 ns. -/
def commitTime : Nat := 18000

/-- The whole buffer is committed (R388). -/
def commitAll (s : State) : State := commitN (s.rcd.staged.length + 1) s

/-- A commit is in progress. -/
def mayCommit (s : State) : Bool := s.rcd.commitFrom.isSome && !s.rcd.staged.isEmpty

/-- R393: FREEZE is released and a flush starts. -/
def unfreeze (s : State) : State :=
  startFlush (setBit Rec.REC_STATUS 0 false (setBit Rec.REC_CTRL 1 false s))

/-- R388: a power-fail warning forces direct mode, releases FREEZE and flushes. -/
def forceDirect (s : State) : State := unfreeze (setBit Rec.REC_STATUS 5 true s)

/-- R391: MARK of a slot is 0x0000; its other bytes stay. -/
def unmark (b : List Byte) : List Byte := b.take 62 ++ [0, 0]

/-- R391 step 4: the erase ends: N takes effect, and REC_CLEARED and the waiting records are
committed, unless FREEZE was set meanwhile (DEDUCED, log entry 98). -/
def finishErase (n : Nat) (s : State) : State :=
  let s := updRcd (fun q => { q with
      erase := none
      store := q.store.map fun p => (p.1, unmark p.2) }) s
  let s := wr Rec.REC_PERM_ACT n (wr Rec.REC_PERM_COUNT 0 (wr Rec.REC_RING_HEAD n s))
  let s := setBit Rec.REC_STATUS 4 false (setBit Rec.REC_STATUS 2 false s)
  let s := orReg Rec.INT_STATUS 4 s
  startFlush { s with upd := { s.upd with cur := { s.upd.cur with
      recN := n, clearCount := s.upd.cur.clearCount + 1 }, urgent := true } }

/-! ### Reading the store (R392) -/

/-- R385, R392: a slot's MARK. -/
def slotMark (b : List Byte) : Nat := leNat ((b.drop 62).take 2)
def slotCommitted (b : List Byte) : Bool := slotMark b == 0xA55A
/-- R392: MARK and CHECK are right. -/
def slotValid (b : List Byte) : Bool :=
  slotCommitted b && leNat ((b.drop 60).take 2) == crc16 (b.take 60)

/-- R392: 0 ABSENT, 1 VALID, 2 CORRUPT. -/
def slotState (b : List Byte) : Nat :=
  if !slotCommitted b then 0 else if slotValid b then 1 else 2

/-- The 16 words of a slot are put where a read finds them. -/
def putReadData (b : List Byte) (s : State) : State :=
  upTo 16 (fun i s => wr (Rec.REC_READ_DATA i) (leNat ((b.drop (4 * i)).take 4)) s) s

/-! ### Loss of power (R386, R391) -/

/-- R386, R392: a slot is being committed. -/
def beingCommitted (idx : Nat) (s : State) : Bool := mayCommit s && commitSlot s == idx

/-- 64 bytes that nothing fixes. -/
def freeSlot : Nat → State → List Byte × State
  | 0, s => ([], s)
  | n + 1, s =>
    let (x, s) := fresh s
    let (bs, s) := freeSlot n s
    (p8 x.toNat ++ bs, s)

/-- R386: a commit cut short leaves its slot without MARK, its other bytes free values. -/
def cutCommit (s : State) : State :=
  if mayCommit s then
    let (b, s) := freeSlot 8 s
    updRcd (fun q => { q with store := kset [] (commitSlot s) (unmark b) q.store }) s
  else s

/-- R391: an erase cut short has reached the MARK of some slots, by free values
(DEDUCED, log entry 21). -/
def cutErase (s : State) : State :=
  if s.rcd.erase.isSome then
    forAll (fun p s =>
      let (x, s) := fresh s
      if x.getLsbD 0 then updRcd (fun q => { q with store := kset [] p.1 (unmark p.2) q.store }) s else s)
      s.rcd.store s
  else s

/-! ### The commands -/

/-- RECORD_ENTER (R384, R389): an event record reaches the recorder.  Events of the block's own
commands enter as those commands end; this is the step itself, for an event of given code,
origin, INSTANCE and payload. -/
def execRecordEnter (code sev origin inst : Nat) (payload : List Byte) (s : State) :
    Host.Outcome State Fault Refusal :=
  atOnce (updRcd fun q => { q with arriving := q.arriving ++ [⟨code, sev, origin, inst, payload⟩] }) s

/-- RECORD_COMMIT (R386): the oldest record's three MRAM writes complete, 1.8 us after they began. -/
def execRecordCommit (s : State) : Host.Outcome State Fault Refusal :=
  if mayCommit s then
    timed (fun s => hopClk (s.rcd.commitFrom.getD s.clk + commitTime) s) commitOldest s
  else atOnce id s

/-- FLUSH_TIMER (R387): FLUSH_MS have passed since the last flush. -/
def execFlushTimer (s : State) : Host.Outcome State Fault Refusal :=
  if recDirect s then atOnce id s
  else timed (fun s => hopClk (s.rcd.lastFlush + realNs (fld Rec.REC_CTRL 31 16 s * 1000000)) s)
    startFlush s

/-- REC_FLUSH (R387); while one is under way a further 1 has no effect (R9). -/
def recFlush (s : State) : State := if recFlushing s then s else startFlush s
def execRecFlush (s : State) : Host.Outcome State Fault Refusal := atOnce recFlush s

/-- REC_CLEAR (R391): with the right key and the recorder ready for it, the staged records are
flushed; then, or at once where none is staged, REC_CLEARED is created and the erase starts. -/
def recClear (who : Req) (key : Nat) (s : State) : State :=
  if key ≠ 0xC1EA ∨ bit Rec.REC_CTRL 1 s ∨ recClearing s ∨ recScanning s then
    orReg Rec.REC_ERR 1 s
  else
    let n := rd Rec.REC_PERM_CFG s
    let origin := match who with | .host => 2 | .renro => 1
    let s := setBit Rec.REC_STATUS 2 true s
    if s.rcd.staged.isEmpty then createCleared n origin s
    else startFlush (updRcd (fun q => { q with clearing := some (n, origin) }) s)

def execRecClear (who : Req) (key : BitVec 16) (s : State) : Host.Outcome State Fault Refusal :=
  atOnce (recClear who key.toNat) s

/-- CLEAR_DONE (R391). -/
def execClearDone (s : State) : Host.Outcome State Fault Refusal :=
  match s.rcd.erase with
  | none => atOnce id s
  | some (t, n) => timed (hopClk t) (finishErase n) s

/-- REC_DIRECT_WRITE (R387): setting DIRECT starts a flush. -/
def recDirectWrite (v : Bool) (s : State) : State :=
  let was := bit Rec.REC_CTRL 0 s
  let s := setBit Rec.REC_CTRL 0 v s
  if v && !was then startFlush s else s
def execRecDirectWrite (v : Bool) (s : State) : Host.Outcome State Fault Refusal :=
  atOnce (recDirectWrite v) s

/-- REC_FREEZE (R393): setting FREEZE stops commits once the one in progress completes; clearing it
starts a flush. -/
def recFreeze (v : Bool) (s : State) : State :=
  let was := bit Rec.REC_CTRL 1 s
  if v && !was then
    updRcd (fun q => { q with frozenAt := s.clk }) (freezeIfDue (setBit Rec.REC_CTRL 1 true s))
  else if !v && was then unfreeze s
  else s
def execRecFreeze (v : Bool) (s : State) : Host.Outcome State Fault Refusal :=
  atOnce (recFreeze v) s

/-- REC_FREEZE_TIMEOUT (R393): FREEZE held for 60 s is released. -/
def execRecFreezeTimeout (s : State) : Host.Outcome State Fault Refusal :=
  if bit Rec.REC_CTRL 1 s then
    timed (fun s => hopClk (s.rcd.frozenAt + realNs oneMinute) s)
      (fun s => logEv 0x0C05 noInst [] (unfreeze s)) s
  else atOnce id s

/-- REC_READ (R392): a slot is read.  A slot that is being committed returns ABSENT, with bytes that
are free values.  While the store is being erased (R391), a slot whose MARK the erase may or may not
have reached reads by a free value (DEDUCED, log entry 21). -/
def recRead (idx : Nat) (s : State) : State :=
  let s := wr Rec.REC_READ_IDX idx s
  if beingCommitted idx s then
    let (b, s) := freeSlot 8 s
    putReadData b (wr Rec.REC_READ_STATE (2 ^ 31) s)
  else
    let b := kget [] idx s.rcd.store
    let (f, s) := if s.rcd.erase.isSome then fresh s else (0, s)
    let st := if f.getLsbD 0 then 0 else slotState b
    let s := putReadData b (wr Rec.REC_READ_STATE (st + 2 ^ 31) s)
    if st = 2 then orReg Rec.REC_ERR 4 (bump Rec.REC_CORRUPT s) else s
def execRecRead (idx : BitVec 17) (s : State) : Host.Outcome State Fault Refusal :=
  atOnce (recRead idx.toNat) s

/-- R385: the slot and SEQ of the valid record with the highest SEQ, among slots lo and above. -/
def highestValid (lo : Nat) (m : KMap (List Byte)) : Option (Nat × Nat) :=
  m.foldl (fun acc p =>
    if p.1 < lo ∨ ¬ slotValid p.2 then acc
    else match acc with
      | none => some (leNat (p.2.take 8), p.1)
      | some (q, _) => if q ≤ leNat (p.2.take 8) then some (leNat (p.2.take 8), p.1) else acc) none

/-- R385: the number of committed slots from slot 0 upward, below n. -/
def permCount (n : Nat) (m : KMap (List Byte)) : Nat :=
  go m 0
where
  go : KMap (List Byte) → Nat → Nat
    | [], k => k
    | (i, b) :: t, k => if i = k ∧ k < n ∧ slotCommitted b then go t (k + 1) else k

/-- R384: the records that wait take their numbers. -/
def numberFrom : Nat → List StagedRec → List StagedRec
  | _, [] => []
  | q, r :: t => { r with seq := some (q % 2 ^ 64) } :: numberFrom (q + 1) t

/-- REC_SCAN_DONE (R384, R385): the scan restores SEQ and the write position, REC_BOOT is created
first, and the records that waited are numbered after it; the 256th of a full buffer gives its place
to REC_BOOT and is lost (DEDUCED, log entry 98). -/
def recScanDone (s : State) : State :=
  if !recScanning s then s
  else
    let m := s.rcd.store
    let n := s.upd.cur.recN
    let perm := permCount n m
    let top := highestValid 0 m
    let ring := if perm < n then none else highestValid n m
    let head := match ring with
      | none => n
      | some (_, k) => if k + 1 = storeSlots then n else k + 1
    let wrapped := perm == n && m.any fun p => head ≤ p.1 && slotCommitted p.2
    let next := match top with | none => 0 | some (q, _) => (q + 1) % 2 ^ 64
    let found := match top with | none => 2 ^ 64 - 1 | some (q, _) => q
    let bad := m.filter fun p => slotState p.2 == 2
    let s := wr Rec.REC_PERM_ACT n (wr Rec.REC_PERM_COUNT perm (wr Rec.REC_RING_HEAD head s))
    let s := setBit Rec.REC_STATUS 3 false (setBit Rec.REC_STATUS 4 wrapped s)
    let boot := stamp ⟨0x0C04, severityOf 0x0C04, 0, noInst, p8 found ++ p4 head ++ p1 (b2n wrapped)⟩
      (some next) s
    let waiting := s.rcd.staged.take 255
    let s := forAll (fun r s => loseRec r.code s) (s.rcd.staged.drop 255) s
    let s := updRcd (fun q => { q with staged := boot :: numberFrom (next + 1) waiting }) s
    let s := wr Rec.REC_NEXT_SEQ ((next + 1 + waiting.length) % 2 ^ 64) s
    let s := beginCommit (flushIfDue 1 (closeTurn s))
    let s := orReg Rec.INT_STATUS 8 (bumpBy Rec.REC_CORRUPT bad.length s)
    match bad with
    | [] => s
    | p :: _ => logEv 0x0C03 noInst (p4 bad.length ++ p4 p.1) (orReg Rec.REC_ERR 4 s)
def execRecScanDone (s : State) : Host.Outcome State Fault Refusal := atOnce recScanDone s

/-- HOST_LOG_SUBMIT (R395): a host record, or CFG_REJ. -/
def hostLogSubmit (s : State) : State :=
  let code := fld Rec.HOST_LOG_CODE 15 0 s
  let sev := fld Rec.HOST_LOG_CODE 18 16 s
  if code < 0x0D80 ∨ 0x0DFF < code ∨ sev < 1 ∨ 3 < sev then orReg Rec.REC_ERR 1 s
  else
    let p := (List.range 7).flatMap fun i => p4 (rd (Rec.HOST_LOG_PAYLOAD i) s)
    updRcd (fun q => { q with arriving := q.arriving ++
        [⟨code, sev, 2, fld Rec.HOST_LOG_CODE 31 24 s, p⟩] }) s
def execHostLogSubmit (s : State) : Host.Outcome State Fault Refusal := atOnce hostLogSubmit s

end Sys2Proof.Machine
end

