-- ==== Sys2Proof/Machine/Guards.lean ====
section
/-! DEFINITION. What runs and what does not: cores, ports and blocks in the states that stop them. -/

namespace Sys2Proof.Machine

/-- R467, R469: everything is shed after a power-fail warning, or off. -/
def shed (s : State) : Bool := s.power.warnAt.isSome || s.power.off

/-- R432: the fatal sequence is running: contexts are frozen, dispatch has stopped. -/
def frozen (s : State) : Bool := s.boot.fatalStep ≠ 0

/-- R447: the pause of a live activation. -/
def activationPaused (s : State) : Bool :=
  match s.upd.act with
  | some a => a.paused
  | none => false

/-- Do the cue cores and the schedulers run. -/
def coresOn (s : State) : Bool := !shed s && !frozen s

/-- What a slice does by itself: nothing while it is frozen or shed (R432, R467). -/
def onCores (f : State → State) (s : State) : State := if coresOn s then f s else s

/-- R414: the blocks of the slices run from start-up step 4. -/
def slicesOn (s : State) : Bool := 4 ≤ fld Sys.BOOT_STAGE 3 0 s

/-- R414: a host access to a slice's block before it runs is dropped. -/
def landing (who : Req) (inSlice : Bool) (f : State → State) (s : State) : State :=
  match who with
  | .renro => f s
  | .host => if inSlice && !slicesOn s then orReg Hst.HOST_ERR 2 s else f s

/-! ### Holding registers (R6) -/

/-- R6: the key of a requester's holding register. -/
def holdKey (who : Req) (a : Nat) : Nat := 2 * a + match who with | .host => 0 | .renro => 1

def heldLow (who : Req) (a : Nat) (s : State) : Option Nat := kget none (holdKey who a) s.heldLow
def setHeldLow (who : Req) (a : Nat) (v : Option Nat) (s : State) : State :=
  { s with heldLow := kset none (holdKey who a) v s.heldLow }

/-- R6: a write latches the whole of a 64-bit register: what its requester held for the low half
is used up. -/
def latching (who : Req) (r : Reg) (f : State → State) (s : State) : State :=
  f (setHeldLow who r.addr none s)

end Sys2Proof.Machine
end

