-- ==== Sys2Proof/Machine/Lines.lean ====
section
/-! DEFINITION. The scheduler's event lines (R165): what a rising edge does, whatever raised it. -/

namespace Sys2Proof.Machine

/-- R134, R321: a wait that ended on this clock, and after which its context has issued nothing. -/
def stillWoke (k : Nat) (s : State) : Option Woke :=
  let c := ctxAt k s
  (kget none k s.woke).filter fun w =>
    w.clk == s.clk && w.dispatchNo == c.dispatchNo && w.icount == c.icount && c.st == .ready

/-- A wait ended: the context was c and is now d. -/
def noteWoke (k mask got rd : Nat) (c d : Ctx) (s : State) : State :=
  { s with woke := kset none k (some ⟨s.clk, d.dispatchNo, d.icount, mask, rd, got, c⟩) s.woke }

/-- R134: an edge on selected lines completes a wait.ev; g[rd] takes the selected lines that rise on
that clock, those that other commands of the clock bring with them. -/
def wakeOnLines (k mask : Nat) (s : State) : State :=
  let c := ctxAt k s
  match c.st, c.wait with
  | .waiting, some w =>
    if w.ev ∧ w.mask &&& mask ≠ 0 then
      let got := w.mask &&& mask
      let d := (({ c with st := .ready, wait := none }).setG w.rd (BitVec.ofNat 64 got)).retire 4
      setCtx k d (noteWoke k w.mask got w.rd c d s)
    else s
  | _, _ =>
    match stillWoke k s with
    | some w =>
      let got := w.got ||| (w.mask &&& mask)
      if got = w.got then s
      else setCtx k (c.setG w.rd (BitVec.ofNat 64 got))
        { s with woke := kset none k (some { w with got := got }) s.woke }
    | none => s

/-- R11, R166: an edge on the line of an enabled entry is pending, or lost. -/
def etsEdge (sl mask e : Nat) (s : State) : State :=
  if bit (Sched.ETS_CTL sl e) 0 s ∧ mask.testBit (fld (Sched.ETS_CFG sl e) 5 0 s) then
    let limit := max 1 (fld (Sched.ETS_CTL sl e) 15 8 s)
    let pend := fld (Sched.ETS_STATUS sl e) 7 0 s
    if pend < limit then
      wr (Sched.ETS_SEQ sl e) (min (rd (Sched.ETS_SEQ sl e) s + 1) (2 ^ 64 - 1))
        (setFld (Sched.ETS_STATUS sl e) 7 0 (pend + 1) s)
    else
      let lost := min (fld (Sched.ETS_STATUS sl e) 31 8 s + 1) 0xFFFFFF
      let s := orReg (Sched.SCHED_ERR sl) 0x10 (setFld (Sched.ETS_STATUS sl e) 31 8 lost s)
      let (ok, _, s) := askWindow (winKey 0x0402 sl e) oneSecond 1 s
      if ok then logEv 0x0402 sl (p1 e ++ p4 lost) s else s
  else s

/-- R192: an edge on a channel's TRIG_LINE with TRIG_EN is kept for the channel to act on. -/
def dmaEdge (k mask : Nat) (s : State) : State :=
  if bit (Dma.CH_CTRL k) 14 s ∧ mask.testBit (fld (Dma.CH_CTRL k) 13 8 s) then
    updChan k (fun c => { c with edge := true }) s
  else s

/-- R135, R281, R296: the lines of a slice that have already risen on this clock. -/
def risen (sl : Nat) (s : State) : Nat :=
  let q := kget (0, 0) sl s.edges
  if q.1 = s.clk then q.2 else 0

/-- R165: rising edges on the lines of a mask of slice sl, on one clock: a line that has risen on
that clock gives no second edge (R135). -/
def lineEdges (sl mask : Nat) (s : State) : State :=
  let old := risen sl s
  let new := mask ^^^ (mask &&& old)
  let s := { s with edges := kset (0, 0) sl (s.clk, old ||| mask) s.edges }
  let s := orReg (Sched.EV_SEEN sl) mask s
  let s := upTo 32 (fun i s => wakeOnLines (32 * sl + i) mask s) s
  let s := upTo 32 (fun e s => etsEdge sl new e s) s
  upTo 16 (fun c s => dmaEdge (16 * sl + c) new s) s

def lineEdge (sl line : Nat) (s : State) : State := lineEdges sl (2 ^ line) s

/-- A line of every slice. -/
def lineEdgeAll (line : Nat) (s : State) : State := upTo 4 (fun sl s => lineEdge sl line s) s

/-- A line of the slices of a mask. -/
def lineEdgeMask (slices line : Nat) (s : State) : State :=
  forAll (fun sl s => lineEdge sl line s) (bitList 4 slices) s

/-- EVENT_LINE_EDGE (R165, R166): a rising edge of a line reaches the scheduler; line 47 is never
raised. -/
def execEventLineEdge (sl : Fin 4) (line : Fin 64) (s : State) : Host.Outcome State Fault Refusal :=
  atOnce (fun s => if line = 47 then s else lineEdge sl.val line.val s) s

end Sys2Proof.Machine
end

