-- ==== Sys2Proof/Machine/Mem.lean ====
section
/-! DEFINITION. DRAM and its ECC (R172 to R176), table walks and translation (R177 to R181),
IOMMU streams (R183 to R185), fault queues (R186, R187). -/

namespace Sys2Proof.Machine

/-! ### Physical memory -/

/-- R18: the DRAM of the four slices. -/
def dramEnd : Nat := 0x800000000
def isDram (a n : Nat) : Bool := a + n ≤ dramEnd
/-- R22: the slice whose controllers serve a DRAM address. -/
def dramSlice (a : Nat) : Nat := a / 0x200000000 % 4

/-- A byte of DRAM; a byte nothing has written reads 0 (DESIGN CHOICE, log entry 3). -/
def memByte (a : Nat) (s : State) : Byte := kget 0 a s.dram
def memBytes (a : Nat) : Nat → State → List Byte
  | 0, _ => []
  | n + 1, s => memByte a s :: memBytes (a + 1) n s
def memNat (a n : Nat) (s : State) : Nat := leNat (memBytes a n s)

/-- DRAM in canonical form: addresses strictly rising, no listed byte that reads as an unlisted one. -/
abbrev Memory.wf (m : KMap Byte) : Prop := KWf 0 m

def putByte (a : Nat) (b : Byte) (s : State) : State := { s with dram := kset 0 a b s.dram }
def putBytes : Nat → List Byte → State → State
  | _, [], s => s
  | a, b :: t, s => putBytes (a + 1) t (putByte a b s)

def linePoisoned (line : Nat) (s : State) : Bool := kget false line s.poison
/-- The 64-byte lines bytes a .. a+n-1 touch. -/
def linesOf (a n : Nat) : List Nat :=
  if n = 0 then [] else (List.range ((a + n - 1) / 64 - a / 64 + 1)).map (a / 64 + ·)
/-- R175: does an access meet a poisoned line. -/
def poisoned (a n : Nat) (s : State) : Bool := (linesOf a n).any fun l => linePoisoned l s

/-- R174, R175: bytes written in one line: a full line clears poison; less than a full line into a
poisoned line is dropped. -/
def writeLine (a : Nat) (bs : List Byte) (s : State) : State :=
  if linePoisoned (a / 64) s then
    if a % 64 = 0 ∧ bs.length = 64 then
      putBytes a bs { s with poison := kset false (a / 64) false s.poison }
    else s
  else putBytes a bs s

/-- A write to DRAM, line by line. -/
def writeMem (a : Nat) (bs : List Byte) (s : State) : State :=
  forAll (fun l s =>
    let lo := max a (64 * l)
    let hi := min (a + bs.length) (64 * l + 64)
    writeLine lo ((bs.drop (lo - a)).take (hi - lo)) s) (linesOf a bs.length) s

/-- R174, R201: who meets an error: MC_LAST_INFO.REQ and REQ_ID. -/
structure Requester where
  kind : Nat
  id : Nat

/-- R174: the controller notes an error at a. -/
def noteError (ue : Bool) (a : Nat) (q : Requester) (s : State) : State :=
  let t := dramSlice a
  wr (Mc.MC_LAST_INFO t) (b2n ue + 2 * (a / 256 % 2) + 256 * q.kind + 65536 * (q.id % 65536))
    (wr (Mc.MC_LAST_ADDR t) a s)

/-- R174: an error found at a, corrected or not.  A line already poisoned is no new detection. -/
def foundError (ue : Bool) (a : Nat) (q : Requester) (s : State) : State :=
  let t := dramSlice a
  if linePoisoned (a / 64) s then s
  else if ue then
    let s := { s with poison := kset false (a / 64) true s.poison }
    let s := orReg (Mmu.INT_STATUS t) 8 (bump (Mc.MC_UE_COUNT t) (noteError true a q s))
    logEv 0x0502 t (p8 a ++ p1 q.kind) s
  else
    let s := orReg (Mmu.INT_STATUS t) 4 (bump (Mc.MC_CE_COUNT t) (noteError false a q s))
    logPerCounted 0x0501 t oneSecond (fun k => p4 k ++ p8 a) s

/-- R174: what an access to a finds, as its command says: in the line of a, or flipped bits that the
next access of their lines meets. -/
def eccEvent (e : Ecc) (a : Nat) (q : Requester) (s : State) : State :=
  match e with
  | .clean => s
  | .corrected => foundError false a q s
  | .uncorrectable => foundError true a q s
  | .flips ls => { s with
      latent := forAll (fun p m => kset 0 p.1.toNat (if p.2 then 2 else 1) m) ls s.latent }

/-- R174: an access to a line finds the error that no access has met yet. -/
def meetLine (q : Requester) (l : Nat) (s : State) : State :=
  match kget 0 l s.latent with
  | 0 => s
  | e => foundError (2 ≤ e) (64 * l) q { s with latent := kset 0 l 0 s.latent }

/-- R174: an access reads the lines of n bytes at a. -/
def meet (q : Requester) (a n : Nat) (s : State) : State :=
  if s.latent = [] then s else forAll (meetLine q) (linesOf a n) s

/-- No access to these lines finds an error: none is poisoned, none has flipped bits. -/
def sound (a n : Nat) (s : State) : Bool :=
  (linesOf a n).all fun l => !linePoisoned l s && kget 0 l s.latent == 0

/-- R173, R174: a write by a requester: a line written in part is read first; a line written whole
is replaced, with whatever stood in it. -/
def writeBy (q : Requester) (a : Nat) (bs : List Byte) (s : State) : State :=
  let whole (l : Nat) : Bool := a ≤ 64 * l && 64 * l + 64 ≤ a + bs.length
  let s := if s.latent = [] then s else
    forAll (fun l s => if whole l then { s with latent := kset 0 l 0 s.latent } else meetLine q l s)
      (linesOf a bs.length) s
  writeMem a bs s

/-- R201: a core, or the save engine, as a requester: REQ 3 where another slice owns the address. -/
def cueReq (kind k a : Nat) : Requester :=
  ⟨if dramSlice a = ctxSlice k then kind else 3, ctxCore k + 8 * (k % 4)⟩
def coreReq (k a : Nat) : Requester := cueReq 0 k a
def saveReq (k a : Nat) : Requester := cueReq 5 k a

/-! ### Table walks (R177 to R179) -/

/-- R85: fault kinds. -/
def kNotMapped : Nat := 0
def kPermission : Nat := 1
def kDecode : Nat := 2
def kEcc : Nat := 3

inductive Walk
  /-- the translation, and the address this very access goes to -/
  | leaf (e : TlbEntry) (own : Nat)
  | fault (kind : Nat)
  /-- a table address outside DRAM -/
  | hole (a : Nat)
  | malformed (level : Nat)

/-- A table entry at a physical address: none where it is no DRAM; poison is a walk fault. -/
inductive Pte
  | word (w : Nat) | decode | ecc

def readPte (a : Nat) (s : State) : Pte :=
  if !isDram a 8 then .decode else if poisoned a 8 s then .ecc else .word (memNat a 8 s)

/-- R178, R179: is an entry with V = 1 malformed at its level. -/
def pteBad (level w : Nat) : Bool :=
  let table := w.testBit 1
  bitsOf w 11 7 ≠ 0 || bitsOf w 63 40 ≠ 0
    || (if level < 2 then !table else if level = 3 then table else false)
    || (level < 3 && w.testBit 5)
    || (w.testBit 3 && !w.testBit 2) || (w.testBit 3 && w.testBit 4)
    || (level = 2 && !table && bitsOf w 20 12 ≠ 0)

/-- The translation a leaf gives. -/
def leafEntry (asid va level w : Nat) : TlbEntry :=
  let pa := bitsOf w 39 12 * 4096
  let size := if level = 2 then 0x200000 else if w.testBit 5 then 0x10000 else 0x1000
  { asid := asid, glob := w.testBit 6, va := va / size * size, size := size,
    pa := if w.testBit 5 then pa / 0x10000 * 0x10000 else pa,
    r := w.testBit 2, w := w.testBit 3, x := w.testBit 4 }

/-- R177: an access that walks uses its own leaf's PA, whatever the other leaves of its group say. -/
def leafOwn (va level w : Nat) : Nat :=
  bitsOf w 39 12 * 4096 + va % (if level = 2 then 0x200000 else 0x1000)

/-- Levels from `level` on; `n` levels are left. -/
def walkFrom : Nat → Nat → Nat → Nat → Nat → State → Walk
  | 0, _, _, _, _, _ => .fault kNotMapped
  | n + 1, level, asid, table, va, s =>
    let at_ := table + va / 2 ^ (39 - 9 * level) % 512 * 8
    match readPte at_ s with
    | .decode => .hole at_
    | .ecc => .fault kEcc
    | .word w =>
      if !w.testBit 0 then .fault kNotMapped
      else if pteBad level w then .malformed level
      else if level = 3 ∨ (level = 2 ∧ !w.testBit 1) then .leaf (leafEntry asid va level w) (leafOwn va level w)
      else walkFrom n (level + 1) asid (bitsOf w 39 12 * 4096) va s

/-- R177: the walk of a virtual address in translator block t (0 to 3 MMUs, 4 IOMMU). -/
def walk (t asid va : Nat) (s : State) : Walk :=
  let at_ := bitsOf (rd (Mmu.ASID_TABLE_BASE t) s) 39 12 * 4096 + asid * 8
  match readPte at_ s with
  | .decode => .hole at_
  | .ecc => .fault kEcc
  | .word w =>
    if !w.testBit 0 then .fault kNotMapped
    else if bitsOf w 11 1 ≠ 0 ∨ bitsOf w 63 40 ≠ 0 then .malformed 4
    else walkFrom 4 0 asid (bitsOf w 39 12 * 4096) va s

/-! ### Translators (R180, R181) -/

/-- What an access needs (R179). -/
inductive Acc
  | read | write | atomic | fetch
  deriving DecidableEq, Repr

def TlbEntry.allows (e : TlbEntry) : Acc → Bool
  | .read => e.r
  | .write => e.w
  | .atomic => e.r && e.w
  | .fetch => e.x

def TlbEntry.covers (e : TlbEntry) (asid va : Nat) : Bool :=
  (e.glob || e.asid == asid) && e.va ≤ va && va < e.va + e.size

def TlbEntry.target (e : TlbEntry) (va : Nat) : Nat := e.pa + (va - e.va)

/-! ### Walks and their caches (R180) -/

/-- Translators 0 to 31 are the cores; 32 is the IOMMU.  The block of registers of each. -/
def tlbBlock (t : Nat) : Nat := if t < 32 then t / 8 else 4

def walkCacheAt (t : Nat) (s : State) : List WalkEntry := kget [] t s.walkCache
def setWalkCache (t : Nat) (l : List WalkEntry) (s : State) : State :=
  { s with walkCache := kset [] t l s.walkCache }

/-- R180: the entries translator t can hold: 32, 64 and 512 of a core's three TLBs, taken together
(DESIGN CHOICE, log entry 100), 1,024 of the IOMMU; and in its walk cache. -/
def tlbCap (t : Nat) : Nat := if t < 32 then 608 else 1024
def walkCap (t : Nat) : Nat := if t < 32 then 64 else 128

/-- The bits of an address that index the levels down to this one. -/
def levelTag (va level : Nat) : Nat := va / 2 ^ (39 - 9 * level)

/-- The entries of levels 0 to 2 that a walk from a table passes. -/
def walkTables : Nat → Nat → Nat → Nat → Nat → State → List WalkEntry
  | 0, _, _, _, _, _ => []
  | n + 1, level, asid, table, va, s =>
    let w := memNat (table + va / 2 ^ (39 - 9 * level) % 512 * 8) 8 s
    if level < 3 ∧ w.testBit 0 ∧ w.testBit 1 then
      let next := bitsOf w 39 12 * 4096
      ⟨asid, level, levelTag va level, next⟩ :: walkTables n (level + 1) asid next va s
    else []

/-- The level-0 table that block t names for an ASID. -/
def asidRoot (t asid : Nat) (s : State) : Nat :=
  bitsOf (memNat (bitsOf (rd (Mmu.ASID_TABLE_BASE t) s) 39 12 * 4096 + asid * 8) 8 s) 39 12 * 4096

/-- The entry a walk starts from: the deepest its cache holds; where that no longer agrees with the
tables, whether it is still held is a free value (R182; DEDUCED, log entry 22). -/
def walkStart (t asid va : Nat) (s : State) : Option WalkEntry × State :=
  let has (level : Nat) := (walkCacheAt t s).find? fun e =>
    e.asid == asid && e.level == level && e.tag == levelTag va level
  match (has 2).or ((has 1).or (has 0)) with
  | none => (none, s)
  | some e =>
    if (walkTables 4 0 asid (asidRoot (tlbBlock t) asid s) va s).contains e then (some e, s)
    else
      let (f, s) := fresh s
      if f.getLsbD 0 then (some e, s)
      else (none, setWalkCache t ((walkCacheAt t s).filter (· ≠ e)) s)

/-- R174: what the table reads of a walk meet, from a level on. -/
def meetTables (q : Nat → Requester) : Nat → Nat → Nat → Nat → State → State
  | 0, _, _, _, s => s
  | n + 1, level, table, va, s =>
    let at_ := table + va / 2 ^ (39 - 9 * level) % 512 * 8
    let s := meet (q at_) at_ 8 s
    match readPte at_ s with
    | .word w =>
      if level < 3 ∧ w.testBit 0 ∧ w.testBit 1 then
        meetTables q n (level + 1) (bitsOf w 39 12 * 4096) va s
      else s
    | _ => s

def meetWalk (q : Nat → Requester) (t asid va : Nat) (s : State) : State :=
  let at_ := bitsOf (rd (Mmu.ASID_TABLE_BASE t) s) 39 12 * 4096 + asid * 8
  let s := meet (q at_) at_ 8 s
  match readPte at_ s with
  | .word w => if w.testBit 0 then meetTables q 4 0 (bitsOf w 39 12 * 4096) va s else s
  | _ => s

/-- The walk of translator t that its walk cache may shorten, and the entries it leaves there. -/
def cachedWalk (t : Nat) (q : Nat → Requester) (asid va : Nat) (s : State) : Walk × List WalkEntry × State :=
  match walkStart t asid va s with
  | (some e, s) =>
    let s := meetTables q (3 - e.level) (e.level + 1) e.table va s
    (walkFrom (3 - e.level) (e.level + 1) asid e.table va s,
      walkTables (3 - e.level) (e.level + 1) asid e.table va s, s)
  | (none, s) =>
    let s := meetWalk q (tlbBlock t) asid va s
    (walk (tlbBlock t) asid va s, walkTables 4 0 asid (asidRoot (tlbBlock t) asid s) va s, s)

/-- The result of a translation. -/
inductive Trans
  | pa (a : Nat)
  | fault (kind : Nat)
  deriving DecidableEq, Repr

def checkEntry (e : TlbEntry) (acc : Acc) (va : Nat) : Trans :=
  if !e.allows acc then .fault kPermission
  else if !isDram (e.target va) 1 then .fault kDecode
  else .pa (e.target va)

def tlbAt (t : Nat) (s : State) : List TlbEntry := kget [] t s.tlb
def setTlb (t : Nat) (l : List TlbEntry) (s : State) : State := { s with tlb := kset [] t l s.tlb }

/-- R181: a malformed entry, noted and logged. -/
def noteMalformed (t asid va level : Nat) (s : State) : State :=
  let b := tlbBlock t
  logEv 0x0506 (if b < 4 then b else noInst) (p2 asid ++ p8 va ++ p1 level)
    (orReg (Mmu.MMU_ERR b) 1 s)

/-- R17 to R20: an address that is neither DRAM, register space nor a port frame store. -/
def isHole (a : Nat) : Bool :=
  dramEnd ≤ a && !(0x1000000000 ≤ a && a < 0x1004000000) && !(0x1100000000 ≤ a && a < 0x1108000000)

/-- R21: an access to a hole is logged with its address and its requester (as MC_LAST_INFO.REQ
codes it). -/
def noteHole (a req : Nat) (s : State) : State :=
  if isHole a then logEv 0x0120 noInst (p8 a ++ p1 req) s else s

/-- What a walk gives, and what the TLB and the walk cache hold after it. -/
def translateByWalk (t : Nat) (q : Nat → Requester) (asid va : Nat) (acc : Acc) (s : State) :
    Trans × State :=
  let s := bump (Mmu.WALK_COUNT (tlbBlock t)) s
  match cachedWalk t q asid va s with
  | (.fault k, _, s) => (.fault k, s)
  | (.hole a, _, s) => (.fault kDecode, noteHole a (q a).kind s)
  | (.malformed l, _, s) => (.fault kNotMapped, noteMalformed t asid va l s)
  | (.leaf e own, ws, s) =>
    if !e.allows acc then (.fault kPermission, s)
    else if !isDram own 1 then (.fault kDecode, noteHole own (q own).kind s)
    else
      let s := setWalkCache t ((ws ++ (walkCacheAt t s).filter fun w => !ws.contains w).take (walkCap t)) s
      (.pa own, setTlb t ((e :: tlbAt t s).take (tlbCap t)) s)

/-- What the tables as they stand give an access. -/
def tablesGive (t asid va : Nat) (acc : Acc) (s : State) : Trans :=
  match walk (tlbBlock t) asid va s with
  | .fault k => .fault k
  | .hole _ => .fault kDecode
  | .malformed _ => .fault kNotMapped
  | .leaf e own =>
    if !e.allows acc then .fault kPermission
    else if !isDram own 1 then .fault kDecode else .pa own

/-- R181, R182: an access through translator t.  An entry the TLB holds gives the translation; where
it no longer agrees with the tables, whether it is still held is a free value (DEDUCED, log entry 22).  A
PERMISSION fault removes the entry. -/
def translateAs (t : Nat) (q : Nat → Requester) (asid va : Nat) (acc : Acc) (s : State) : Trans × State :=
  if !bit (Mmu.MMU_CTRL (tlbBlock t)) 0 s then (.fault kDecode, s)
  else match (tlbAt t s).find? fun e => e.covers asid va with
    | none => translateByWalk t q asid va acc s
    | some e =>
      let held := checkEntry e acc va
      let (keep, s) := if held = tablesGive t asid va acc s then (true, s)
        else let (f, s) := fresh s; (f.getLsbD 0, s)
      if keep then
        match held with
        | .fault k => (.fault k,
            if k = kPermission then setTlb t ((tlbAt t s).filter (· ≠ e)) s
            else noteHole (e.target va) (q (e.target va)).kind s)
        | .pa a => (.pa a, s)
      else translateByWalk t q asid va acc (setTlb t ((tlbAt t s).filter (· ≠ e)) s)

/-! ### Fault queues (R186, R187) -/

def fqAt (t : Nat) (s : State) : FaultQueue := kget {} t s.fq
def setFq (t : Nat) (q : FaultQueue) (s : State) : State := { s with fq := kset {} t q s.fq }

/-- FQ_STATUS follows the queue. -/
def syncFq (t : Nat) (s : State) : State :=
  wr (Mmu.FQ_STATUS t) ((fqAt t s).recs.length + 65536 * b2n (!(fqAt t s).held.isEmpty)) s

def rememberToken (src : FaultSrc) (token : Nat) (s : State) : State :=
  match src with
  | .ctx d _ =>
    match (descAt d s).ctx with
    | some k => updCtx k (fun c => { c with fault := c.fault.map fun f => { f with token := some token } }) s
    | none => updDesc d (fun e => { e with savedFault := e.savedFault.map fun f =>
        { f with token := some token } }) s
  | .chan _ => s

/-- A record enters queue t, which has space. -/
def pushFault (t : Nat) (r : FaultRec) (src : Option FaultSrc) (s : State) : State :=
  let q := fqAt t s
  let r := { r with token := q.nextToken }
  let q := { q with
    recs := q.recs ++ [r], nextToken := (q.nextToken + 1) % 65536
    toCopy := if r.resumable then q.toCopy ++ [r] else q.toCopy }
  let q := match src with
    | some f => if r.resumable then { q with open_ := q.open_ ++ [⟨r.token, f, s.clk, r.asid, r.va⟩] } else q
    | none => q
  let s := syncFq t (setFq t q s)
  let s := match src with
    | some f => if r.resumable then rememberToken f r.token s else s
    | none => s
  let s := orReg (Mmu.INT_STATUS t) 1 (bump (Mmu.FAULT_COUNT t) s)
  if t < 4 then logSixteen 0x0503 t [] s else logSixteen 0x0504 noInst [] s

/-- R187: a record for queue t; src is the context or channel that made it, and that waits for the
answer where the record is resumable (none: an ABORT stream).  A record that can wait goes behind
those that wait; an ABORT record is discarded only where the queue is full. -/
def postFault (t : Nat) (r : FaultRec) (src : Option FaultSrc) (s : State) : State :=
  let q := fqAt t s
  if q.recs.length < 256 ∧ (q.held.isEmpty ∨ src.isNone) then pushFault t r src s
  else
    let s := match src with
      | some f => syncFq t (setFq t { q with held := q.held ++ [(r, f)] } s)
      | none => if t = 4 then bump Iommu.ABORT_LOST s else s
    logPer 0x0505 (if t < 4 then t else noInst) oneSecond [] s

/-- FAULT_RECORD_POST (R187): the oldest record that waits is posted when there is space. -/
def postHeld (t : Nat) (s : State) : State :=
  let q := fqAt t s
  match q.held with
  | [] => s
  | (r, f) :: rest =>
    if q.recs.length < 256 then pushFault t r (some f) (setFq t { q with held := rest } s) else s

/-- FQ_POP (R186): the head record is removed. -/
def fqPop (t : Nat) (s : State) : State :=
  let q := fqAt t s
  syncFq t (setFq t { q with recs := q.recs.drop 1 } s)

/-- R186: the 32 bytes of a record. -/
def faultBytes (r : FaultRec) : List Byte :=
  p8 r.va ++ p2 r.token ++ p1 r.source
    ++ p1 (r.kind + 16 * b2n r.write + 32 * b2n r.fetch + 64 * b2n r.resumable)
    ++ p2 r.asid ++ p2 r.id ++ p4 r.info ++ p4 r.bytes ++ p8 r.time

/-! ### IOMMU streams (R183 to R185) -/

/-- R183: the SOURCE of a stream's records. -/
def streamSource (st : Nat) : Nat :=
  if st < 0x40 then 1 else if st < 0x48 then 2 else if st < 0x68 then 4 else if st < 0x6C then 5
  else if st < 0x80 then 0 else if st < 0xA0 then 6 else if st = 0xA0 then 7 else 3

/-- R201: the requester code of a stream. -/
def streamReq (st : Nat) : Nat := if st < 0x48 then 1 else if 0xC0 ≤ st then 2 else 6

/-- R184: a stream's translation. -/
def ioTranslate (st va : Nat) (acc : Acc) (s : State) : Trans × State :=
  if !bit (Iommu.STE st) 16 s then (.fault kDecode, s)
  else if bit (Iommu.STE st) 17 s then
    if isDram va 1 then (.pa va, s) else (.fault kDecode, noteHole va (streamReq st) s)
  else translateAs 32 (fun _ => ⟨streamReq st, st⟩) (fld (Iommu.STE st) 15 0 s) va acc s

def ioRecord (st va kind : Nat) (write resumable : Bool) (info bytes : Nat) (s : State) : FaultRec :=
  { va := va, token := 0, source := streamSource st, kind := kind, write := write, fetch := false,
    resumable := resumable, asid := fld (Iommu.STE st) 15 0 s, id := st, info := info,
    bytes := bytes, time := nowNs s % 2 ^ 64 }

/-- R185: an ABORT-mode stream's fault is recorded, never answered. -/
def abortFault (st va kind : Nat) (write : Bool) (s : State) : State :=
  postFault 4 (ioRecord st va kind write false 0 0 s) none s

/-- The pieces of an access that stay within one 4 KiB page: offset and length. -/
def pagePieces (va : Nat) : Nat → Nat → List (Nat × Nat)
  | 0, _ => []
  | f + 1, n =>
    if n = 0 then []
    else
      let k := min n (4096 - va % 4096)
      (va, k) :: pagePieces (va + k) f (n - k)

/-- A read through an ABORT stream: none on a fault (recorded) or on poisoned data. -/
def ioRead (st va n : Nat) (s : State) : Option (List Byte) × State :=
  (pagePieces va (n / 4096 + 2) n).foldl (fun (acc : Option (List Byte) × State) p =>
    match acc.1 with
    | none => acc
    | some bs =>
      match ioTranslate st p.1 .read acc.2 with
      | (.fault k, s) => (none, abortFault st p.1 k false s)
      | (.pa a, s) =>
        let s := meet ⟨streamReq st, st⟩ a p.2 s
        if poisoned a p.2 s then (none, abortFault st p.1 kEcc false s)
        else (some (bs ++ memBytes a p.2 s), s)) (some [], s)

/-- The physical addresses of the pages of a write through an ABORT stream; none on a fault. -/
def ioTargets (st va n : Nat) (s : State) : Option (List (Nat × Nat × Nat)) × State :=
  (pagePieces va (n / 4096 + 2) n).foldl (fun (acc : Option (List (Nat × Nat × Nat)) × State) p =>
    match acc.1 with
    | none => acc
    | some l =>
      match ioTranslate st p.1 .write acc.2 with
      | (.fault k, s) => (none, abortFault st p.1 k true s)
      | (.pa a, s) => (some (l ++ [(p.1 - va, p.2, a)]), s)) (some [], s)

/-- R183: a write through an ABORT stream: false on a fault, and nothing is written. -/
def ioWrite (st va : Nat) (bs : List Byte) (s : State) : Bool × State :=
  match ioTargets st va bs.length s with
  | (none, s) => (false, s)
  | (some l, s) =>
    (true, forAll (fun p s => writeBy ⟨streamReq st, st⟩ p.2.2 ((bs.drop p.1).take p.2.1) s) l s)

end Sys2Proof.Machine
end

