-- ==== Sys2Proof/Machine/Dma.lean ====
section
/-! DEFINITION. The DMA channels (R190 to R196): rings, bursts, the states of R194.  Channel k is
channel k mod 16 of slice k / 16; 64 + h is host channel h; its stream is k. -/

namespace Sys2Proof.Machine

/-- R194: CH_STATUS.STATE. -/
def chIdle : Nat := 0
def chRunning : Nat := 1
def chFaulted : Nat := 2
def chStopped : Nat := 3
def chError : Nat := 4

def chState (k : Nat) (s : State) : Nat := fld (Dma.CH_STATUS k) 2 0 s
def setChState (k st : Nat) (s : State) : State := setFld (Dma.CH_STATUS k) 2 0 st s
def chEnabled (k : Nat) (s : State) : Bool := bit (Dma.CH_CTRL k) 0 s

/-- The block of a channel: the slice, or 4 for the host channels; and its bit there. -/
def chBlock (k : Nat) : Nat := if k < 64 then k / 16 else 4
def chBit (k : Nat) : Nat := if k < 64 then k % 16 else k - 64
def isHostCh (k : Nat) : Bool := 64 ≤ k

def ringSize (k : Nat) (s : State) : Nat := 2 ^ min 12 (fld (Dma.RING_CFG k) 3 0 s)
def ringHead (k : Nat) (s : State) : Nat := rd (Dma.RING_HEAD k) s
/-- R192: the address of a descriptor of the ring. -/
def descVa (k i : Nat) (s : State) : Nat := rd (Dma.RING_BASE k) s + 64 * (i % ringSize k s)

/-- R201: a channel as a requester at the controller of an address: a host channel, a slice's own,
or another slice's. -/
def chReq (k a : Nat) : Requester :=
  ⟨if isHostCh k then 1 else if dramSlice a = k / 16 then 1 else 3, k⟩

/-- R194: a channel enters FAULTED; its record is queued (R186). -/
def chFault (k va kind : Nat) (write : Bool) (s : State) : State :=
  let s := orReg (Dma.INT_STATUS k) 2 (setFld (Dma.CH_STATUS k) 19 16 kind (setChState k chFaulted s))
  let s := if bit (Dma.CH_CTRL k) 1 s || !chEnabled k s then setBit (Dma.CH_STATUS k) 3 true s else s
  postFault 4 (ioRecord k va kind write true (ringHead k s) (rd (Dma.BYTES_DONE k) s) s)
    (some (.chan k)) s

/-- R191, R193: STATUS of the descriptor in progress is written; false on a fault (its kind and
address). -/
def writeStatus (k result kind : Nat) (s : State) : Option (Nat × Nat) × State :=
  let va := descVa k (ringHead k s) s + 0x38
  match ioTranslate k va .write s with
  | (.fault f, s) => (some (f, va), s)
  | (.pa a, s) => (none,
      writeBy (chReq k a) a (p4 (result + 256 * kind) ++ p4 (rd (Dma.BYTES_DONE k) s)) s)

/-- R194: a channel enters ERROR; KIND stays the kind of the last fault where the result (HOST_ERR,
BAD_DESC) is none. -/
def chFail (k result kind : Nat) (s : State) : State :=
  let s := match (chanAt k s).desc with
    | some d => if d.ctrl.testBit 5 then (writeStatus k result kind s).2 else s
    | none => s
  let s := if result = 3 ∨ result = 4 then s else setFld (Dma.CH_STATUS k) 19 16 kind s
  let s := setFld (Dma.CH_STATUS k) 15 8 result (setChState k chError s)
  let s := orReg (Dma.INT_STATUS k) 4 (setBit (Dma.CH_CTRL k) 1 false s)
  logEv 0x0507 k (p1 k ++ p1 result ++ p1 kind ++ p4 (rd (Dma.BYTES_DONE k) s)) s

/-- What a translation fault does to a channel (R194): NOT_MAPPED and PERMISSION wait for an
answer, the others are errors. -/
def chAccessFault (k va kind : Nat) (write : Bool) (s : State) : State :=
  if kind = kNotMapped ∨ kind = kPermission then chFault k va kind write s
  else if kind = kEcc then chFail k 2 kind s
  else chFail k 5 kind s

/-- R191: the fields of a descriptor. -/
def parseDesc (b : List Byte) : DmaDesc :=
  let f (o n : Nat) := leNat ((b.drop o).take n)
  { ctrl := f 0 4, rows := f 4 4, src := f 8 8, dst := f 0x10 8, len := f 0x18 4, rsvd := f 0x1C 4,
    srcStride := f 0x20 4, dstStride := f 0x24 4, fill := f 0x28 8, tag := f 0x30 8 }

def DmaDesc.op (d : DmaDesc) : Nat := d.ctrl % 8
def DmaDesc.total (d : DmaDesc) : Nat := d.rows * d.len

/-- R191: does a descriptor keep every rule of the table. -/
def DmaDesc.good (d : DmaDesc) (host : Bool) : Bool :=
  (d.op ≤ 2 || (d.op ≤ 4 && host)) && d.ctrl / 64 = 0 && 1 ≤ d.rows && d.rows ≤ 65535
    && (d.op = 1 || d.op = 2 || d.rows = 1) && 1 ≤ d.len && d.total ≤ 0xFFFFFFFF && d.rsvd = 0
    && (d.op = 2 || d.len ≤ d.srcStride) && d.len ≤ d.dstStride

/-- The descriptor at RING_HEAD is read (R191, R192). -/
def fetchDesc (k : Nat) (s : State) : State :=
  let va := descVa k (ringHead k s) s
  let s := updChan k (fun c => { c with desc := none, wantProd := false })
    (wr (Dma.BYTES_DONE k) 0 s)
  match ioTranslate k va .read s with
  | (.fault f, s) => chAccessFault k va f false s
  | (.pa a, s) =>
    let s := meet (chReq k a) a 64 s
    if poisoned a 64 s then chFail k 2 kEcc s
    else
      let d := parseDesc (memBytes a 64 s)
      let s := updChan k (fun c => { c with desc := some d }) s
      if d.good (isHostCh k) then s else chFail k 4 0 s

/-- A channel enters STOPPED: its last result is STOPPED (R191). -/
def chStop (k : Nat) (s : State) : State :=
  let s := setFld (Dma.CH_STATUS k) 15 8 6 (setBit (Dma.CH_STATUS k) 3 false s)
  orReg (Dma.INT_STATUS k) 8 (setBit (Dma.CH_CTRL k) 1 false (setChState k chStopped s))

/-- R194: STOP = 1 or ENABLE = 0. -/
def chStopping (k : Nat) (s : State) : Bool := bit (Dma.CH_CTRL k) 1 s || !chEnabled k s

/-- R192: the producer word is read, and the channel goes on as it shows; it stays to be read
after a fault on it. -/
def withProducer (k : Nat) (go : Nat → State → State) (s : State) : State :=
  let va := rd (Dma.PROD_ADDR k) s
  let s := updChan k (fun c => { c with wantProd := true }) (setChState k chRunning s)
  match ioTranslate k va .read s with
  | (.fault f, s) => chAccessFault k va f false s
  | (.pa a, s) =>
    let s := meet (chReq k a) a 4 s
    if poisoned a 4 s then chFail k 2 kEcc s
    else
      let p := memNat a 4 s % ringSize k s
      go p (updChan k (fun c => { c with prod := p, wantProd := false }) s)

/-- R192, R194: with no descriptor in progress: the channel runs the descriptors the producer word
shows, or is IDLE, or STOPPED where that was asked for. -/
def readProducer (k : Nat) : State → State :=
  withProducer k fun p s =>
    if ringHead k s ≠ p then fetchDesc k s
    else if bit (Dma.CH_CTRL k) 1 s then chStop k s
    else setChState k chIdle s

/-- DOORBELL (R192, R194): every one reads the producer word; a STOPPED channel continues. -/
def doorbell (k : Nat) (s : State) : State :=
  let st := chState k s
  if !chEnabled k s || !(st = chIdle || st = chRunning || st = chStopped) then s
  else if (chanAt k s).desc.isSome then withProducer k (fun _ s => s) s
  else readProducer k s
def execDoorbell (k : Fin 72) (who : Req) (s : State) : Host.Outcome State Fault Refusal :=
  atOnce (landing who (k.val < 64) (doorbell k.val)) s

/-- DMA_TRIGGER (R192): the edge on the channel's TRIG_LINE that waits makes it read its producer
word. -/
def dmaTrigger (k : Nat) (s : State) : State :=
  if (chanAt k s).edge then
    let s := updChan k (fun c => { c with edge := false }) s
    if chState k s = chStopped then s else doorbell k s
  else s
def execDmaTrigger (k : Fin 64) (s : State) : Host.Outcome State Fault Refusal :=
  atOnce (dmaTrigger k.val) s

/-! ### Bursts (R190, R195) -/

/-- A channel has a burst to make. -/
def chHasWork (k : Nat) (s : State) : Bool :=
  chState k s == chRunning && !bit (Dma.CH_CTRL k) 1 s && chEnabled k s
    && !(chanAt k s).wantProd
    && match (chanAt k s).desc with
      | some d => rd (Dma.BYTES_DONE k) s < d.total
      | none => false

def chWeight (k : Nat) (s : State) : Nat := max 1 (fld (Dma.CH_CTRL k) 7 4 s)
/-- The channels an engine serves: those of a slice, or the host channels (engine 4). -/
def engineChans (e : Nat) : List Nat :=
  if e < 4 then (List.range 16).map (16 * e + ·) else (List.range 8).map (64 + ·)

/-- R190: whose burst is next, weighted round robin from the channel whose turn it is. -/
def nextBurst (e : Nat) (s : State) : Option Nat :=
  let cs := engineChans e
  let cur := kget 0 e s.dmaTurn
  let at_ := (cs.drop cur ++ cs.take cur).filter fun k => chHasWork k s
  match cs[cur]? with
  | some k =>
    if chHasWork k s ∧ (chanAt k s).turn > 0 then some k
    else ((cs.drop (cur + 1) ++ cs.take (cur + 1)).filter fun k => chHasWork k s).head?
  | none => at_.head?

/-- The turn passes to a channel, and one burst of it is used. -/
def takeTurn (e k : Nat) (s : State) : State :=
  let pos := if e < 4 then k % 16 else k - 64
  let left := if kget 0 e s.dmaTurn = pos ∧ (chanAt k s).turn > 0 then (chanAt k s).turn
    else chWeight k s
  updChan k (fun c => { c with turn := left - 1 }) { s with dmaTurn := kset 0 e pos s.dmaTurn }

/-- R195: where a burst lies: source, destination, length, and the bytes done before it. -/
structure Burst where
  src : Nat
  dst : Nat
  n : Nat
  pos : Nat

def burstOf (d : DmaDesc) (done : Nat) : Burst :=
  let row := done / d.len
  let col := done % d.len
  let src := d.src + row * d.srcStride + col
  let dst := d.dst + row * d.dstStride + col
  let n := min 256 (min (d.len - col) (4096 - dst % 4096))
  { src := src, dst := dst, n := if d.op = 2 then n else min n (4096 - src % 4096), pos := done }

/-- The bytes a burst moves, or why it has none. -/
inductive BurstData
  | bytes (b : List Byte)
  | fault (va kind : Nat)
  | ecc

def hostBytes (a : Nat) : Nat → State → List Byte
  | 0, _ => []
  | n + 1, s => kget 0 a s.hostMem :: hostBytes (a + 1) n s
def putHost : Nat → List Byte → State → State
  | _, [], s => s
  | a, b :: t, s => putHost (a + 1) t { s with hostMem := kset 0 a b s.hostMem }

/-- The source side of a burst; e is what the DRAM read finds (R174, R175). -/
def burstSource (k : Nat) (d : DmaDesc) (b : Burst) (e : Ecc) (s : State) : BurstData × State :=
  if d.op = 2 then
    (.bytes ((List.range b.n).map fun i => BitVec.ofNat 8 (d.fill / 256 ^ ((b.pos + i) % 8))), s)
  else if d.op = 3 then (.bytes (hostBytes b.src b.n s), s)
  else match ioTranslate k b.src .read s with
    | (.fault f, s) => (.fault b.src f, s)
    | (.pa a, s) =>
      let s := meet (chReq k a) a b.n (eccEvent e a (chReq k a) s)
      if poisoned a b.n s then (.ecc, s) else (.bytes (memBytes a b.n s), s)

/-- R195: one burst of channel k; BYTES_DONE stops at a burst that faults. -/
def burst (k : Nat) (e : Ecc) (s : State) : State :=
  match (chanAt k s).desc with
  | none => s
  | some d =>
    let b := burstOf d (rd (Dma.BYTES_DONE k) s)
    match burstSource k d b e s with
    | (.fault va f, s) => chAccessFault k va f false s
    | (.ecc, s) => chFail k 2 kEcc s
    | (.bytes bs, s) =>
      if d.op = 4 then wr (Dma.BYTES_DONE k) (b.pos + b.n) (putHost b.dst bs s)
      else match ioTranslate k b.dst .write s with
        | (.fault f, s) => chAccessFault k b.dst f true s
        | (.pa a, s) => wr (Dma.BYTES_DONE k) (b.pos + b.n) (writeBy (chReq k a) a bs s)

/-- DMA_BURST (R190): engine e (a slice, or 4 the host channels) serves one burst. -/
def dmaBurst (e : Nat) (ecc : Ecc) (s : State) : State :=
  match nextBurst e s with
  | none => s
  | some k => if shed s || frozen s then s else burst k ecc (takeTurn e k s)
def execDmaBurst (e : Fin 5) (ecc : Ecc) (s : State) : Host.Outcome State Fault Refusal :=
  atOnce (dmaBurst e.val ecc) s

/-! ### Completion and stop (R193, R194) -/

/-- R192, R194: after a descriptor: the next one, or the producer word once more; a channel that is
to stop stops. -/
def afterDesc (k : Nat) (s : State) : State :=
  let s := updChan k (fun c => { c with desc := none }) s
  if chStopping k s then chStop k s
  else if ringHead k s = (chanAt k s).prod then readProducer k s else fetchDesc k s

/-- DMA_DESC_COMPLETE (R193): every write accepted: STATUS, then the counts, then the interrupt,
then the event. -/
def dmaDescComplete (k : Nat) (s : State) : State :=
  match (chanAt k s).desc with
  | none => s
  | some d =>
    if chState k s ≠ chRunning ∨ rd (Dma.BYTES_DONE k) s < d.total ∨ (chanAt k s).wantProd then s
    else
      let (f, s) := if d.ctrl.testBit 5 then writeStatus k 0 0 s else (none, s)
      match f with
      | some (kind, va) => chAccessFault k va kind true s
      | none =>
        let s := setFld (Dma.CH_STATUS k) 15 8 0 s
        let s := wr (Dma.RING_HEAD k) ((ringHead k s + 1) % ringSize k s) (bump (Dma.DESC_COUNT k) s)
        let s := if d.ctrl.testBit 4 then orReg (Dma.INT_STATUS k) 1 s else s
        let s := if d.ctrl.testBit 3 then
            let s := orReg (DmaB.DMA_EV_STATUS (chBlock k)) (2 ^ chBit k) s
            if isHostCh k then s else lineEdge (k / 16) 44 s
          else s
        afterDesc k s
def execDmaDescComplete (k : Fin 72) (s : State) : Host.Outcome State Fault Refusal :=
  atOnce (dmaDescComplete k.val) s

/-- DMA_STOP (R194): STOP = 1. -/
def dmaStop (k : Nat) (s : State) : State :=
  if chState k s = chIdle then chStop k s
  else if chState k s = chRunning then setBit (Dma.CH_CTRL k) 1 true s
  else if chState k s = chFaulted then
    setBit (Dma.CH_STATUS k) 3 true (setBit (Dma.CH_CTRL k) 1 true s)
  else s
def execDmaStop (k : Fin 72) (who : Req) (s : State) : Host.Outcome State Fault Refusal :=
  atOnce (landing who (k.val < 64) (dmaStop k.val)) s

/-- DMA_STOP_COMPLETE (R194): the bursts already issued have completed. -/
def dmaStopComplete (k : Nat) (s : State) : State :=
  if chState k s = chRunning ∧ chStopping k s then chStop k s else s
def execDmaStopComplete (k : Fin 72) (s : State) : Host.Outcome State Fault Refusal :=
  atOnce (dmaStopComplete k.val) s

/-- DMA_ENABLE_WRITE (R194): STOPPED and ERROR leave at the write of ENABLE = 0 (DEDUCED, log entry 97). -/
def dmaEnableWrite (k : Nat) (v : Bool) (s : State) : State :=
  let st := chState k s
  let s := setBit (Dma.CH_CTRL k) 0 v s
  if v then s
  else if st = chStopped ∨ st = chError then
    updChan k (fun c => { c with desc := none, wantProd := false }) (setChState k chIdle s)
  else if st = chFaulted then setBit (Dma.CH_STATUS k) 3 true s
  else s
def execDmaEnableWrite (k : Fin 72) (who : Req) (v : Bool) (s : State) :
    Host.Outcome State Fault Refusal :=
  atOnce (landing who (k.val < 64) (dmaEnableWrite k.val v)) s

/-- R194: a RESUME response to a FAULTED channel. -/
def chResume (k : Nat) (s : State) : State :=
  if bit (Dma.CH_STATUS k) 3 s then chStop k s
  else
    let s := setChState k chRunning s
    if (chanAt k s).wantProd then
      if (chanAt k s).desc.isSome then withProducer k (fun _ s => s) s else readProducer k s
    else if (chanAt k s).desc.isSome then s else fetchDesc k s

/-- R194: a TERMINATE response. -/
def chTerminate (k : Nat) (s : State) : State :=
  setBit (Dma.CH_STATUS k) 3 false (chFail k 1 (fld (Dma.CH_STATUS k) 19 16 s) s)

/-- HOST_COMPLETION_TIMEOUT (R196): a PCIe read of a host channel gets no completion. -/
def hostTimeout (k : Nat) (s : State) : State :=
  match (chanAt k s).desc with
  | some d => if chState k s = chRunning ∧ d.op = 3 ∧ rd (Dma.BYTES_DONE k) s < d.total then
      chFail k 3 0 s else s
  | none => s
def execHostCompletionTimeout (h : Fin 8) (s : State) : Host.Outcome State Fault Refusal :=
  atOnce (hostTimeout (64 + h.val)) s

end Sys2Proof.Machine
end

