-- ==== Sys2Proof/Machine/Crc.lean ====
section
/-! DEFINITION. The check-value units (chapter 15): units 0 to 15 are s.CRC0-3 of slice u / 4,
units 16 to 19 are G.CRC0-3. -/

namespace Sys2Proof.Machine

def crcAlg (u : Nat) (s : State) : Nat := fld (Crc.CRC_CFG u) 1 0 s
def crcRaw (u : Nat) (s : State) : Nat := rd (Crc.CRC_VALUE u) s

/-- R401: a clock of the unit's domain, in 0.1 ns: CORE or MGMT. -/
def crcClocks (u n : Nat) : Nat := if u < 16 then 10 * n else ceilDiv (25 * n) 2

/-- R401: is the unit busy now. -/
def crcIsBusy (u : Nat) (s : State) : Bool := s.clk < kget 0 u s.crcBusy

/-- The unit is occupied for n clocks from when it is free. -/
def crcOccupy (u n : Nat) (s : State) : State :=
  { s with crcBusy := kset 0 u (max s.clk (kget 0 u s.crcBusy) + crcClocks u n) s.crcBusy }

/-- R399, R401, R405: bytes are fed to the unit. -/
def crcFeedUnit (u : Nat) (bs : List Byte) (s : State) : State :=
  let v := crcFeed (crcAlg u s) (crcRaw u s) bs
  let s := wr (Crc.CRC_BYTES u) ((rd (Crc.CRC_BYTES u) s + bs.length) % 2 ^ 32) (wr (Crc.CRC_VALUE u) v s)
  crcOccupy u bs.length s

/-- R399, R404: the raw running value is written, truncated to the width. -/
def crcPutUnit (u v : Nat) (s : State) : State :=
  crcOccupy u 1 (wr (Crc.CRC_VALUE u) (v % 2 ^ crcWidth (crcAlg u s)) s)

/-- R405: the standard initial value and no bytes. -/
def crcInitUnit (u : Nat) (s : State) : State :=
  wr (Crc.CRC_BYTES u) 0 (wr (Crc.CRC_VALUE u) (crcInit (crcAlg u s)) s)

/-- R136, R404: the final value. -/
def crcFinalUnit (u : Nat) (s : State) : Nat := crcFinal (crcAlg u s) (crcRaw u s)

/-- R403: host writes to G.CRC3 are ignored. -/
def crcGuard (u : Nat) (who : Req) (f : State → State) (s : State) : State :=
  landing who (u < 16) (fun s => if who = .host ∧ u = 19 then s else f s) s

/-- R402: a register access that reaches a busy unit waits until it is idle. -/
def crcWait (u : Nat) (s : State) : State := hopClk (kget 0 u s.crcBusy) s

/-- R400: a write that changes POLY loads the initial value and clears CRC_BYTES. -/
def crcCfgWrite (u poly : Nat) (raw : Bool) (s : State) : State :=
  let old := crcAlg u s
  let s := wr (Crc.CRC_CFG u) (poly % 4 + 4 * b2n raw) s
  if poly % 4 = old then s else crcInitUnit u s

/-- CRC_CFG_WRITE (R400). -/
def execCrcCfgWrite (u : Fin 20) (who : Req) (poly : Fin 4) (raw : Bool) (s : State) :
    Host.Outcome State Fault Refusal :=
  timed (crcWait u.val) (crcGuard u.val who (crcCfgWrite u.val poly.val raw)) s

/-- CRC_INIT (R405).  R402 does not hold it at a busy unit: the operation under way has had its effect
(DEDUCED, log entry 126). -/
def execCrcInit (u : Fin 20) (who : Req) (s : State) : Host.Outcome State Fault Refusal :=
  atOnce (crcGuard u.val who (crcInitUnit u.val)) s

/-- CRC_FEED8 (R401). -/
def execCrcFeed8 (u : Fin 20) (who : Req) (v : BitVec 8) (s : State) :
    Host.Outcome State Fault Refusal :=
  timed (crcWait u.val) (crcGuard u.val who (crcFeedUnit u.val (p1 v.toNat))) s

/-- CRC_FEED16 (R401): low byte first. -/
def execCrcFeed16 (u : Fin 20) (who : Req) (v : BitVec 16) (s : State) :
    Host.Outcome State Fault Refusal :=
  timed (crcWait u.val) (crcGuard u.val who (crcFeedUnit u.val (p2 v.toNat))) s

/-- CRC_FEED32 (R401): lowest byte first. -/
def execCrcFeed32 (u : Fin 20) (who : Req) (v : BitVec 32) (s : State) :
    Host.Outcome State Fault Refusal :=
  timed (crcWait u.val) (crcGuard u.val who (crcFeedUnit u.val (p4 v.toNat))) s

/-- CRC_VALUE_WRITE (R404). -/
def execCrcValueWrite (u : Fin 20) (who : Req) (v : BitVec 32) (s : State) :
    Host.Outcome State Fault Refusal :=
  timed (crcWait u.val) (crcGuard u.val who (crcPutUnit u.val v.toNat)) s

/-! ### Renro's own checks (R406, R407) -/

/-- R406: Renro checks bytes with CRC-32C in G.CRC3 (how it drives the unit is DEDUCED, log entry 126). -/
def renroCrc (bs : List Byte) (s : State) : State :=
  let s := crcInitUnit 19 (wr (Crc.CRC_CFG 19) (1 + 4 * b2n (bit (Crc.CRC_CFG 19) 2 s)) s)
  wr (Crc.CRC_BYTES 19) (bs.length % 2 ^ 32)
    (wr (Crc.CRC_VALUE 19) (crcFeed 1 (crcRaw 19 s) bs) s)

/-- R406: the same over a settings copy, whose bytes are not modelled: what the unit then holds is a
free value. -/
def renroCrcFree (s : State) : State :=
  let (x, s) := fresh s
  let s := wr (Crc.CRC_CFG 19) (1 + 4 * b2n (bit (Crc.CRC_CFG 19) 2 s)) s
  wr (Crc.CRC_BYTES 19) (x.toNat / 2 ^ 32) (wr (Crc.CRC_VALUE 19) (x.toNat % 2 ^ 32) s)

end Sys2Proof.Machine
end

