-- ==== Sys2Proof/Machine/Mmu.lean ====
section
/-! DEFINITION. The commands of the MMU blocks, the IOMMU and the memory controllers: fault
queues, invalidations, the scrubber (R176, R181, R186, R187).  Block t is the MMU of slice t; 4 is
the IOMMU. -/

namespace Sys2Proof.Machine

def execFaultRecordPost (t : Fin 5) (s : State) : Host.Outcome State Fault Refusal :=
  atOnce (postHeld t.val) s

/-- R201, R202: host writes to the block's registers, but for its interrupt registers, are
ignored. -/
def renroOnly (who : Req) (f : State → State) (s : State) : State :=
  match who with
  | .host => s
  | .renro => f s

def execFqPop (t : Fin 5) (who : Req) (s : State) : Host.Outcome State Fault Refusal :=
  atOnce (renroOnly who (fqPop t.val)) s

/-- The translators of a block. -/
def blockTlbs (t : Nat) : List Nat := if t < 4 then (List.range 8).map (8 * t + ·) else [32]

/-- R181: the length in bytes of the span of a TLBI_CTRL value. -/
def spanBytes (span : Nat) : Nat := 2 ^ span * 4096

/-- R181: a write of TLBI_CTRL: ignored as a whole, with TLBI_REJ, when it breaks a rule. -/
def tlbiWrite (t go type span asid : Nat) (s : State) : State :=
  let va := rd (Mmu.TLBI_VA t) s
  if span > 18 ∨ (go = 1 ∧ bit (Mmu.TLBI_CTRL t) 2 s)
      ∨ (go = 1 ∧ 2 ≤ type ∧ va % spanBytes span ≠ 0) then orReg (Mmu.MMU_ERR t) 4 s
  else
    let keep := fld (Mmu.TLBI_CTRL t) 2 2 s
    let s := wr (Mmu.TLBI_CTRL t) (type + 4 * max go keep + 16 * span + 65536 * asid) s
    if go = 1 then { s with tlbis := kset none t (some ⟨type, span, asid, va, s.clk⟩) s.tlbis } else s

/-- R181: a TLBI_CTRL write with GO = 1. -/
def tlbi (t type span asid : Nat) (s : State) : State := tlbiWrite t 1 type span asid s

def execTlbiAll (t : Fin 5) (who : Req) (span : Fin 32) (asid : BitVec 16) (s : State) :
    Host.Outcome State Fault Refusal :=
  atOnce (renroOnly who (tlbi t.val 0 span.val asid.toNat)) s
def execTlbiAsid (t : Fin 5) (who : Req) (span : Fin 32) (asid : BitVec 16) (s : State) :
    Host.Outcome State Fault Refusal :=
  atOnce (renroOnly who (tlbi t.val 1 span.val asid.toNat)) s
def execTlbiAsidSpan (t : Fin 5) (who : Req) (span : Fin 32) (asid : BitVec 16) (s : State) :
    Host.Outcome State Fault Refusal :=
  atOnce (renroOnly who (tlbi t.val 2 span.val asid.toNat)) s
def execTlbiSpan (t : Fin 5) (who : Req) (span : Fin 32) (asid : BitVec 16) (s : State) :
    Host.Outcome State Fault Refusal :=
  atOnce (renroOnly who (tlbi t.val 3 span.val asid.toNat)) s

/-- R181: does an invalidation name an entry. -/
def tlbiMatches (type asid va bytes : Nat) (e : TlbEntry) : Bool :=
  let inSpan := e.va < va + bytes && va < e.va + e.size
  match type with
  | 0 => true
  | 1 => e.asid == asid && !e.glob
  | 2 => e.asid == asid && !e.glob && inSpan
  | _ => inSpan

/-- R181: does it name an entry of a walk cache. -/
def tlbiMatchesWalk (type asid va bytes : Nat) (e : WalkEntry) : Bool :=
  let size := 2 ^ (39 - 9 * e.level)
  let inSpan := e.tag * size < va + bytes && va < (e.tag + 1) * size
  match type with
  | 0 => true
  | 1 => e.asid == asid
  | 2 => e.asid == asid && inSpan
  | _ => inSpan

/-- The entries a TYPE, an ASID and a span name leave every TLB and walk cache of the block. -/
def tlbiDrop (t type asid va bytes : Nat) (s : State) : State :=
  forAll (fun k s =>
    setWalkCache k ((walkCacheAt k s).filter fun e => !tlbiMatchesWalk type asid va bytes e)
      (setTlb k ((tlbAt k s).filter fun e => !tlbiMatches type asid va bytes e) s))
    (blockTlbs t) s

/-- R181: what the invalidation of block t was at GO: as latched then; where nothing is latched, as
the registers stand. -/
def tlbiOf (t : Nat) (s : State) : Tlbi :=
  (kget none t s.tlbis).getD ⟨fld (Mmu.TLBI_CTRL t) 1 0 s, fld (Mmu.TLBI_CTRL t) 8 4 s,
    fld (Mmu.TLBI_CTRL t) 31 16 s, rd (Mmu.TLBI_VA t) s, s.clk⟩

/-- R181: an access of context k translated at or before an instant is still on its way. -/
def translatedOpen (k at_ : Nat) (s : State) : Bool :=
  let c := ctxAt k s
  c.sbuf.any (fun e => e.at_ ≤ at_) || (c.miss.any fun m => m.at_ ≤ at_)
    || (c.atomic.any fun q => q.at_ ≤ at_)

/-- R181: some access that block t translated before GO has not completed. -/
def tlbiWaits (t : Nat) (s : State) : Bool :=
  t < 4 && (List.range 32).any fun i => translatedOpen (32 * t + i) (tlbiOf t s).at_ s

/-- R182 step 3: Renro invalidates an ASID on translator t: at once, or after the invalidation that
is under way there. -/
def renroTlbi (t asid : Nat) (s : State) : State :=
  if bit (Mmu.TLBI_CTRL t) 2 s then
    { s with host := { s.host with tlbiDue := s.host.tlbiDue ++ [(t, asid)] } }
  else tlbi t 1 0 asid s

/-- The next invalidation that Renro still has to issue on translator t. -/
def nextTlbi (t : Nat) (s : State) : State :=
  match s.host.tlbiDue.find? fun p => p.1 == t with
  | none => s
  | some p => tlbi t 1 0 p.2 { s with host := { s.host with tlbiDue := s.host.tlbiDue.erase p } }

/-- TLBI_COMPLETE (R181): the matching entries have been dropped, the accesses translated before
have completed, and GO reads 0. -/
def tlbiComplete (t : Nat) (s : State) : State :=
  if bit (Mmu.TLBI_CTRL t) 2 s ∧ ¬ tlbiWaits t s then
    let q := tlbiOf t s
    let s := tlbiDrop t q.type q.asid q.va (spanBytes q.span) s
    nextTlbi t (setBit (Mmu.TLBI_CTRL t) 2 false { s with tlbis := kset none t none s.tlbis })
  else s
def execTlbiComplete (t : Fin 5) (s : State) : Host.Outcome State Fault Refusal :=
  atOnce (tlbiComplete t.val) s

/-- Lines of a slice's DRAM. -/
def scrubLines : Nat := 134217728

/-- SCRUB_LINE_READ (R176): the patrol scrubber reads its next line; e is what it finds. -/
def scrubLine (t : Nat) (e : Ecc) (s : State) : State :=
  if bit (Mc.MC_SCRUB_CFG t) 0 s then
    let l := kget 0 t s.scrubAt
    let a := t * 0x200000000 + 64 * l
    let s := meet ⟨4, 0⟩ a 64 (eccEvent e a ⟨4, 0⟩ s)
    let s := { s with scrubAt := kset 0 t ((l + 1) % scrubLines) s.scrubAt }
    if l + 1 = scrubLines then logEv 0x0509 t [] (bump (Mc.MC_SCRUB_PASSES t) s) else s
  else s
def execScrubLineRead (t : Fin 4) (e : Ecc) (s : State) : Host.Outcome State Fault Refusal :=
  atOnce (scrubLine t.val e) s

end Sys2Proof.Machine
end

