-- ==== Sys2Proof/Machine/SchedOps.lean ====
section
/-! DEFINITION. The task scheduler's operations: descriptors, submissions, endings, ordered flows,
completion records (R142 to R149, R157 to R161).  Descriptors are named by 4096 * slice + index. -/

namespace Sys2Proof.Machine

/-! ### Counts that registers show -/

def descOf (sl i : Nat) : Nat := 4096 * sl + i
def descIdx (d : Nat) : Nat := d % 4096
def descSlice (d : Nat) : Nat := d / 4096

/-- Descriptors in use in a slice. -/
def descUsed (sl : Nat) (s : State) : Nat :=
  (s.descs.filter fun p => descSlice p.1 == sl && p.2.st ≠ .free).length
def freeDesc (sl : Nat) (s : State) : Nat := 4096 - descUsed sl s
/-- The lowest free descriptor (DESIGN CHOICE, log entry 30: which one is taken). -/
def firstFree (sl : Nat) (s : State) : Nat :=
  ((List.range 4096).find? fun i => (descAt (descOf sl i) s).st == .free).getD 0

def queueOf (sl g : Nat) (s : State) : List Nat := kget [] g (schedAt sl s).queue
def setQueue (sl g : Nat) (q : List Nat) (s : State) : State :=
  updSched sl (fun c => { c with queue := kset [] g q c.queue }) s

/-- The delayed tasks of a slice, those expired and not yet taken included. -/
def delayedOf (sl : Nat) (s : State) : List Nat :=
  (schedAt sl s).delay.map Prod.snd ++ (schedAt sl s).expired
/-- WG_STATUS.QCOUNT: queued and delayed tasks of a group. -/
def qCount (sl g : Nat) (s : State) : Nat :=
  (queueOf sl g s).length + ((delayedOf sl s).filter fun d => (descAt d s).wg == g).length

/-- R158: bytes a held item takes in the release buffer: 8 per active lane, 8 for a tcommit
(DEDUCED, log entry 31). -/
def itemBytes : PathItem → Nat
  | .tst w => 8 * (bitList 32 w.lanes).length
  | .commit _ _ => 8

/-- The bytes of the release buffer that path items take. -/
def heldBytes (l : List PathEntry) : Nat :=
  ((l.filter PathEntry.buffered).map fun e => itemBytes e.item).sum

/-- RELEASE_BUF_USED: what the tasks of the slice hold, and what drains. -/
def relBufUsed (sl : Nat) (s : State) : Nat :=
  ((s.descs.filter fun p => descSlice p.1 == sl).map fun p => heldBytes p.2.held).sum
    + heldBytes (schedAt sl s).path
def relBufSize : Nat := 1048576

def saveSlots (sl : Nat) (s : State) : Nat := fld (Sched.SAVE_POOL_CFG sl) 10 0 s
def freeSlots (sl : Nat) (s : State) : Nat := saveSlots sl s - (schedAt sl s).slots.length
/-- The lowest slot not in use (DESIGN CHOICE, log entry 30). -/
def firstSlot (sl : Nat) (s : State) : Nat :=
  ((List.range (saveSlots sl s)).find? fun i => !(schedAt sl s).slots.contains i).getD 0
def takeSlot (sl : Nat) (s : State) : Nat × State :=
  let i := firstSlot sl s
  (i, updSched sl (fun c => { c with slots := c.slots ++ [i] }) s)
def giveSlot (sl i : Nat) (s : State) : State :=
  updSched sl (fun c => { c with slots := c.slots.filter (· ≠ i) }) s

/-! ### Images and entries (R102, R143) -/

structure EntryInfo where
  pc : Nat
  tlmLimit : Nat
  stack : Nat
  restart : Bool
  mirrored : Bool

/-- R102: entry e of image i, read at IMG_ENTRY_BASE. -/
def entryAddr (sl i e : Nat) (s : State) : Nat := rd (Sched.IMG_ENTRY_BASE sl i) s + 32 * e

def entryOf (sl i e : Nat) (s : State) : EntryInfo :=
  let a := entryAddr sl i e s
  let flags := memNat (a + 0x10) 4 s
  { pc := memNat a 8 s, tlmLimit := memNat (a + 8) 4 s, stack := memNat (a + 12) 4 s,
    restart := flags.testBit 0, mirrored := flags.testBit 1 }

/-- R21: a write of a block at a physical address: outside DRAM it is not made, and an access to a
hole is logged (DEDUCED, log entry 101: the address of such a write reaches no memory but DRAM). -/
def physWrite (q : Requester) (a : Nat) (bs : List Byte) (s : State) : State :=
  if isDram a bs.length then writeBy q a bs s else noteHole a q.kind s

/-- R21: the read of an image's entry at a dispatch, where it lies in no DRAM, is logged. -/
def noteEntry (sl i e : Nat) (s : State) : State :=
  let a := entryAddr sl i e s
  if isDram a 32 then meet ⟨0, sl⟩ a 32 s else noteHole a 0 s

def imageValid (sl i : Nat) (s : State) : Bool := 1 ≤ i && i ≤ 63 && bit (Sched.IMG_CFG sl i) 31 s

/-! ### Handles and states (R131, R145) -/

def handleOf (d : Nat) (s : State) : Nat := descIdx d + 4096 * (descAt d s).gen
/-- The task a handle names; none when it is stale. -/
def byHandle (sl h : Nat) (s : State) : Option Nat :=
  let d := descOf sl (h % 4096)
  if (descAt d s).st ≠ .free ∧ (descAt d s).gen = h / 4096 ∧ h < 2 ^ 44 then some d else none

def stBusy : Nat := 0x8000000000000001
def stBadEntry : Nat := 0x8000000000000002
def stBadGroup : Nat := 0x8000000000000003
def stBadDesc : Nat := 0x8000000000000004

/-! ### Checks of a submission (R143) -/

def Sub.entry (u : Sub) : Nat := bitsOf u.ctrl 7 0
def Sub.wg (u : Sub) : Nat := bitsOf u.ctrl 10 8
def Sub.flow (u : Sub) : Nat := bitsOf u.ctrl 16 11
def Sub.flowValid (u : Sub) : Bool := u.ctrl.testBit 17
def Sub.startMode (u : Sub) : Nat := bitsOf u.ctrl 19 18
def Sub.isEnq (u : Sub) : Bool := match u.src with | .ctx _ _ _ _ e => e | .host => false
def Sub.isHost (u : Sub) : Bool := match u.src with | .host => true | .ctx .. => false

def timelineRunning (s : State) : Bool := fld Time.FT_STATUS 1 0 s == 2

/-- The first row of R143. -/
def subBadDesc (sl : Nat) (u : Sub) (s : State) : Bool :=
  let m := u.startMode
  bitsOf u.ctrl 23 22 ≠ 0 || m = 3
    || (m = 0 && u.start ≠ 0)
    || (m = 2 && (bitsOf u.start 49 48 = 3 || bitsOf u.start 63 50 ≠ 0))
    || u.tail ≠ 0
    || (u.isEnq && u.image ≠ 0)
    || (u.isHost && !imageValid sl u.image s)
    || (m = 2 && (!timelineRunning s || (sliceAt sl s).cpFrame.isNone))

/-- The image a submission names: the submitter's own for 0. -/
def subImage (u : Sub) (s : State) : Nat :=
  match u.src with
  | .ctx k _ _ _ _ => (ctxAt k s).image
  | .host => u.image

/-- R146: the due time in ns; none: now. -/
def subDue (sl : Nat) (u : Sub) (s : State) : Option Nat :=
  match u.startMode with
  | 0 => none
  | 1 => if u.start = 0 then none else some u.start
  | _ =>
    let m := (sliceAt sl s).cpFrame.getD 0
    let off := bitsOf u.start 31 0
    let k := bitsOf u.start 47 32
    match bitsOf u.start 49 48 with
    | 0 => some (((sliceAt sl s).cpCnt + periodsIn 32 k s) / 2 ^ 32 + off)
    | 1 => some (frameT (m + k) s / 2 ^ 32 + off)
    | _ => some (frameT (m + k) s / 2 ^ 32 + rd (Time.FT_PD_ACTIVE sl) s + off)

def isLater (due : Option Nat) (s : State) : Bool :=
  match due with | none => false | some t => srTime s < t

def flowWindow (sl f : Nat) (s : State) : Nat := min 256 (max 1 (fld (Sched.FLOW_CFG sl f) 16 8 s))
def flowOpen (sl f : Nat) (s : State) : Nat :=
  (rd (Sched.FLOW_NEXT_SEQ sl f) s + 2 ^ 32 - rd (Sched.FLOW_RELEASE_NEXT sl f) s) % 2 ^ 32

/-- The fourth row of R143. -/
def subBusy (sl : Nat) (u : Sub) (s : State) : Bool :=
  freeDesc sl s = 0
    || (u.flowValid && flowWindow sl u.flow s ≤ flowOpen sl u.flow s)
    || (isLater (subDue sl u s) s && 1024 ≤ (delayedOf sl s).length)
    || fld (Sched.WG_CFG sl u.wg) 28 16 s ≤ qCount sl u.wg s

/-- R143: the first failure of a submission; none: accepted. -/
def subCheck (sl : Nat) (u : Sub) (s : State) : Option Nat :=
  let i := subImage u s
  if u.badSpec then some stBadEntry
  else if subBadDesc sl u s then some stBadDesc
  else if fld (Sched.IMG_CFG sl i) 24 16 s ≤ u.entry then some stBadEntry
  else if !bit (Sched.IMG_GROUPS sl i) u.wg s
      || (u.flowValid && (!bit (Sched.IMG_FLOWS sl i) u.flow s || !bit (Sched.FLOW_CFG sl u.flow) 0 s))
    then some stBadGroup
  else if subBusy sl u s then some stBusy
  else none

/-! ### Arrival (R144, R147, R163) -/

def delayInsert (t d : Nat) : List (Nat × Nat) → List (Nat × Nat)
  | [] => [(t, d)]
  | (t', d') :: r => if t < t' then (t, d) :: (t', d') :: r else (t', d') :: delayInsert t d r

/-- A task becomes READY at the tail of its group. -/
def readyTail (sl d : Nat) (s : State) : State :=
  let s := updDesc d (fun e => { e with st := .ready }) s
  let g := (descAt d s).wg
  setQueue sl g (queueOf sl g s ++ [d]) s

/-- R131, R145: a handle is not 0: descriptor 0 is first taken with generation 1 (DESIGN CHOICE, log entry 30). -/
def takenGen (d : Nat) (s : State) : Nat :=
  if descIdx d = 0 ∧ (descAt d s).gen = 0 then 1 else (descAt d s).gen

/-- An accepted submission takes descriptor d, its flow sequence, and its place. -/
def acceptSub (sl : Nat) (u : Sub) (s : State) : Nat × State :=
  let d := descOf sl (firstFree sl s)
  let seq := if u.flowValid then rd (Sched.FLOW_NEXT_SEQ sl u.flow) s else 0
  let due := subDue sl u s
  let later := isLater due s
  let e : Desc := {
    gen := takenGen d s, st := if later then .delayed else .ready,
    entry := u.entry, wg := u.wg, flow := u.flow, flowValid := u.flowValid,
    mirrorTag := u.ctrl.testBit 20, notify := u.ctrl.testBit 21, cost := bitsOf u.ctrl 31 24,
    image := subImage u s, args := u.args, tag := u.tag, seq := seq, due := due.getD 0 }
  let s := setDesc d e s
  let s := if u.flowValid then wr (Sched.FLOW_NEXT_SEQ sl u.flow) ((seq + 1) % 2 ^ 32) s else s
  let s := if freeDesc sl s = 0 then logPer 0x0401 sl oneSecond [] s else s
  let s := if later then
      updSched sl (fun c => { c with delay := delayInsert (due.getD 0) d c.delay }) s
    else readyTail sl d s
  (handleOf d s, s)

/-- R143: a submission is taken: its handle or status. -/
def submit (sl : Nat) (u : Sub) (s : State) : Nat × State :=
  match subCheck sl u s with
  | none => acceptSub sl u s
  | some r => (r, s)

/-! ### Freeing a descriptor (R148, R149) -/

def cqSize (sl : Nat) (s : State) : Nat := 2 ^ (min 6 (fld (Sched.CQ_CFG sl) 6 4 s) + 6)

/-- R148, R149: the completion record of a task that asked for one. -/
def writeCompletion (d : Nat) (s : State) : State :=
  let sl := descSlice d
  let e := descAt d s
  if !e.notify || !bit (Sched.CQ_CFG sl) 0 s then s
  else
    let n := cqSize sl s
    let tail := rd (Sched.CQ_TAIL sl) s
    if (tail + 1) % n = rd (Sched.CQ_HEAD sl) s % n then
      logPer 0x0407 sl oneSecond []
        (orReg (Sched.SCHED_ERR sl) 8 (bump (Sched.CQ_LOST sl) s))
    else
      let rec_ := p8 (handleOf d s) ++ p8 e.tag ++ p1 e.endStatus ++ p1 e.endCause
        ++ p2 (if e.endStatus = 0 then e.endUser else 0) ++ p4 (if e.flowValid then e.seq else 0)
        ++ p8 (srTime s)
      let s := physWrite ⟨0, sl⟩ (rd (Sched.CQ_BASE sl) s + 32 * (tail % n)) rec_ s
      orReg (Sched.INT_STATUS sl) 1 (wr (Sched.CQ_TAIL sl) ((tail + 1) % n) s)

/-- R145, R147: the descriptor is freed. -/
def freeDescriptor (d : Nat) (s : State) : State :=
  let s := writeCompletion d s
  let g := ((descAt d s).gen + 1) % 2 ^ 32
  setDesc d { gen := g } s

/-! ### Ordered flows (R157 to R160) -/

/-- The task of a flow with a sequence, if one holds that slot. -/
def flowTask (sl f q : Nat) (s : State) : Option Nat :=
  (s.descs.find? fun p => descSlice p.1 == sl && p.2.st ≠ .free && p.2.flowValid && p.2.flow == f
    && p.2.seq == q).map Prod.fst

def releaseNext (sl f : Nat) (s : State) : Nat := rd (Sched.FLOW_RELEASE_NEXT sl f) s
/-- R157: the task whose sequence is RELEASE_NEXT. -/
def flowHead (sl f : Nat) (s : State) : Option Nat := flowTask sl f (releaseNext sl f s) s
def isFlowHead (d : Nat) (s : State) : Bool :=
  let e := descAt d s
  e.flowValid && e.seq == releaseNext (descSlice d) e.flow s

def PathEntry.isMark (e : PathEntry) : Bool := match e.item with | .tst _ => false | .commit .. => true

/-- R158: the held tst writes of a task go on the way to the frame store. -/
def drainHeld (d : Nat) (s : State) : State :=
  let h := (descAt d s).held
  let s := updSched (descSlice d) (fun c => { c with path := c.path ++ h.filter fun e => !e.isMark }) s
  updDesc d (fun e => { e with held := h.filter PathEntry.isMark }) s

/-- R128, R158: at its release a task's held tst writes go, and then its tcommits. -/
def drainAll (d : Nat) (s : State) : State :=
  let s := drainHeld d s
  let h := (descAt d s).held
  let s := updSched (descSlice d) (fun c => { c with path := c.path ++ h }) s
  updDesc d (fun e => { e with held := [] }) s

/-- Something of the flow is still on its way. -/
def flowDraining (sl f : Nat) (s : State) : Bool :=
  (schedAt sl s).path.any fun e => e.owner == 64 + f

/-- R158: the slots from RELEASE_NEXT on that need no draining pass: skips, and ended tasks whose
writes have all gone; then the new head's held writes start to drain. -/
def advanceFlow (sl f : Nat) : Nat → State → State
  | 0, s => s
  | n + 1, s =>
    let q := releaseNext sl f s
    let step (s : State) := wr (Sched.FLOW_RELEASE_NEXT sl f) ((q + 1) % 2 ^ 32) s
    if (schedAt sl s).skips.contains (f, q) then
      advanceFlow sl f n (step (updSched sl (fun c => { c with skips := c.skips.filter (· ≠ (f, q)) }) s))
    else match flowTask sl f q s with
      | none => s
      | some d =>
        if (descAt d s).st = .held ∨ (descAt d s).st = .releasing then
          let s := updDesc d (fun e => { e with st := .releasing }) (drainAll d s)
          if flowDraining sl f s then s
          else advanceFlow sl f n (freeDescriptor d (step s))
        else drainHeld d s

/-- R147, R159: a task has ended; its context is already free. -/
def endDescriptor (d : Nat) (s : State) : State :=
  let sl := descSlice d
  let e := descAt d s
  let s := match e.slot with | some i => giveSlot sl i s | none => s
  let s := updDesc d (fun e => { e with slot := none, ctx := none }) s
  if !e.flowValid then freeDescriptor d s
  else
    let s := if e.endStatus = 2 ∨ e.endStatus = 3 ∨ e.endStatus = 4 then
        let policy := bit (Sched.FLOW_CFG sl e.flow) 1 s
        let s := updDesc d (fun e => { e with held := e.held.filter fun h => policy && !h.isMark }) s
        logEv 0x0405 sl (p1 e.flow ++ p4 e.seq ++ p1 e.endStatus ++ p1 (b2n policy)) s
      else s
    advanceFlow sl e.flow 4096 (updDesc d (fun e => { e with st := .held }) s)

/-- R132, R147: a task not yet dispatched is cancelled. -/
def cancelTask (d : Nat) (s : State) : State :=
  let sl := descSlice d
  let e := descAt d s
  let s := setQueue sl e.wg ((queueOf sl e.wg s).filter (· ≠ d)) s
  let s := updSched sl (fun c => { c with
    delay := c.delay.filter (fun p => p.2 ≠ d),
    expired := c.expired.filter (· ≠ d) }) s
  let s := bump (Sched.CANCEL_COUNT sl) (updDesc d (fun e => { e with endStatus := 1 }) s)
  let s := if e.flowValid then updSched sl (fun c => { c with skips := c.skips ++ [(e.flow, e.seq)] }) s
    else s
  let s := freeDescriptor d s
  if e.flowValid then advanceFlow sl e.flow 4096 s else s

/-- R163: F of the frame grid: FRAME_DIV, at most one point a microsecond of the period num / den ns. -/
def gridDiv (num den div : Nat) : Nat := max 1 (min div (num / (1000 * max 1 den)))

/-! ### Giving up a context -/

/-- R82: the data cache of core `core` (8 * slice + core). -/
def dcacheAt (core : Nat) (s : State) : List CacheLine := kget [] core s.dcache
def setDcache (core : Nat) (l : List CacheLine) (s : State) : State :=
  { s with dcache := kset [] core l s.dcache }

/-- Bytes bs put over a line's bytes at offset o. -/
def overlay (o : Nat) (bs line : List Byte) : List Byte :=
  line.take o ++ bs ++ line.drop (o + bs.length)

/-- R82: a store that drains is written through: memory, and the line of its own cache. -/
def drainEntry (k : Nat) (e : StoreEntry) (s : State) : State :=
  let asid := (ctxAt k s).asid
  let upd (l : CacheLine) : CacheLine :=
    if l.asid = asid ∧ l.line = e.pa / 64 then { l with bytes := overlay (e.pa % 64) e.bytes l.bytes }
    else l
  setDcache (k / 4) ((dcacheAt (k / 4) s).map upd) (writeBy (coreReq k e.pa) e.pa e.bytes s)

/-- The oldest store of a context drains. -/
def drainOldest (k : Nat) (s : State) : State :=
  match (ctxAt k s).sbuf with
  | [] => s
  | e :: t => updCtx k (fun c => { c with sbuf := t }) (drainEntry k e s)

/-- R86, R168: what stands in the store buffer drains. -/
def drainStores (k : Nat) (s : State) : State :=
  let s := forAll (drainEntry k) (ctxAt k s).sbuf s
  updCtx k (fun c => { c with sbuf := [] }) s

/-- R82: an acquire: the lines of the context's ASID leave its core's cache. -/
def acquire (k : Nat) (s : State) : State :=
  setDcache (k / 4) ((dcacheAt (k / 4) s).filter fun l => l.asid ≠ (ctxAt k s).asid) s

/-- R97, R95: the tile requests of a context leave their fetchers undelivered. -/
def withdrawTiles (k : Nat) (s : State) : State :=
  let sl := ctxSlice k
  upTo 16 (fun l s =>
    let f := kget {} (16 * sl + l) s.fetchers
    let f := { f with
                      queue := f.queue.filter (fun r => r.ctx ≠ k),
                      taken := f.taken.map fun t => if t.req.ctx = k then { t with withdrawn := true } else t }
    { s with fetchers := kset {} (16 * sl + l) f s.fetchers }) s

/-- Submissions and cancels a context waits for are withdrawn. -/
def withdrawSubs (k : Nat) (s : State) : State :=
  updSched (ctxSlice k) (fun c => { c with
    subs := c.subs.filter (fun u => match u.src with | .ctx j _ _ _ _ => j ≠ k | .host => true),
    cancels := c.cancels.filter (fun p => p.1 ≠ k) }) s

/-- R76: the context becomes FREE; its TLM window keeps its contents (R96). -/
def freeCtx (k : Nat) (s : State) : State := setCtx k {} (withdrawSubs k (withdrawTiles k (drainStores k s)))

/-- A task on a context ends with a status, a cause byte and a user value; the scheduler takes the
ending in its next cycle (R140 step 1). -/
def endOnCtx (k status cause user : Nat) (s : State) : State :=
  let sl := ctxSlice k
  let d := descOf sl (ctxAt k s).desc
  let ic := (ctxAt k s).icount
  let s := freeCtx k s
  let s := updDesc d (fun e => { e with
    endStatus := status, endCause := cause, endUser := user,
    icount := ic, ctx := none }) s
  updSched sl (fun c => { c with endings := c.endings ++ [d] }) s

/-- A task off the contexts (SAVED, FAULT_PENDING) ends. -/
def endSaved (d status cause : Nat) (s : State) : State :=
  let sl := descSlice d
  let e := descAt d s
  let s := setQueue sl e.wg ((queueOf sl e.wg s).filter (· ≠ d)) s
  let s := updSched sl (fun c => { c with requeues := c.requeues.filter (fun p => p.2 ≠ d) }) s
  let s := updDesc d (fun e => { e with endStatus := status, endCause := cause, endUser := 0 }) s
  updSched sl (fun c => { c with endings := c.endings ++ [d] }) s

end Sys2Proof.Machine
end

