-- ==== Sys2Proof/Machine/Save.lean ====
section
/-! DEFINITION. Pre-emption, save and restore (R92 to R95, R153 to R156), and what ends or faults a
context (R85 to R89). -/

namespace Sys2Proof.Machine

def tlmBase : Nat := 0xFFFFFFFF0000
def tlmGuard : Nat := 0xFFFFFFF00000

/-! ### TLM -/

/-- Byte `off` of a context's TLM window. -/
def tlmByte (k off : Nat) (s : State) : Byte := kget 0 (65536 * k + off) s.tlm
def tlmBytes (k off : Nat) : Nat → State → List Byte
  | 0, _ => []
  | n + 1, s => tlmByte k off s :: tlmBytes k (off + 1) n s
def putTlm (k off : Nat) : List Byte → State → State
  | [], s => s
  | b :: t, s => putTlm k (off + 1) t { s with tlm := kset 0 (65536 * k + off) b s.tlm }

/-! ### The save slot (R94) -/

def slotAddr (sl i : Nat) (s : State) : Nat := rd (Sched.SAVE_POOL_BASE sl) s + 0x11000 * i

/-- 16 bytes of a pending tld request: g[ra], then g[rb] with the layer in bits 35..32, and the
valid bit 127 (DEDUCED, log entry 34). -/
def tldBytes (r : TldReq) : List Byte :=
  p8 (tlmBase + r.dst) ++ p8 (r.col + 2 ^ 16 * r.row + 2 ^ 32 * r.layer + 2 ^ 63)

def faultInfo (f : CtxFault) : Nat := f.cause + 2 ^ 8 * f.kind + 2 ^ 12 * f.lane + 2 ^ 17 * b2n f.write

def statusOf (c : Ctx) : Nat := b2n c.sat + 2 * b2n c.restarted + 4 * b2n c.resumed

/-- R94: STATE of a context: WAITING, FAULTED, else READY. -/
def stateCode (c : Ctx) : Nat :=
  match c.fault with
  | some _ => 2 + 8
  | none => if c.wait.isSome then 1 else 0

/-- R94: the first 2,400 bytes of a slot. -/
def stateBytes (c : Ctx) : List Byte :=
  ((List.range 32).flatMap fun r => leBytes 64 (c.getV r).toNat)
    ++ ((List.range 31).flatMap fun r => p8 (c.getG (r + 1)).toNat)
    ++ ((List.range 7).flatMap fun r => p4 (c.getP (r + 1)).toNat)
    ++ p4 (statusOf c) ++ p8 c.pc ++ p4 (stateCode c) ++ p4 c.vrm
    ++ (match c.fault with
        | some f => p8 f.va ++ p4 (faultInfo f)
        | none => p8 0 ++ p4 0)
    ++ (match c.wait with
        | some w => p4 (if w.ev then w.mask else 0) ++ p8 (w.deadline.getD 0)
        | none => p4 0 ++ p8 0)
    ++ ((List.range 2).flatMap fun i =>
        match c.tlds[i]? with
        | some r => tldBytes r
        | none => List.replicate 16 0)

/-- R94: a slot: the state, zeros, and the spilled TLM. -/
def slotBytes (k : Nat) (s : State) : List Byte :=
  let c := ctxAt k s
  stateBytes c ++ List.replicate 1696 0 ++ tlmBytes k 0 c.tlmLimit s

/-- The field of n bytes at offset o. -/
def at_ (o n : Nat) (b : List Byte) : Nat := leNat ((b.drop o).take n)

/-- The registers a slot's first bytes give back; bits 1:0 of the pc are 0 (R70). -/
def loadState (b : List Byte) (c : Ctx) : Ctx :=
  let c := upTo 32 (fun r c => c.setV r (BitVec.ofNat 512 (at_ (64 * r) 64 b))) c
  let c := upTo 31 (fun r c => c.setG (r + 1) (BitVec.ofNat 64 (at_ (0x800 + 8 * r) 8 b))) c
  let c := upTo 7 (fun r c => c.setP (r + 1) (BitVec.ofNat 32 (at_ (0x8F8 + 4 * r) 4 b))) c
  let st := at_ 0x914 4 b
  { c with sat := st.testBit 0, restarted := st.testBit 1, resumed := true,
           pc := at_ 0x918 8 b % 2 ^ 48 / 4 * 4, vrm := at_ 0x924 4 b }

/-! ### Starting and finishing a save (R93, R95) -/

/-- R93 steps 1 to 3: the context stops; a RESUME or faulted save takes a slot. -/
def startSave (k : Nat) (kind : SaveKind) (s : State) : State :=
  let sl := ctxSlice k
  let d := descOf sl (ctxAt k s).desc
  let s := withdrawSubs k (withdrawTiles k s)
  let s := updCtx k (fun c => { c with
    st := .saving, stall := none, miss := none, preempt := none, slotWait := false,
    save := some kind }) s
  match kind with
  | .restart => s
  | _ =>
    let (i, s) := takeSlot sl s
    updDesc d (fun e => { e with slot := some i }) s

/-- R155: no slot is free for a drain: the context goes on until one is. -/
def waitForSlot (k : Nat) (s : State) : State :=
  let sl := ctxSlice k
  let s := updCtx k (fun c => { c with preempt := none, slotWait := true }) s
  let n := min (fld (Sched.SAVE_STATUS sl) 31 16 s + 1) 0xFFFF
  logPer 0x0404 sl oneSecond [] (setFld (Sched.SAVE_STATUS sl) 31 16 n s)

/-- R93, R155: a context that has stopped is saved, or waits for a slot. -/
def saveOrWait (k : Nat) (kind : SaveKind) (s : State) : State :=
  if kind ≠ .restart ∧ freeSlots (ctxSlice k) s = 0 then
    waitForSlot k (updCtx k (fun c => { c with save := none }) s)
  else startSave k kind s

/-- R168: the task of a context that is being saved, or was marked, ends KILLED. -/
def logKilled (d prior : Nat) (s : State) : State :=
  let sl := descSlice d
  logEv 0x0408 sl (p8 (handleOf d s) ++ p1 prior) s

/-- SAVE_COMPLETE (R93): the slot is written, the store buffer has drained, the context is FREE
and the task is requeued; a faulted one is fault-pending (R95); a killed one ends (R168). -/
def saveComplete (k : Nat) (s : State) : State :=
  let sl := ctxSlice k
  let c := ctxAt k s
  let d := descOf sl c.desc
  match c.st, c.save with
  | .saving, some kind =>
    let s := match (descAt d s).slot with
      | some i => writeBy (saveReq k (slotAddr sl i s)) (slotAddr sl i s) (slotBytes k s) s
      | none => s
    let s := updDesc d (fun e => { e with
      ctx := none, icount := c.icount,
      savedWait := if kind = .restart then none else c.wait,
      savedTlds := if kind = .restart then [] else c.tlds,
      savedFault := c.fault,
      restart := e.restart || kind == .restart }) s
    let s := freeCtx k s
    if c.killed then endSaved d 4 0 s
    else match kind with
      | .faulted => updDesc d (fun e => { e with st := .faultPending }) s
      | _ =>
        let s := updDesc d (fun e => { e with st := .saved }) s
        updSched sl (fun q => { q with requeues := q.requeues ++ [(k % 32, d)] }) s
  | _, _ => s

def execSaveComplete (c : CtxId) (s : State) : Host.Outcome State Fault Refusal :=
  atOnce (onCores (saveComplete (ctxNo c))) s

/-! ### Terminations (R87, R89) -/

/-- R89: CUE_EXCEPTION, and the task ends FAULTED (status 2) with its cause code: in the same command,
so that the context is never seen FAULTED (DESIGN CHOICE, log entry 133: R87 gives no time). -/
def terminateExc (k cause kind : Nat) (s : State) : State :=
  let c := ctxAt k s
  let s := logSixteen 0x0440 (ctxSlice k)
    (p1 (ctxCore k) ++ p1 (k % 4) ++ p2 c.desc ++ p8 c.pc ++ p1 cause ++ p1 kind) s
  endOnCtx k 2 cause 0 s

/-- R186: the record a cue context makes. -/
def cueRecord (k kind va lane : Nat) (write fetch : Bool) (s : State) : FaultRec :=
  let c := ctxAt k s
  { va := va, token := 0, source := 0, kind := kind, write := write, fetch := fetch,
    resumable := kind < 2, asid := c.asid, id := ctxCore k + 8 * (k % 4) + 32 * ctxSlice k,
    info := c.desc + 4096 * lane, bytes := 0, time := srTime s }

/-- R87: an exception on a context.  IFETCH_FAULT and DATA_FAULT (causes 2 and 7) make a record
for the MMU fault queue, and are held FAULTED for Renro when their kind can be resumed; every
other exception ends the task. -/
def raiseFault (k cause kind va lane : Nat) (write fetch : Bool) (s : State) : State :=
  let c := ctxAt k s
  let d := descOf (ctxSlice k) c.desc
  let r := cueRecord k kind va lane write fetch s
  if kind < 2 then
    let f : CtxFault := {
      cause := cause, kind := kind, va := va, lane := lane, write := write, fetch := fetch,
      from_ := k % 32, pc := c.pc }
    let s := setCtx k { c with st := .faulted, stall := none, miss := none, fault := some f } s
    postFault (ctxSlice k) r (some (.ctx d (descAt d s).gen)) s
  else terminateExc k cause kind (postFault (ctxSlice k) r (some (.ctx d (descAt d s).gen)) s)

def cMcheck : Nat := 1
def cIfetch : Nat := 2
def cIllegal : Nat := 3
def cPriv : Nat := 4
def cAlign : Nat := 5
def cTlmRange : Nat := 6
def cData : Nat := 7
def cTile : Nat := 8
def cTrap : Nat := 9

def raiseIllegal (k : Nat) (s : State) : State := terminateExc k cIllegal 0 s
def raisePriv (k : Nat) (s : State) : State := terminateExc k cPriv 0 s
def raiseAlign (k : Nat) (s : State) : State := terminateExc k cAlign 0 s
def raiseTlmRange (k : Nat) (s : State) : State := terminateExc k cTlmRange 0 s
def raiseTile (k : Nat) (s : State) : State := terminateExc k cTile 0 s

/-- R89: CUE_MCHECK. -/
def logMcheck (k structure_ : Nat) (s : State) : State :=
  logSixteen 0x0441 (ctxSlice k) (p1 (ctxCore k) ++ p1 (k % 4) ++ p1 structure_) s

/-- R85, R89: an uncorrectable error in a core structure: CUE_MCHECK, and the task ends FAULTED; a
save slot it had taken is free again when the ending is processed. -/
def terminateMcheck (k structure_ : Nat) (s : State) : State :=
  endOnCtx k 2 cMcheck 0 (logMcheck k structure_ s)

/-! ### Restore (R93) -/

/-- R126, R93: a tile request on its way to its fetcher. -/
def sendTld (k : Nat) (r : TldReq) (s : State) : State :=
  let f := 16 * ctxSlice k + r.layer
  let q := kget {} f s.fetchers
  { s with fetchers := kset {} f { q with queue := q.queue ++ [r] } s.fetchers }

/-- R95, R133: the deadline of a wait has passed. -/
def waitOver (w : Option Wait) (s : State) : Bool :=
  match w with
  | some w => match w.deadline with
    | some t => t ≤ srTime s
    | none => false
  | none => false

/-- RESTORE_COMPLETE (R93, R94): a LOADING context of a task with a save slot takes its state back;
an uncorrectable error while restoring is an MCHECK, whose record names structure 0 (DESIGN CHOICE, log
entry 133: R89 gives a slot in DRAM no code). -/
def restoreComplete (k : Nat) (e : Ecc) (s : State) : State :=
  let sl := ctxSlice k
  let c := ctxAt k s
  let d := descOf sl c.desc
  match c.st, (descAt d s).slot with
  | .loading, some i =>
    let a := slotAddr sl i s
    let q := saveReq k a
    let s := meet q (a + 0x1000) c.tlmLimit (meet q a 0x960 (eccEvent e a q s))
    let s := giveSlot sl i (updDesc d (fun e => { e with slot := none }) s)
    if poisoned a 0x960 s || poisoned (a + 0x1000) c.tlmLimit s then terminateMcheck k 0 s
    else
      let q := descAt d s
      let tl := q.savedTlds.map fun r => { r with ctx := k }
      let s := putTlm k 0 (memBytes (a + 0x1000) c.tlmLimit s) s
      let c := loadState (memBytes a 0x960 s) c
      let late := waitOver q.savedWait s
      let c := match q.savedWait with
        | some w => if late then
              ({ c with st := .ready }.setG w.rd 0).retire 4
            else { c with st := .waiting, wait := some w }
        | none => { c with st := .ready }
      let s := setCtx k { c with tlds := tl } s
      let s := updDesc d (fun e => { e with savedWait := none, savedTlds := [], savedFault := none }) s
      let s := { s with issuedAt := kset 0 k s.clk s.issuedAt }
      acquire k (forAll (sendTld k) tl s)
  | _, _ => s

def execRestoreComplete (c : CtxId) (e : Ecc) (s : State) : Host.Outcome State Fault Refusal :=
  atOnce (onCores (restoreComplete (ctxNo c) e)) s

end Sys2Proof.Machine
end

