-- ==== Sys2Proof/Machine/Issue.lean ====
section
/-! DEFINITION. Issuing a cue instruction (R76, R77, R85 to R87, R105, R106): every instruction's
meaning is a body that runs after its words have been fetched. -/

namespace Sys2Proof.Machine

/-- R79: where an access of n bytes at a goes. -/
inductive Space
  | tlm (off : Nat)
  | range
  | mmu
  deriving DecidableEq, Repr

/-- R79, R80: the TLM window and its limit, the guard, or DRAM through the MMU. -/
def spaceOf (limit a n : Nat) : Space :=
  if tlmGuard ≤ a ∧ a < 2 ^ 48 then
    if a < tlmBase ∨ tlmBase + limit < a + n then .range else .tlm (a - tlmBase)
  else .mmu

/-- A core's translation of a data or fetch address; an address above the 48-bit space has no
mapping (DEDUCED, log entry 35). -/
def coreTranslate (k va : Nat) (acc : Acc) (s : State) : Trans × State :=
  if 2 ^ 48 ≤ va then (.fault kNotMapped, s) else translateAs (k / 4) (coreReq k) (ctxAt k s).asid va acc s

/-- R107: the word at va, as the bytes there spell it, is one that chapter 4 lists (ext: it is an
extension word, which may be any). -/
def wordOk (ext : Bool) (w : Nat) : Bool := ext || listedWord (BitVec.ofNat 32 w)

/-- R85, R106, R107: the fetch of one word: none, or the cause and kind of what it raises.  A fetch is an
access: R79 and R80 hold for it, so from the TLM window it reads TLM, and from the guard or above the
limit it raises TLM_RANGE (DEDUCED, log entry 125: R139 lists what data accesses raise). -/
def fetchWord (k va : Nat) (ext : Bool) (s : State) : Option (Nat × Nat) × State :=
  match spaceOf (ctxAt k s).tlmLimit va 4 with
  | .tlm off => (if wordOk ext (leNat (tlmBytes k off 4 s)) then none else some (cIllegal, 0), s)
  | .range => (some (cTlmRange, 0), s)
  | .mmu =>
    match coreTranslate k va .fetch s with
    | (.fault f, s) => (some (cIfetch, f), s)
    | (.pa a, s) =>
      let s := meet (coreReq k a) a 4 s
      (if poisoned a 4 s then some (cIfetch, kEcc)
        else if wordOk ext (memNat a 4 s) then none else some (cIllegal, 0), s)

/-- R106: the words of an instruction of len bytes at pc: what they raise, and its address; a pc
that is not 4-aligned raises ALIGN (R85). -/
def fetch (k len : Nat) (s : State) : Option (Nat × Nat × Nat) × State :=
  let pc := (ctxAt k s).pc
  match fetchWord k pc false s with
  | (some (c, f), s) => (some (c, f, pc), s)
  | (none, s) =>
    if pc % 4 ≠ 0 then (some (cAlign, 0, pc), s)
    else if len = 8 then
      let va := (pc + 4) % 2 ^ 48
      match fetchWord k va true s with
      | (some (c, f), s) => (some (c, f, va), s)
      | (none, s) => (none, s)
    else (none, s)

/-! ### Whose turn it is (R77) -/

/-- Where context k of a core stands in the order c+1, c+2, c+3, c. -/
def turnOf (k : Nat) (s : State) : Nat := (k + 3 - kget 3 (k / 4) s.lastIssue % 4) % 4

/-- No result that context j reads can still be on its way: it issued more than 7 CORE clocks ago
(R110: the longest latency of an instruction that does not stall). -/
def surelyReady (j : Nat) (s : State) : Bool :=
  (ctxAt j s).st == .ready && kget 0 j s.issuedAt + 70 < s.clk

/-- R77: no context before k in the order is READY with its operands: the core takes its next
instruction from k (DEDUCED, log entry 99: one that may still wait for an operand stops no other). -/
def hasTurn (k : Nat) (s : State) : Bool :=
  (List.range 4).all fun i =>
    let j := k / 4 * 4 + i
    !(turnOf j s < turnOf k s && surelyReady j s)

/-- Context k has issued; a wait of its that ended is over for good. -/
def noteIssue (k : Nat) (s : State) : State :=
  { s with
    lastIssue := kset 3 (k / 4) (k % 4) s.lastIssue, issuedAt := kset 0 k s.clk s.issuedAt,
    woke := kset none k none s.woke }

/-- A context issues only when it is READY, its core runs and it is its turn. -/
def canIssue (k : Nat) (s : State) : Bool := (ctxAt k s).st == .ready && coresOn s && hasTurn k s

/-- R85: IFETCH_FAULT before ILLEGAL before ALIGN before what the body raises. -/
def issueAt (k len : Nat) (bad : Bool) (body : Nat → State → State) (s : State) : State :=
  if !canIssue k s then s
  else match fetch k len s with
    | (some (c, f, va), s) =>
      if c = cIfetch then raiseFault k c f va 0 false true s
      else if bad ∧ c = cAlign then raiseIllegal k s
      else terminateExc k c f s
    | (none, s) => if bad then raiseIllegal k (noteIssue k s) else body k (noteIssue k s)

/-- An instruction of len bytes is issued by context c. -/
def issue (c : CtxId) (len : Nat) (bad : Bool) (body : Nat → State → State) (s : State) :
    Host.Outcome State Fault Refusal :=
  atOnce (issueAt (ctxNo c) len bad body) s

/-- An instruction that only changes its own context and retires. -/
def retireWith (len : Nat) (f : Ctx → Ctx) (k : Nat) (s : State) : State :=
  updCtx k (fun c => (f c).retire len) s

/-- R76: a context waits for a cause to clear; pc stays at the instruction. -/
def stallOn (why : StallCause) (k : Nat) (s : State) : State :=
  updCtx k (fun c => { c with st := .stalled, stall := some why }) s

/-! ### TLM interlock (R81) -/

/-- Does an access to n bytes of TLM at off meet a tile delivery still outstanding. -/
def tileHeld (c : Ctx) (off n : Nat) : Bool :=
  c.tlds.any fun r => r.dst < off + n && off < r.dst + 2048

end Sys2Proof.Machine
end

