-- ==== Sys2Proof/Machine/Operands.lean ====
section
/-! DEFINITION. The operand forms of the cue instructions (R70, R71, R105, R111 to R125): register
numbers, immediates, vector lanes, predicates. -/

namespace Sys2Proof.Machine

/-! ### Immediates (R105) -/

def extLen (ext : Option (BitVec 32)) : Nat :=
  match ext with
  | some _ => 8
  | none => 4

/-- The immediate, sign-extended to 64 bits. -/
def immOf (imm10 : BitVec 10) (ext : Option (BitVec 32)) : Word :=
  match ext with
  | some e => e.signExtend 64
  | none => imm10.signExtend 64

/-- R105: with X = 1 the short immediate must be 0. -/
def extBad (imm10 : BitVec 10) (ext : Option (BitVec 32)) : Bool := ext.isSome && imm10 ≠ 0

/-! ### Register fields -/

def gReg (r : Fin 32) (c : Ctx) : Word := c.getG r.val
def vReg (r : Fin 32) (c : Ctx) : BitVec 512 := c.getV r.val
/-- R104: a p register is named by bits [2:0] of its field. -/
def pReg (r : Fin 32) (c : Ctx) : BitVec 32 := c.getP (r.val % 8)
/-- R104: the higher bits of such a field must be 0. -/
def pBad (r : Fin 32) : Bool := 8 ≤ r.val

/-! ### Lanes (R70, R71) -/

/-- Lane i of width w. -/
def lane (w : Nat) (v : BitVec 512) (i : Nat) : Nat := v.toNat / 2 ^ (w * i) % 2 ^ w

/-- The number whose lanes of width w, below n, are f 0 .. f (n-1). -/
def packLanes (w : Nat) (f : Nat → Nat) : Nat → Nat
  | 0 => 0
  | n + 1 => packLanes w f n + f n % 2 ^ w * 2 ^ (w * n)

def laneW (wide : Bool) : Nat := if wide then 32 else 16
def laneN (wide : Bool) : Nat := if wide then 16 else 32

/-- A vector register from its lanes. -/
def vecOf (wide : Bool) (f : Nat → Nat) : BitVec 512 :=
  BitVec.ofNat 512 (packLanes (laneW wide) f (laneN wide))

/-- R71: bit i governs 16-bit lane i; bit 2j governs 32-bit lane j. -/
def laneOn (wide : Bool) (p : BitVec 32) (i : Nat) : Bool := p.getLsbD (if wide then 2 * i else i)

/-- R71: active lanes become f i; every other lane keeps its value. -/
def mapActive (wide : Bool) (p : BitVec 32) (old : BitVec 512) (f : Nat → Nat) : BitVec 512 :=
  vecOf wide fun i => if laneOn wide p i then f i else lane (laneW wide) old i

/-- The active lanes, rising. -/
def activeLanes (wide : Bool) (p : BitVec 32) : List Nat :=
  (List.range (laneN wide)).filter (laneOn wide p)

/-- R118: the second operand of vector arithmetic, lane i. -/
def operandB (c : Ctx) (f : VecAF) (i : Nat) : Nat :=
  let w := laneW f.wide
  if f.scalar then (gReg f.vb c).toNat % 2 ^ w
  else match f.ext with
    | some e => e.toNat % 2 ^ w
    | none => lane w (vReg f.vb c) i

/-- R118: S and X both 1; with X, rb not 0 or, with 16-bit lanes, a high half not 0. -/
def vecABad (f : VecAF) : Bool :=
  match f.ext with
  | none => false
  | some e => f.scalar || f.vb ≠ 0 || (!f.wide && 2 ^ 16 ≤ e.toNat)

end Sys2Proof.Machine
end

