-- ==== Sys2Proof/Machine/Flags.lean ====
section
/-! DEFINITION. What instructions change beside their destination (R108): sr.status.SAT, sr.vrm,
predicates written by compares. -/

namespace Sys2Proof.Machine

/-- R78, R108: SAT is set, never cleared. -/
def satIf (b : Bool) (c : Ctx) : Ctx := { c with sat := c.sat || b }

/-- R78: clamp to 0xFFFF. -/
def clampFx (x : Nat) : Nat := min x 0xFFFF

/-- R119: the predicate a compare writes: with 32-bit lanes both bits of each lane. -/
def compareMask (wide : Bool) (p : BitVec 32) (hit : Nat → Bool) : BitVec 32 :=
  BitVec.ofNat 32 (packLanes 1 (fun b =>
    let i := if wide then b / 2 else b
    b2n (laneOn wide p i && hit i)) 32)

/-- R90: the bit of sr.vrm that records lane i. -/
def vrmBit (wide : Bool) (i : Nat) : Nat := 2 ^ (if wide then 2 * i else i)

def vrmSet (wide : Bool) (i : Nat) (c : Ctx) : Ctx := { c with vrm := c.vrm ||| vrmBit wide i }

end Sys2Proof.Machine
end

