-- ==== Sys2Proof/Machine/Alu.lean ====
section
/-! DEFINITION. Scalar ALU and predicate logic (R111), ALU immediate (R112), multiply (R113). -/

namespace Sys2Proof.Machine

/-! ### Shared operations -/

/-- R111, R113: g[rd] becomes op of g[ra] and g[rb]. -/
def aluReg (c : CtxId) (f : RegF) (bad : Bool) (op : Word → Word → Word) (s : State) :
    Host.Outcome State Fault Refusal :=
  issue c 4 bad (retireWith 4 fun x => x.setG f.rd.val (op (gReg f.ra x) (gReg f.rb x))) s

/-- One-operand forms that state that rb must be 0. -/
def aluOne (c : CtxId) (f : RegF) (op : Word → Word) (s : State) :
    Host.Outcome State Fault Refusal :=
  aluReg c f (f.rb ≠ 0) (fun a _ => op a) s

/-- R112: g[rd] becomes op of g[ra] and the immediate; bad: a check on the immediate. -/
def aluImm (c : CtxId) (f : ImmF) (bad : Word → Bool) (op : Word → Word → Word) (s : State) :
    Host.Outcome State Fault Refusal :=
  let i := immOf f.imm10 f.ext
  issue c (extLen f.ext) (extBad f.imm10 f.ext || bad i)
    (retireWith (extLen f.ext) fun x => x.setG f.rd.val (op (gReg f.ra x) i)) s

/-- R111: predicate logic. -/
def predLogic (c : CtxId) (f : RegF) (op : BitVec 32 → BitVec 32 → BitVec 32) (s : State) :
    Host.Outcome State Fault Refusal :=
  issue c 4 (pBad f.rd || pBad f.ra || pBad f.rb)
    (retireWith 4 fun x => x.setP (f.rd.val % 8) (op (pReg f.ra x) (pReg f.rb x))) s

def boolW (b : Bool) : Word := if b then 1 else 0
def minS (a b : Word) : Word := if a.slt b then a else b
def maxS (a b : Word) : Word := if a.slt b then b else a
def minU (a b : Word) : Word := if a.ult b then a else b
def maxU (a b : Word) : Word := if a.ult b then b else a
/-- Leading zeros; 64 for 0. -/
def clzW (a : Word) : Word := if a = 0 then 64 else BitVec.ofNat 64 (63 - a.toNat.log2)
/-- Trailing zeros; 64 for 0. -/
def ctzW (a : Word) : Word :=
  BitVec.ofNat 64 (((List.range 64).find? fun i => a.getLsbD i).getD 64)
def popcW (a : Word) : Word := BitVec.ofNat 64 ((List.range 64).countP fun i => a.getLsbD i)
def shamt (b : Word) : Nat := b.toNat % 64
def sextW (n : Nat) (a : Word) : Word := (a.truncate n).signExtend 64
/-- The product of two integers, its high 64 bits. -/
def highOf (p : Int) : Word := BitVec.ofInt 64 (p / 2 ^ 64)

/-! ### Major 0x00 (R111) -/

def execAdd (c : CtxId) (f : RegF) (s : State) : Host.Outcome State Fault Refusal :=
  aluReg c f false (fun a b => a + b) s

def execSub (c : CtxId) (f : RegF) (s : State) : Host.Outcome State Fault Refusal :=
  aluReg c f false (fun a b => a - b) s

def execAnd (c : CtxId) (f : RegF) (s : State) : Host.Outcome State Fault Refusal :=
  aluReg c f false (fun a b => a &&& b) s

def execOr (c : CtxId) (f : RegF) (s : State) : Host.Outcome State Fault Refusal :=
  aluReg c f false (fun a b => a ||| b) s

def execXor (c : CtxId) (f : RegF) (s : State) : Host.Outcome State Fault Refusal :=
  aluReg c f false (fun a b => a ^^^ b) s

def execAndn (c : CtxId) (f : RegF) (s : State) : Host.Outcome State Fault Refusal :=
  aluReg c f false (fun a b => a &&& ~~~b) s

def execSll (c : CtxId) (f : RegF) (s : State) : Host.Outcome State Fault Refusal :=
  aluReg c f false (fun a b => a <<< shamt b) s

def execSrl (c : CtxId) (f : RegF) (s : State) : Host.Outcome State Fault Refusal :=
  aluReg c f false (fun a b => a >>> shamt b) s

def execSra (c : CtxId) (f : RegF) (s : State) : Host.Outcome State Fault Refusal :=
  aluReg c f false (fun a b => a.sshiftRight (shamt b)) s

def execSlt (c : CtxId) (f : RegF) (s : State) : Host.Outcome State Fault Refusal :=
  aluReg c f false (fun a b => boolW (a.slt b)) s

def execSltu (c : CtxId) (f : RegF) (s : State) : Host.Outcome State Fault Refusal :=
  aluReg c f false (fun a b => boolW (a.ult b)) s

def execMin (c : CtxId) (f : RegF) (s : State) : Host.Outcome State Fault Refusal :=
  aluReg c f false (minS) s

def execMinu (c : CtxId) (f : RegF) (s : State) : Host.Outcome State Fault Refusal :=
  aluReg c f false (minU) s

def execMax (c : CtxId) (f : RegF) (s : State) : Host.Outcome State Fault Refusal :=
  aluReg c f false (maxS) s

def execMaxu (c : CtxId) (f : RegF) (s : State) : Host.Outcome State Fault Refusal :=
  aluReg c f false (maxU) s

def execClz (c : CtxId) (f : RegF) (s : State) : Host.Outcome State Fault Refusal :=
  aluOne c f (clzW) s

def execCtz (c : CtxId) (f : RegF) (s : State) : Host.Outcome State Fault Refusal :=
  aluOne c f (ctzW) s

def execPopc (c : CtxId) (f : RegF) (s : State) : Host.Outcome State Fault Refusal :=
  aluOne c f (popcW) s

def execSextB (c : CtxId) (f : RegF) (s : State) : Host.Outcome State Fault Refusal :=
  aluOne c f (sextW 8) s

/-- R111 states no value for rb of sext.h, sext.w and zext.w: it is not looked at (DEDUCED, log entry 36). -/
def execSextH (c : CtxId) (f : RegF) (s : State) : Host.Outcome State Fault Refusal :=
  aluReg c f false (fun a _ => sextW 16 a) s

def execSextW (c : CtxId) (f : RegF) (s : State) : Host.Outcome State Fault Refusal :=
  aluReg c f false (fun a _ => sextW 32 a) s

def execZextW (c : CtxId) (f : RegF) (s : State) : Host.Outcome State Fault Refusal :=
  aluReg c f false (fun a _ => (a.truncate 32).zeroExtend 64) s

/-- mtp: p[pd] becomes g[ra][31:0]. -/
def execMtp (c : CtxId) (f : RegF) (s : State) : Host.Outcome State Fault Refusal :=
  issue c 4 (pBad f.rd || f.rb ≠ 0)
    (retireWith 4 fun x => x.setP (f.rd.val % 8) ((gReg f.ra x).truncate 32)) s

/-- mfp: g[rd] becomes p[pa], zero-extended. -/
def execMfp (c : CtxId) (f : RegF) (s : State) : Host.Outcome State Fault Refusal :=
  issue c 4 (pBad f.ra || f.rb ≠ 0)
    (retireWith 4 fun x => x.setG f.rd.val ((pReg f.ra x).zeroExtend 64)) s

def execPand (c : CtxId) (f : RegF) (s : State) : Host.Outcome State Fault Refusal :=
  predLogic c f (fun a b => a &&& b) s

def execPor (c : CtxId) (f : RegF) (s : State) : Host.Outcome State Fault Refusal :=
  predLogic c f (fun a b => a ||| b) s

def execPxor (c : CtxId) (f : RegF) (s : State) : Host.Outcome State Fault Refusal :=
  predLogic c f (fun a b => a ^^^ b) s

def execPandn (c : CtxId) (f : RegF) (s : State) : Host.Outcome State Fault Refusal :=
  predLogic c f (fun a b => a &&& ~~~b) s

/-! ### Major 0x01 (R112) -/

def anyImm (_ : Word) : Bool := false
/-- imm[63:6] must be 0. -/
def badShift (i : Word) : Bool := 64 ≤ i.toNat

def execAddi (c : CtxId) (f : ImmF) (s : State) : Host.Outcome State Fault Refusal :=
  aluImm c f anyImm (fun a i => a + i) s

def execAndi (c : CtxId) (f : ImmF) (s : State) : Host.Outcome State Fault Refusal :=
  aluImm c f anyImm (fun a i => a &&& i) s

def execOri (c : CtxId) (f : ImmF) (s : State) : Host.Outcome State Fault Refusal :=
  aluImm c f anyImm (fun a i => a ||| i) s

def execXori (c : CtxId) (f : ImmF) (s : State) : Host.Outcome State Fault Refusal :=
  aluImm c f anyImm (fun a i => a ^^^ i) s

def execSlti (c : CtxId) (f : ImmF) (s : State) : Host.Outcome State Fault Refusal :=
  aluImm c f anyImm (fun a i => boolW (a.slt i)) s

def execSltiu (c : CtxId) (f : ImmF) (s : State) : Host.Outcome State Fault Refusal :=
  aluImm c f anyImm (fun a i => boolW (a.ult i)) s

def execSlli (c : CtxId) (f : ImmF) (s : State) : Host.Outcome State Fault Refusal :=
  aluImm c f badShift (fun a i => a <<< shamt i) s

def execSrli (c : CtxId) (f : ImmF) (s : State) : Host.Outcome State Fault Refusal :=
  aluImm c f badShift (fun a i => a >>> shamt i) s

def execSrai (c : CtxId) (f : ImmF) (s : State) : Host.Outcome State Fault Refusal :=
  aluImm c f badShift (fun a i => a.sshiftRight (shamt i)) s

def execOrhi (c : CtxId) (f : ImmF) (s : State) : Host.Outcome State Fault Refusal :=
  aluImm c f anyImm (fun a i => (a.truncate 32).zeroExtend 64 ||| i <<< 32) s

/-! ### Major 0x02 (R113) -/

def execMul (c : CtxId) (f : RegF) (s : State) : Host.Outcome State Fault Refusal :=
  aluReg c f false (fun a b => a * b) s

def execMulh (c : CtxId) (f : RegF) (s : State) : Host.Outcome State Fault Refusal :=
  aluReg c f false (fun a b => highOf (a.toInt * b.toInt)) s

def execMulhu (c : CtxId) (f : RegF) (s : State) : Host.Outcome State Fault Refusal :=
  aluReg c f false (fun a b => highOf (a.toNat * b.toNat : Nat)) s

def execMulhsu (c : CtxId) (f : RegF) (s : State) : Host.Outcome State Fault Refusal :=
  aluReg c f false (fun a b => highOf (a.toInt * (b.toNat : Int))) s

end Sys2Proof.Machine
end

