-- ==== Sys2Proof/Machine/Branch.lean ====
section
/-! DEFINITION. Branch (R114), call and return (R115), and the ending of a task (R97). -/

namespace Sys2Proof.Machine

/-- R82, R97: done, or a transfer to address 0: the release first, then the task ends DONE with
g4[15:0]. -/
def endTask (k : Nat) (s : State) : State :=
  let c := ctxAt k s
  if c.sbuf.isEmpty then endOnCtx k 0 0 ((c.getG 4).toNat % 65536) s else stallOn .release k s

/-- R114, R115: control goes to t, with a link register written (0: none). -/
def transfer (t : Word) (rd : Nat) (link : Word) (k : Nat) (s : State) : State :=
  if t = 0 then endTask k s
  else if t.toNat % 4 ≠ 0 ∨ 2 ^ 48 ≤ t.toNat then raiseAlign k s
  else updCtx k (fun c => { (c.setG rd link).retire 0 with pc := t.toNat }) s

/-- R114: pc + 4 x off. -/
def pcPlus (off : Word) (k : Nat) (s : State) : Word := BitVec.ofNat 64 (ctxAt k s).pc + 4 * off

/-- R114: a branch checks its target only when it is taken. -/
def branch (c : CtxId) (f : BrF) (bad : Bool) (taken : Ctx → Bool) (s : State) :
    Host.Outcome State Fault Refusal :=
  let len := extLen f.ext
  issue c len (extBad f.off10 f.ext || bad) (fun k s =>
    if taken (ctxAt k s) then transfer (pcPlus (immOf f.off10 f.ext) k s) 0 0 k s
    else retireWith len id k s) s

def branchG (c : CtxId) (f : BrF) (cond : Word → Word → Bool) (s : State) :
    Host.Outcome State Fault Refusal :=
  branch c f false (fun x => cond (gReg f.ra x) (gReg f.rb x)) s

def branchP (c : CtxId) (f : BrF) (cond : BitVec 32 → Bool) (s : State) :
    Host.Outcome State Fault Refusal :=
  branch c f (pBad f.ra || f.rb ≠ 0) (fun x => cond (pReg f.ra x)) s

def execBeq (c : CtxId) (f : BrF) (s : State) : Host.Outcome State Fault Refusal :=
  branchG c f (fun a b => a == b) s
def execBne (c : CtxId) (f : BrF) (s : State) : Host.Outcome State Fault Refusal :=
  branchG c f (fun a b => a != b) s
def execBlt (c : CtxId) (f : BrF) (s : State) : Host.Outcome State Fault Refusal :=
  branchG c f (fun a b => a.slt b) s
def execBge (c : CtxId) (f : BrF) (s : State) : Host.Outcome State Fault Refusal :=
  branchG c f (fun a b => !a.slt b) s
def execBltu (c : CtxId) (f : BrF) (s : State) : Host.Outcome State Fault Refusal :=
  branchG c f (fun a b => a.ult b) s
def execBgeu (c : CtxId) (f : BrF) (s : State) : Host.Outcome State Fault Refusal :=
  branchG c f (fun a b => !a.ult b) s
def execBpany (c : CtxId) (f : BrF) (s : State) : Host.Outcome State Fault Refusal :=
  branchP c f (fun p => p != 0) s
def execBpall (c : CtxId) (f : BrF) (s : State) : Host.Outcome State Fault Refusal :=
  branchP c f (fun p => p == 0xFFFFFFFF) s
def execBpnone (c : CtxId) (f : BrF) (s : State) : Host.Outcome State Fault Refusal :=
  branchP c f (fun p => p == 0) s

/-- pc + len. -/
def linkOf (len k : Nat) (s : State) : Word := BitVec.ofNat 64 ((ctxAt k s).pc + len)

/-- call (R115): ra must be 0. -/
def execCall (c : CtxId) (f : ImmF) (s : State) : Host.Outcome State Fault Refusal :=
  let len := extLen f.ext
  issue c len (extBad f.imm10 f.ext || f.ra ≠ 0) (fun k s =>
    transfer (pcPlus (immOf f.imm10 f.ext) k s) f.rd.val (linkOf len k s) k s) s

/-- callr (R115). -/
def execCallr (c : CtxId) (f : ImmF) (s : State) : Host.Outcome State Fault Refusal :=
  let len := extLen f.ext
  issue c len (extBad f.imm10 f.ext) (fun k s =>
    transfer (gReg f.ra (ctxAt k s) + 4 * immOf f.imm10 f.ext) f.rd.val (linkOf len k s) k s) s

/-- jr (R115): rd and the immediate must be 0. -/
def execJr (c : CtxId) (f : ImmF) (s : State) : Host.Outcome State Fault Refusal :=
  issue c (extLen f.ext) (f.rd ≠ 0 || extBad f.imm10 f.ext || immOf f.imm10 f.ext ≠ 0) (fun k s =>
    transfer (gReg f.ra (ctxAt k s)) 0 0 k s) s

end Sys2Proof.Machine
end

