-- ==== Sys2Proof/Machine/CueMem.lean ====
section
/-! DEFINITION. Scalar loads and stores (R116), atomics (R117), the data cache and the store buffer
(R82), and the steps that end their stalls. -/

namespace Sys2Proof.Machine

/-! ### Own stores and the data cache (R82) -/

/-- The byte a store buffer holds for address a: the youngest store prevails. -/
def bufferedByte (sb : List StoreEntry) (a : Nat) : Option Byte :=
  sb.foldl (fun acc e => if e.pa ≤ a ∧ a < e.pa + e.bytes.length then e.bytes[a - e.pa]? else acc) none

/-- R82: a context observes its own stores: they stand over what memory or the cache gives. -/
def withBuffered (sb : List StoreEntry) (a : Nat) : List Byte → List Byte
  | [] => []
  | b :: t => (bufferedByte sb a).getD b :: withBuffered sb (a + 1) t

/-- The bytes a load finds without memory: wholly in the store buffer, or in a line the data cache
holds.  A line that no longer agrees with memory may have left the cache: a free value says
(DEDUCED, log entry 37). -/
def cachedBytes (k a n : Nat) (s : State) : Option (List Byte) × State :=
  let c := ctxAt k s
  let mem := memBytes a n s
  if (List.range n).all fun i => (bufferedByte c.sbuf (a + i)).isSome then
    (some (withBuffered c.sbuf a mem), s)
  else match (dcacheAt (k / 4) s).find? fun l => l.asid = c.asid ∧ l.line = a / 64 with
    | none => (none, s)
    | some l =>
      let got := (l.bytes.drop (a % 64)).take n
      if got = mem then (some (withBuffered c.sbuf a got), s)
      else
        let (f, s) := fresh s
        if f.getLsbD 0 then (some (withBuffered c.sbuf a got), s)
        else (none, setDcache (k / 4) ((dcacheAt (k / 4) s).filter (· ≠ l)) s)

/-- A line read from memory stands in the cache. -/
def fillLine (k line : Nat) (s : State) : State :=
  let asid := (ctxAt k s).asid
  let old := (dcacheAt (k / 4) s).filter fun l => !(l.asid == asid && l.line == line)
  setDcache (k / 4) (⟨asid, line, memBytes (64 * line) 64 s⟩ :: old) s

/-! ### Values -/

/-- The bytes of a scalar load, extended. -/
def extend (signed : Bool) (bs : List Byte) : Word :=
  let n := 8 * bs.length
  if signed then BitVec.ofInt 64 (sgn n (leNat bs)) else BitVec.ofNat 64 (leNat bs)

/-- One lane of a load lands. -/
def landLane (m : Miss) (i : Nat) (bs : List Byte) (c : Ctx) : Ctx :=
  if m.vec then
    let wide := m.size = 4
    let v := c.getV m.rd
    vrmSet wide i (c.setV m.rd (vecOf wide fun j => if j = i then leNat bs else lane (laneW wide) v j))
  else c.setG m.rd (extend m.signed bs)

/-- The load is complete: sr.vrm is 0 again (R90) and the instruction retires. -/
def finishLoad (m : Miss) (c : Ctx) : Ctx :=
  let c := { c with st := .ready, stall := none, miss := none }
  (if m.vec then { c with vrm := 0 } else c).retire m.len

/-! ### Effective addresses (R116) -/

def eaOf (f : ImmF) (c : Ctx) : Nat := (gReg f.ra c + immOf f.imm10 f.ext).toNat

/-- R81: an access to TLM waits for the delivery it meets. -/
def tileStall (k off n : Nat) (s : State) : Option State :=
  match (ctxAt k s).tlds.find? fun r => r.dst < off + n && off < r.dst + 2048 with
  | some r => some (stallOn (.tile r.dst) k s)
  | none => none

/-! ### Misses outstanding (R110) -/

/-- R110: a core has 8 misses outstanding; each is a line of 64 bytes that a context asked for. -/
def missLimit : Nat := 8

/-- The lines whose data a context still awaits. -/
def missLines (c : Ctx) : List Nat :=
  match c.miss with
  | some m => (m.lanes.map fun l => l.2.2 / 64).eraseDups
  | none => []

def coreMisses (core : Nat) (s : State) : Nat :=
  ((List.range 4).map fun i => (missLines (ctxAt (4 * core + i) s)).length).sum

/-- The lanes that can leave the core, in order, with `room` more lines and the lines already asked
for, and those that stay. -/
def leaving (room : Nat) (lines : List Nat) :
    List (Nat × Nat × Nat) → List (Nat × Nat × Nat) × List (Nat × Nat × Nat)
  | [] => ([], [])
  | l :: t =>
    if lines.contains (l.2.2 / 64) then
      let r := leaving room lines t
      (l :: r.1, r.2)
    else if room = 0 then ([], l :: t)
    else
      let r := leaving (room - 1) (l.2.2 / 64 :: lines) t
      (l :: r.1, r.2)

/-- Lanes of context k that wait in the core leave it as far as the limit allows. -/
def pumpCtx (k : Nat) (s : State) : State :=
  match (ctxAt k s).miss with
  | none => s
  | some m =>
    let r := leaving (missLimit - coreMisses (k / 4) s) (m.lanes.map fun l => l.2.2 / 64) m.queued
    updCtx k (fun c => { c with miss := some { m with lanes := m.lanes ++ r.1, queued := r.2 } }) s

def pumpCore (core : Nat) (s : State) : State := upTo 4 (fun i s => pumpCtx (4 * core + i) s) s

/-- R76, R110: a load waits for lanes that missed. -/
def awaitLanes (m : Miss) (ls : List (Nat × Nat × Nat)) (k : Nat) (s : State) : State :=
  pumpCtx k (updCtx k (fun c => { c with
    st := .stalled, stall := some .loadMiss,
    miss := some { m with lanes := [], queued := ls, at_ := s.clk } }) s)

/-- A scalar load of size bytes at ea. -/
def loadAt (m : Miss) (ea : Nat) (k : Nat) (s : State) : State :=
  if ea % m.size ≠ 0 then raiseAlign k s
  else match spaceOf (ctxAt k s).tlmLimit ea m.size with
    | .range => raiseTlmRange k s
    | .tlm off =>
      match tileStall k off m.size s with
      | some t => t
      | none => updCtx k (fun c => finishLoad m (landLane m 0 (tlmBytes k off m.size s) c)) s
    | .mmu =>
      match coreTranslate k ea .read s with
      | (.fault f, s) => raiseFault k cData f ea 0 false false s
      | (.pa a, s) =>
        match cachedBytes k a m.size s with
        | (some bs, s) => updCtx k (fun c => finishLoad m (landLane m 0 bs c)) s
        | (none, s) => awaitLanes m [(0, ea, a)] k s

def scalarLoad (c : CtxId) (f : ImmF) (size : Nat) (signed : Bool) (s : State) :
    Host.Outcome State Fault Refusal :=
  let len := extLen f.ext
  issue c len (extBad f.imm10 f.ext) (fun k s =>
    loadAt { rd := f.rd.val, vec := false, size := size, signed := signed, len := len, lanes := [] } (eaOf f (ctxAt k s)) k s) s

/-- A store of bytes at ea. -/
def storeAt (len : Nat) (bs : List Byte) (ea : Nat) (k : Nat) (s : State) : State :=
  let n := bs.length
  if ea % n ≠ 0 then raiseAlign k s
  else match spaceOf (ctxAt k s).tlmLimit ea n with
    | .range => raiseTlmRange k s
    | .tlm off =>
      match tileStall k off n s with
      | some t => t
      | none => retireWith len id k (putTlm k off bs s)
    | .mmu =>
      match coreTranslate k ea .write s with
      | (.fault f, s) => raiseFault k cData f ea 0 true false s
      | (.pa a, s) =>
        if 8 ≤ (ctxAt k s).sbuf.length then stallOn .storeBuf k s
        else retireWith len (fun c => { c with sbuf := c.sbuf ++ [⟨a, bs, s.clk⟩] }) k s

def scalarStore (c : CtxId) (f : ImmF) (size : Nat) (s : State) :
    Host.Outcome State Fault Refusal :=
  let len := extLen f.ext
  issue c len (extBad f.imm10 f.ext) (fun k s =>
    let x := ctxAt k s
    storeAt len (leBytes size (gReg f.rd x).toNat) (eaOf f x) k s) s

/-! ### Major 0x08 and 0x09 (R116) -/

def execLdB (c : CtxId) (f : ImmF) (s : State) : Host.Outcome State Fault Refusal :=
  scalarLoad c f 1 true s
def execLdBu (c : CtxId) (f : ImmF) (s : State) : Host.Outcome State Fault Refusal :=
  scalarLoad c f 1 false s
def execLdH (c : CtxId) (f : ImmF) (s : State) : Host.Outcome State Fault Refusal :=
  scalarLoad c f 2 true s
def execLdHu (c : CtxId) (f : ImmF) (s : State) : Host.Outcome State Fault Refusal :=
  scalarLoad c f 2 false s
def execLdW (c : CtxId) (f : ImmF) (s : State) : Host.Outcome State Fault Refusal :=
  scalarLoad c f 4 true s
def execLdWu (c : CtxId) (f : ImmF) (s : State) : Host.Outcome State Fault Refusal :=
  scalarLoad c f 4 false s
def execLdD (c : CtxId) (f : ImmF) (s : State) : Host.Outcome State Fault Refusal :=
  scalarLoad c f 8 false s
def execStB (c : CtxId) (f : ImmF) (s : State) : Host.Outcome State Fault Refusal :=
  scalarStore c f 1 s
def execStH (c : CtxId) (f : ImmF) (s : State) : Host.Outcome State Fault Refusal :=
  scalarStore c f 2 s
def execStW (c : CtxId) (f : ImmF) (s : State) : Host.Outcome State Fault Refusal :=
  scalarStore c f 4 s
def execStD (c : CtxId) (f : ImmF) (s : State) : Host.Outcome State Fault Refusal :=
  scalarStore c f 8 s

/-! ### Major 0x0A (R117) -/

/-- R117: checked at issue; the request then leaves for the controller of the address, and the
context waits for it. -/
def amo (op : Nat) (c : CtxId) (f : AmoF) (s : State) : Host.Outcome State Fault Refusal :=
  issue c 4 (f.z ≠ 0) (fun k s =>
    let x := ctxAt k s
    let a := (gReg f.ra x).toNat
    let n := if f.dbl then 8 else 4
    if a % n ≠ 0 then raiseAlign k s
    else if tlmGuard ≤ a ∧ a < 2 ^ 48 then raiseTlmRange k s
    else match coreTranslate k a .atomic s with
      | (.fault fk, s) => raiseFault k cData fk a 0 true false s
      | (.pa p, s) =>
        updCtx k (fun x => { x with
          st := .stalled, stall := some .atomic,
          atomic := some ⟨op, f.rd.val, f.dbl, p, a, gReg f.rb x, gReg f.rd x, s.clk⟩ }) s) s

def execAmoSwap (c : CtxId) (f : AmoF) (s : State) : Host.Outcome State Fault Refusal := amo 0 c f s
def execAmoAdd (c : CtxId) (f : AmoF) (s : State) : Host.Outcome State Fault Refusal := amo 1 c f s
def execAmoAnd (c : CtxId) (f : AmoF) (s : State) : Host.Outcome State Fault Refusal := amo 2 c f s
def execAmoOr (c : CtxId) (f : AmoF) (s : State) : Host.Outcome State Fault Refusal := amo 3 c f s
def execAmoXor (c : CtxId) (f : AmoF) (s : State) : Host.Outcome State Fault Refusal := amo 4 c f s
def execAmoMin (c : CtxId) (f : AmoF) (s : State) : Host.Outcome State Fault Refusal := amo 5 c f s
def execAmoMax (c : CtxId) (f : AmoF) (s : State) : Host.Outcome State Fault Refusal := amo 6 c f s
def execAmoMinu (c : CtxId) (f : AmoF) (s : State) : Host.Outcome State Fault Refusal := amo 7 c f s
def execAmoMaxu (c : CtxId) (f : AmoF) (s : State) : Host.Outcome State Fault Refusal := amo 8 c f s
def execCas (c : CtxId) (f : AmoF) (s : State) : Host.Outcome State Fault Refusal := amo 9 c f s

/-- R117: what memory becomes, on operands of w bits. -/
def amoResult (op w old b cmp : Nat) : Nat :=
  let pick (p : Bool) := if p then old else b
  match op with
  | 0 => b
  | 1 => (old + b) % 2 ^ w
  | 2 => old &&& b
  | 3 => old ||| b
  | 4 => old ^^^ b
  | 5 => pick (sgn w old ≤ sgn w b)
  | 6 => pick (sgn w b ≤ sgn w old)
  | 7 => pick (old ≤ b)
  | 8 => pick (b ≤ old)
  | _ => if old = cmp then b else old

/-- Is a store in the buffer to any of n bytes at a. -/
def overlaps (a n : Nat) (e : StoreEntry) : Bool := e.pa < a + n && a < e.pa + e.bytes.length

/-- The context's own stores to the word, and those before them, drain first (R82). -/
def drainFor (k a n : Nat) : Nat → State → State
  | 0, s => s
  | j + 1, s =>
    if (ctxAt k s).sbuf.any (overlaps a n) then drainFor k a n j (drainOldest k s) else s

/-- R93, R168: what waited for the atomic: a kill ends the task, a pre-emption saves it. -/
def afterAtomic (k : Nat) (s : State) : State :=
  let c := ctxAt k s
  if c.killed then endOnCtx k 4 0 0 s
  else match c.st, c.save with
    | .ready, some kind => saveOrWait k kind s
    | _, _ => s

/-- ATOMIC_COMPLETE (R117): the controller performs the atomic and its old value returns; e is
what its ECC finds. -/
def atomicComplete (k : Nat) (e : Ecc) (s : State) : State :=
  match (ctxAt k s).atomic with
  | none => s
  | some q =>
    let n := if q.dbl then 8 else 4
    let w := 8 * n
    let s := drainFor k q.pa n 8 s
    let s := meet (coreReq k q.pa) q.pa n (eccEvent e q.pa (coreReq k q.pa) s)
    let s := updCtx k (fun c => { c with atomic := none }) s
    let s := if poisoned q.pa n s then raiseFault k cData kEcc q.va 0 true false s
      else
        let old := memNat q.pa n s
        let new := amoResult q.op w old (q.b.toNat % 2 ^ w) (q.cmp.toNat % 2 ^ w)
        let s := if q.op = 9 ∧ old ≠ q.cmp.toNat % 2 ^ w then s
          else writeBy (coreReq k q.pa) q.pa (leBytes n new) s
        let s := setDcache (k / 4) ((dcacheAt (k / 4) s).filter fun l => l.line ≠ q.pa / 64) s
        updCtx k (fun c => (({ c with st := .ready, stall := none }).setG q.rd
          (BitVec.ofInt 64 (sgn w old))).retire 4) s
    afterAtomic k s

def execAtomicComplete (c : CtxId) (e : Ecc) (s : State) : Host.Outcome State Fault Refusal :=
  atOnce (onCores (atomicComplete (ctxNo c) e)) s

/-! ### Returns, drains and stalls -/

/-- The data of the lanes of a load return, as far as they were asked for. -/
def lanesReturn (k : Nat) (e : Ecc) (s : State) : State :=
  match (ctxAt k s).miss with
  | none => s
  | some m =>
    let s := match m.lanes with
      | (_, _, a) :: _ => eccEvent e a (coreReq k a) s
      | [] => s
    let s := forAll (fun l s => meet (coreReq k l.2.2) l.2.2 m.size s) m.lanes s
    let bad := m.lanes.filter fun l => poisoned l.2.2 m.size s
    let good := m.lanes.filter fun l => !poisoned l.2.2 m.size s
    let s := forAll (fun l s =>
      let s := fillLine k (l.2.2 / 64) s
      let bs := withBuffered (ctxAt k s).sbuf l.2.2 (memBytes l.2.2 m.size s)
      updCtx k (landLane m l.1 bs) s) good s
    match bad with
    | [] =>
      if m.queued.isEmpty then updCtx k (finishLoad m) s
      else updCtx k (fun c => { c with miss := some { m with lanes := [] } }) s
    | l :: _ => raiseFault k cData kEcc l.2.1 l.1 false false s

/-- LOAD_MISS_RETURN (R77, R82): the data of a load that missed; an uncorrectable line is a
DATA_FAULT of kind ECC at the lowest lane it hits (R175).  Lanes that waited for one of the core's
8 misses (R110) are asked for first. -/
def loadMissReturn (k : Nat) (e : Ecc) (s : State) : State := lanesReturn k e (pumpCore (k / 4) s)

def execLoadMissReturn (c : CtxId) (e : Ecc) (s : State) : Host.Outcome State Fault Refusal :=
  atOnce (onCores (loadMissReturn (ctxNo c) e)) s

/-- STORE_DRAIN (R82): the oldest store reaches its controller and becomes visible. -/
def execStoreDrain (c : CtxId) (s : State) : Host.Outcome State Fault Refusal :=
  atOnce (onCores (drainOldest (ctxNo c))) s

/-! ### Turns at a check-value unit (R137) -/

/-- Context k's place in the order in which operations reached unit u, if it waits for it. -/
def crcPlace (u k : Nat) (s : State) : Option Nat :=
  let c := ctxAt k s
  match kget none k s.crcTurns with
  | some t =>
    if t.unit = u ∧ t.dispatchNo = c.dispatchNo ∧ t.icount = c.icount
        ∧ (c.st = .ready ∨ c.stall = some (.crcBusy u)) then some t.at_ else none
  | none => none

/-- Is an operation of context k kept from unit u: it is busy, or an operation that reached it
before, or on the same clock from a lower core or context, waits for it. -/
def crcHeld (u k : Nat) (s : State) : Bool :=
  let mine := (crcPlace u k s).getD s.clk
  crcIsBusy u s || (List.range 128).any fun j =>
    match crcPlace u j s with
    | some t => j ≠ k && (t < mine || (t == mine && decide (j < k)))
    | none => false

/-- The operation of context k has reached unit u and waits. -/
def crcWaits (u k : Nat) (s : State) : State :=
  let c := ctxAt k s
  let t := (crcPlace u k s).getD s.clk
  stallOn (.crcBusy u) k { s with crcTurns := kset none k (some ⟨u, t, c.dispatchNo, c.icount⟩) s.crcTurns }

/-- The operation of context k is accepted. -/
def crcTaken (k : Nat) (s : State) : State := { s with crcTurns := kset none k none s.crcTurns }

/-- R76: has the cause of a stall cleared.  (Loads, atomics and submissions clear by steps of
their own.) -/
def stallCleared (k : Nat) (w : StallCause) (s : State) : Bool :=
  let c := ctxAt k s
  let sl := ctxSlice k
  match w with
  | .storeBuf => c.sbuf.length < 8
  | .release => c.sbuf.isEmpty
  | .tile dst => c.tlds.all fun r => r.dst ≠ dst
  | .tldFull => c.tlds.length < 2
  | .relBuf need => relBufUsed sl s + need ≤ relBufSize || isFlowHead (descOf sl c.desc) s
  | .tstPath => true
  | .crcBusy u => !crcHeld u k s
  | .loadMiss => false
  | .atomic => false
  | .submit => false
  | .submitBusy => false

/-- CONTEXT_STALL_CLEAR (R76): the context becomes READY, and its instruction at pc is executed
again. -/
def stallClear (k : Nat) (s : State) : State :=
  match (ctxAt k s).st, (ctxAt k s).stall with
  | .stalled, some w =>
    if stallCleared k w s then updCtx k (fun c => { c with st := .ready, stall := none }) s else s
  | _, _ => s

/-- A busy CRC unit is waited for. -/
def stallHop (k : Nat) (s : State) : State :=
  match (ctxAt k s).stall with
  | some (.crcBusy u) => hopClk (kget 0 u s.crcBusy) s
  | _ => s

def execContextStallClear (c : CtxId) (s : State) : Host.Outcome State Fault Refusal :=
  timed (onCores (stallHop (ctxNo c))) (onCores (stallClear (ctxNo c))) s

/-- WAIT_DEADLINE (R133, R134): the counter reaches the deadline; g[rd] of a wait.ev is 0. -/
def waitDeadline (k : Nat) (s : State) : State :=
  let c := ctxAt k s
  match c.st, c.wait with
  | .waiting, some w =>
    if waitOver (some w) s then
      let d := (({ c with st := .ready, wait := none }).setG w.rd 0).retire 4
      setCtx k d (noteWoke k 0 0 w.rd c d s)
    else s
  | _, _ => s

def waitHop (k : Nat) (s : State) : State :=
  match (ctxAt k s).st, (ctxAt k s).wait with
  | .waiting, some w => match w.deadline with
    | some t => hopCnt (nsUnits t) s
    | none => s
  | _, _ => s

def execWaitDeadline (c : CtxId) (s : State) : Host.Outcome State Fault Refusal :=
  timed (onCores (waitHop (ctxNo c))) (onCores (waitDeadline (ctxNo c))) s

end Sys2Proof.Machine
end

