-- ==== Sys2Proof/Machine/Vec.lean ====
section
/-! DEFINITION. Vector arithmetic and compare (R118, R119), vector pixel (R120, R121), vector permute
and reduce (R122). -/

namespace Sys2Proof.Machine

/-! ### Vector arithmetic (R118) -/

/-- Lane i of v[va]. -/
def laneA (f : VecAF) (c : Ctx) (i : Nat) : Nat := lane (laneW f.wide) (vReg f.va c) i

/-- R118: each active lane of v[vd] becomes op of the lane width, A and B; a lane whose flag is
true has clamped and sets SAT. -/
def vecArith (c : CtxId) (f : VecAF) (bad : Bool) (op : Nat → Nat → Nat → Nat × Bool) (s : State) :
    Host.Outcome State Fault Refusal :=
  let len := extLen f.ext
  issue c len (vecABad f || bad) (retireWith len fun x =>
    let p := x.getP f.pk.val
    let r := fun i => op (laneW f.wide) (laneA f x i) (operandB x f i)
    satIf ((activeLanes f.wide p).any fun i => (r i).2)
      (x.setV f.vd.val (mapActive f.wide p (vReg f.vd x) fun i => (r i).1))) s

/-- The operations that never clamp. -/
def vecPlain (c : CtxId) (f : VecAF) (op : Nat → Nat → Nat → Nat) (s : State) :
    Host.Outcome State Fault Refusal :=
  vecArith c f false (fun w a b => (op w a b, false)) s

/-- R118: a shift amount: B[3:0], or B[4:0] of 32-bit lanes. -/
def vShamt (w b : Nat) : Nat := b % w

def execVadd (c : CtxId) (f : VecAF) (s : State) : Host.Outcome State Fault Refusal :=
  vecPlain c f (fun w a b => (a + b) % 2 ^ w) s

def execVsub (c : CtxId) (f : VecAF) (s : State) : Host.Outcome State Fault Refusal :=
  vecPlain c f (fun w a b => (a + 2 ^ w - b) % 2 ^ w) s

def execVadds (c : CtxId) (f : VecAF) (s : State) : Host.Outcome State Fault Refusal :=
  vecArith c f false (fun w a b => (min (a + b) (2 ^ w - 1), decide (2 ^ w ≤ a + b))) s

def execVsubs (c : CtxId) (f : VecAF) (s : State) : Host.Outcome State Fault Refusal :=
  vecArith c f false (fun _ a b => (a - b, decide (a < b))) s

def execVmul (c : CtxId) (f : VecAF) (s : State) : Host.Outcome State Fault Refusal :=
  vecPlain c f (fun w a b => a * b % 2 ^ w) s

def execVmulhu (c : CtxId) (f : VecAF) (s : State) : Host.Outcome State Fault Refusal :=
  vecPlain c f (fun w a b => a * b / 2 ^ w) s

def execVminu (c : CtxId) (f : VecAF) (s : State) : Host.Outcome State Fault Refusal :=
  vecPlain c f (fun _ a b => min a b) s

def execVmaxu (c : CtxId) (f : VecAF) (s : State) : Host.Outcome State Fault Refusal :=
  vecPlain c f (fun _ a b => max a b) s

def execVmin (c : CtxId) (f : VecAF) (s : State) : Host.Outcome State Fault Refusal :=
  vecPlain c f (fun w a b => if sgn w a ≤ sgn w b then a else b) s

def execVmax (c : CtxId) (f : VecAF) (s : State) : Host.Outcome State Fault Refusal :=
  vecPlain c f (fun w a b => if sgn w a ≤ sgn w b then b else a) s

def execVand (c : CtxId) (f : VecAF) (s : State) : Host.Outcome State Fault Refusal :=
  vecPlain c f (fun _ a b => a &&& b) s

def execVor (c : CtxId) (f : VecAF) (s : State) : Host.Outcome State Fault Refusal :=
  vecPlain c f (fun _ a b => a ||| b) s

def execVxor (c : CtxId) (f : VecAF) (s : State) : Host.Outcome State Fault Refusal :=
  vecPlain c f (fun _ a b => a ^^^ b) s

def execVandn (c : CtxId) (f : VecAF) (s : State) : Host.Outcome State Fault Refusal :=
  vecPlain c f (fun w a b => a &&& (2 ^ w - 1 - b)) s

def execVsll (c : CtxId) (f : VecAF) (s : State) : Host.Outcome State Fault Refusal :=
  vecPlain c f (fun w a b => a * 2 ^ vShamt w b % 2 ^ w) s

def execVsrl (c : CtxId) (f : VecAF) (s : State) : Host.Outcome State Fault Refusal :=
  vecPlain c f (fun w a b => a / 2 ^ vShamt w b) s

def execVsra (c : CtxId) (f : VecAF) (s : State) : Host.Outcome State Fault Refusal :=
  vecPlain c f (fun w a b => unsgn w (sgn w a / (2 ^ vShamt w b : Nat))) s

def execVabsdu (c : CtxId) (f : VecAF) (s : State) : Host.Outcome State Fault Refusal :=
  vecPlain c f (fun _ a b => max a b - min a b) s

def execVavgu (c : CtxId) (f : VecAF) (s : State) : Host.Outcome State Fault Refusal :=
  vecPlain c f (fun _ a b => (a + b + 1) / 2) s

/-- vmov: va must be 0. -/
def execVmov (c : CtxId) (f : VecAF) (s : State) : Host.Outcome State Fault Refusal :=
  vecArith c f (f.va ≠ 0) (fun _ _ b => (b, false)) s

/-- vsel: pk selects A or B; every lane is written. -/
def execVsel (c : CtxId) (f : VecAF) (s : State) : Host.Outcome State Fault Refusal :=
  let len := extLen f.ext
  issue c len (vecABad f) (retireWith len fun x =>
    x.setV f.vd.val (vecOf f.wide fun i =>
      if laneOn f.wide (x.getP f.pk.val) i then laneA f x i else operandB x f i)) s

/-- R119: a compare writes the p register named by bits [2:0] of the vd field. -/
def vecCompare (c : CtxId) (f : VecAF) (hit : Nat → Nat → Nat → Bool) (s : State) :
    Host.Outcome State Fault Refusal :=
  let len := extLen f.ext
  issue c len (vecABad f || pBad f.vd) (retireWith len fun x =>
    x.setP (f.vd.val % 8) (compareMask f.wide (x.getP f.pk.val) fun i =>
      hit (laneW f.wide) (laneA f x i) (operandB x f i))) s

def execVcmpEq (c : CtxId) (f : VecAF) (s : State) : Host.Outcome State Fault Refusal :=
  vecCompare c f (fun _ a b => a == b) s

def execVcmpNe (c : CtxId) (f : VecAF) (s : State) : Host.Outcome State Fault Refusal :=
  vecCompare c f (fun _ a b => a != b) s

def execVcmpLtu (c : CtxId) (f : VecAF) (s : State) : Host.Outcome State Fault Refusal :=
  vecCompare c f (fun _ a b => decide (a < b)) s

def execVcmpLeu (c : CtxId) (f : VecAF) (s : State) : Host.Outcome State Fault Refusal :=
  vecCompare c f (fun _ a b => decide (a ≤ b)) s

def execVcmpLt (c : CtxId) (f : VecAF) (s : State) : Host.Outcome State Fault Refusal :=
  vecCompare c f (fun w a b => decide (sgn w a < sgn w b)) s

def execVcmpLe (c : CtxId) (f : VecAF) (s : State) : Host.Outcome State Fault Refusal :=
  vecCompare c f (fun w a b => decide (sgn w a ≤ sgn w b)) s

/-! ### Vector pixel (R120, R121): 16-bit lanes in U1.15 -/

/-- Each active lane becomes op of A, B and D (the old lane); the flag says it sets SAT. -/
def vecPixel (c : CtxId) (f : VecXF) (bad : Bool) (op : Nat → Nat → Nat → Nat × Bool) (s : State) :
    Host.Outcome State Fault Refusal :=
  issue c 4 (f.z ≠ 0 || bad) (retireWith 4 fun x =>
    let p := x.getP f.pk.val
    let old := vReg f.vd x
    let r := fun i => op (lane 16 (vReg f.va x) i) (lane 16 (vReg f.vb x) i) (lane 16 old i)
    satIf ((activeLanes false p).any fun i => (r i).2)
      (x.setV f.vd.val (mapActive false p old fun i => (r i).1))) s

/-- R120: a one-operand conversion: rb must be 0. -/
def vecConvert (c : CtxId) (f : VecXF) (op : Nat → Nat × Bool) (s : State) :
    Host.Outcome State Fault Refusal :=
  vecPixel c f (f.vb ≠ 0) (fun a _ _ => op a) s

/-- The final clamp, and whether it clamps. -/
def fxClamp (x : Nat) : Nat × Bool := (clampFx x, decide (0xFFFF < x))

def execVmulFx (c : CtxId) (f : VecXF) (s : State) : Host.Outcome State Fault Refusal :=
  vecPixel c f false (fun a b _ => fxClamp ((a * b + 0x4000) / 32768)) s
def execVmadFx (c : CtxId) (f : VecXF) (s : State) : Host.Outcome State Fault Refusal :=
  vecPixel c f false (fun a b d => fxClamp ((a * b + d * 32768 + 0x4000) / 32768)) s
def execVblend (c : CtxId) (f : VecXF) (s : State) : Host.Outcome State Fault Refusal :=
  vecPixel c f false (fun a b d =>
    let al := min d 0x8000
    ((a * (0x8000 - al) + b * al + 0x4000) / 32768, false)) s

/-- R120: byte i of v[va], for i below 32. -/
def execVcvtFxU8 (c : CtxId) (f : VecXF) (s : State) : Host.Outcome State Fault Refusal :=
  issue c 4 (f.z ≠ 0 || f.vb ≠ 0) (retireWith 4 fun x =>
    x.setV f.vd.val (mapActive false (x.getP f.pk.val) (vReg f.vd x) fun i =>
      (lane 8 (vReg f.va x) i * 32768 + 127) / 255)) s

/-- R120: bit i of pk governs byte i; bytes 32 to 63 become 0. -/
def execVcvtU8Fx (c : CtxId) (f : VecXF) (s : State) : Host.Outcome State Fault Refusal :=
  issue c 4 (f.z ≠ 0 || f.vb ≠ 0) (retireWith 4 fun x =>
    let p := x.getP f.pk.val
    let r := fun i => (lane 16 (vReg f.va x) i * 255 + 16384) / 32768
    satIf ((activeLanes false p).any fun i => 255 < r i)
      (x.setV f.vd.val (BitVec.ofNat 512 (packLanes 8 (fun i =>
        if laneOn false p i then min 255 (r i) else lane 8 (vReg f.vd x) i) 32)))) s

def execVcvtFxU16 (c : CtxId) (f : VecXF) (s : State) : Host.Outcome State Fault Refusal :=
  vecConvert c f (fun a => ((a + 1) / 2, false)) s
def execVcvtU16Fx (c : CtxId) (f : VecXF) (s : State) : Host.Outcome State Fault Refusal :=
  vecConvert c f (fun a => fxClamp (2 * a - a / 32768)) s

/-- n / 2^k rounded to nearest, ties to even. -/
def roundShift (n k : Nat) : Nat :=
  let q := n / 2 ^ k
  let r := n % 2 ^ k
  if 2 ^ k < 2 * r ∨ (2 * r = 2 ^ k ∧ q % 2 = 1) then q + 1 else q

/-- R120: binary16 to U1.15: the value times 32,768, rounded and clamped; NaN gives 0. -/
def halfToFx (h : Nat) : Nat × Bool :=
  let e := h / 1024 % 32
  let m := h % 1024
  let neg := 32768 ≤ h % 65536
  if e = 31 ∧ m ≠ 0 then (0, true)
  else if e = 31 then (if neg then 0 else 0xFFFF, true)
  else
    let mag := if e = 0 then roundShift m 9
      else if 10 ≤ e then (1024 + m) * 2 ^ (e - 10) else roundShift (1024 + m) (10 - e)
    if neg then (0, decide (0 < mag)) else fxClamp mag

/-- R120: U1.15 to binary16: the value / 32,768, rounded to nearest even. -/
def fxToHalf (a : Nat) : Nat :=
  if a = 0 then 0
  else
    let l := a.log2
    if l = 0 then 512
    else if l ≤ 10 then l * 1024 + (a * 2 ^ (10 - l) - 1024)
    else l * 1024 + (roundShift a (l - 10) - 1024)

def execVcvtFxF16 (c : CtxId) (f : VecXF) (s : State) : Host.Outcome State Fault Refusal :=
  vecConvert c f halfToFx s
def execVcvtF16Fx (c : CtxId) (f : VecXF) (s : State) : Host.Outcome State Fault Refusal :=
  vecConvert c f (fun a => (fxToHalf a, false)) s
def execVcvtFxU10 (c : CtxId) (f : VecXF) (s : State) : Host.Outcome State Fault Refusal :=
  vecConvert c f (fun a => ((a % 1024 * 32768 + 511) / 1023, false)) s

/-- R121: the table of n entries at g[rb]: checked, then looked up; val of a table and a lane. -/
def vecLut (c : CtxId) (f : VecXF) (n : Nat) (val : (Nat → Nat) → Nat → Nat) (s : State) :
    Host.Outcome State Fault Refusal :=
  issue c 4 (f.z ≠ 0) (fun k s =>
    let x := ctxAt k s
    let a := (gReg f.vb x).toNat
    if a % 2 ≠ 0 then raiseAlign k s
    else match spaceOf x.tlmLimit a (2 * n) with
      | .tlm off =>
        match tileStall k off (2 * n) s with
        | some t => t
        | none =>
          let table := fun i => leNat (tlmBytes k (off + 2 * i) 2 s)
          retireWith 4 (fun x => x.setV f.vd.val (mapActive false (x.getP f.pk.val) (vReg f.vd x)
            fun i => val table (lane 16 (vReg f.va x) i))) k s
      | .range => raiseTlmRange k s
      | .mmu => raiseTlmRange k s) s

def execVlutN (c : CtxId) (f : VecXF) (s : State) : Host.Outcome State Fault Refusal :=
  vecLut c f 4096 (fun t a => t (a / 16)) s
/-- R121: linear interpolation, signed. -/
def lutInterp (t : Nat → Nat) (a : Nat) : Nat :=
  let t0 : Int := t (a / 16)
  let t1 : Int := t (a / 16 + 1)
  unsgn 16 (t0 + ((t1 - t0) * (a % 16 : Nat) + 8) / 16)
def execVlutI (c : CtxId) (f : VecXF) (s : State) : Host.Outcome State Fault Refusal :=
  vecLut c f 4097 lutInterp s

/-! ### Vector permute and reduce (R122) -/

def laneOf (f : VecPF) (r : Fin 32) (c : Ctx) (i : Nat) : Nat := lane (laneW f.wide) (vReg r c) i

/-- R122: each active lane i of v[vd] becomes g of the context and i. -/
def vecPermute (c : CtxId) (f : VecPF) (bad : Bool) (g : Ctx → Nat → Nat) (s : State) :
    Host.Outcome State Fault Refusal :=
  issue c 4 bad (retireWith 4 fun x =>
    x.setV f.vd.val (mapActive f.wide (x.getP f.pk.val) (vReg f.vd x) (g x))) s

/-- Lane j of the 2N-lane sequence va then vb. -/
def seqLane (f : VecPF) (x : Ctx) (j : Nat) : Nat :=
  let n := laneN f.wide
  if j < n then laneOf f f.va x j else laneOf f f.vb x (j - n)

def execVperm (c : CtxId) (f : VecPF) (s : State) : Host.Outcome State Fault Refusal :=
  vecPermute c f false (fun x i => laneOf f f.va x (laneOf f f.vb x i % laneN f.wide)) s
/-- vbcast: k is the rb field, below N (DEDUCED, log entry 36). -/
def execVbcast (c : CtxId) (f : VecPF) (s : State) : Host.Outcome State Fault Refusal :=
  vecPermute c f (laneN f.wide ≤ f.vb.val) (fun x _ => laneOf f f.va x f.vb.val) s

/-- vext: pk must be 0; k at or above N is ILLEGAL. -/
def execVext (c : CtxId) (f : VecPF) (s : State) : Host.Outcome State Fault Refusal :=
  issue c 4 (f.pk ≠ 0 || laneN f.wide ≤ f.vb.val) (retireWith 4 fun x =>
    x.setG f.vd.val (BitVec.ofNat 64 (laneOf f f.va x f.vb.val))) s

/-- vins: lane k becomes the low bits of g[ra]; other lanes are unchanged. -/
def execVins (c : CtxId) (f : VecPF) (s : State) : Host.Outcome State Fault Refusal :=
  issue c 4 (f.pk ≠ 0 || laneN f.wide ≤ f.vb.val) (retireWith 4 fun x =>
    x.setV f.vd.val (vecOf f.wide fun i =>
      if i = f.vb.val then (gReg f.va x).toNat else laneOf f f.vd x i)) s

/-- R122: interleaves lanes of va and vb from lane `from_` on. -/
def zipLane (f : VecPF) (from_ : Nat) (x : Ctx) (i : Nat) : Nat :=
  if i % 2 = 0 then laneOf f f.va x (from_ + i / 2) else laneOf f f.vb x (from_ + i / 2)
def execVzipLo (c : CtxId) (f : VecPF) (s : State) : Host.Outcome State Fault Refusal :=
  vecPermute c f false (zipLane f 0) s
def execVzipHi (c : CtxId) (f : VecPF) (s : State) : Host.Outcome State Fault Refusal :=
  vecPermute c f false (zipLane f (laneN f.wide / 2)) s
def execVuzpEv (c : CtxId) (f : VecPF) (s : State) : Host.Outcome State Fault Refusal :=
  vecPermute c f false (fun x i => seqLane f x (2 * i)) s
def execVuzpOd (c : CtxId) (f : VecPF) (s : State) : Host.Outcome State Fault Refusal :=
  vecPermute c f false (fun x i => seqLane f x (2 * i + 1)) s

/-- R122: g[rd] becomes a function of the active lanes, in order; vb must be 0. -/
def vecReduce (c : CtxId) (f : VecPF) (red : Nat → List Nat → Nat) (s : State) :
    Host.Outcome State Fault Refusal :=
  issue c 4 (f.vb ≠ 0) (retireWith 4 fun x =>
    x.setG f.vd.val (BitVec.ofNat 64 (red (laneW f.wide)
      ((activeLanes f.wide (x.getP f.pk.val)).map (laneOf f f.va x))))) s

def execVredAddu (c : CtxId) (f : VecPF) (s : State) : Host.Outcome State Fault Refusal :=
  vecReduce c f (fun _ l => l.sum) s
def execVredMaxu (c : CtxId) (f : VecPF) (s : State) : Host.Outcome State Fault Refusal :=
  vecReduce c f (fun _ l => l.foldl max 0) s
def execVredMinu (c : CtxId) (f : VecPF) (s : State) : Host.Outcome State Fault Refusal :=
  vecReduce c f (fun w l => l.foldl min (2 ^ w - 1)) s

/-- vcompress: the active lanes of va from lane 0 upward, then 0; every lane is written. -/
def execVcompress (c : CtxId) (f : VecPF) (s : State) : Host.Outcome State Fault Refusal :=
  issue c 4 false (retireWith 4 fun x =>
    let l := (activeLanes f.wide (x.getP f.pk.val)).map (laneOf f f.va x)
    x.setV f.vd.val (vecOf f.wide fun i => l.getD i 0)) s

/-- vslide: k is fn[4:0]; with 32-bit lanes it is below 16. -/
def execVslide (c : CtxId) (f : VecPF) (amount : Fin 32) (s : State) :
    Host.Outcome State Fault Refusal :=
  vecPermute c f (f.wide && 16 ≤ amount.val) (fun x i => seqLane f x (i + amount.val)) s

end Sys2Proof.Machine
end

