-- ==== Sys2Proof/Machine/VecMem.lean ====
section
/-! DEFINITION. Vector memory (R90, R91, R123, R124). -/

namespace Sys2Proof.Machine

/-- R123: the lane size in bytes. -/
def laneBytes (wide : Bool) : Nat := if wide then 4 else 2

/-- R123: base + off. -/
def vecBase (f : VecMF) (c : Ctx) : Word :=
  gReg f.ra c + (match f.ext with
    | some e => e.signExtend 64
    | none => 0)

/-- R123: the address of lane i, contiguous or indexed by v[vb]. -/
def laneAddr (f : VecMF) (indexed : Bool) (c : Ctx) (i : Nat) : Nat :=
  let z := laneBytes f.wide
  let j := if indexed then lane (laneW f.wide) (vReg f.vb c) i else i
  (vecBase f c + BitVec.ofNat 64 (j * z)).toNat

/-- R91: the lanes still to do: active, and not completed before a fault. -/
def lanesToDo (f : VecMF) (c : Ctx) : List Nat :=
  (activeLanes f.wide (c.getP f.pk.val)).filter fun i =>
    c.vrm &&& vrmBit f.wide i == 0

/-- R124: ALIGN and TLM_RANGE are found for every lane before any accesses memory; then R81. -/
def vecCheck (f : VecMF) (indexed : Bool) (k : Nat) (s : State) : Option State :=
  let c := ctxAt k s
  let z := laneBytes f.wide
  let as := (lanesToDo f c).map (laneAddr f indexed c)
  if as.any fun a => a % z ≠ 0 then some (raiseAlign k s)
  else if as.any fun a => spaceOf c.tlmLimit a z == .range then some (raiseTlmRange k s)
  else as.findSome? fun a =>
    match spaceOf c.tlmLimit a z with
    | .tlm off => tileStall k off z s
    | _ => none

/-- Where a lane's access goes, once translated. -/
inductive LaneTo
  | tlm (off : Nat)
  | pa (a : Nat)
  | fault (kind : Nat)
  deriving DecidableEq, Repr

/-- The lanes, each with its address and where it goes. -/
def laneTargets (f : VecMF) (indexed : Bool) (k : Nat) (acc : Acc) : List Nat → State →
    List (Nat × Nat × LaneTo) × State
  | [], s => ([], s)
  | i :: t, s =>
    let c := ctxAt k s
    let a := laneAddr f indexed c i
    let (dst, s) := match spaceOf c.tlmLimit a (laneBytes f.wide) with
      | .tlm off => (LaneTo.tlm off, s)
      | _ => match coreTranslate k a acc s with
        | (.pa p, s) => (LaneTo.pa p, s)
        | (.fault x, s) => (LaneTo.fault x, s)
    let (rest, s) := laneTargets f indexed k acc t s
    ((i, a, dst) :: rest, s)

/-- The lowest lane that cannot complete: its translation fails, or its line is poisoned. -/
def firstBad (size : Nat) (ls : List (Nat × Nat × LaneTo)) (s : State) : Option (Nat × Nat × Nat) :=
  ls.findSome? fun (i, a, dst) =>
    match dst with
    | .fault x => some (i, a, x)
    | .pa p => if poisoned p size s then some (i, a, kEcc) else none
    | .tlm _ => none

/-- A lane that completes at once lands; one that misses is put off. -/
def loadLane (m : Miss) (k : Nat) (l : Nat × Nat × LaneTo) (s : State) : State :=
  match l.2.2 with
  | .tlm off => updCtx k (landLane m l.1 (tlmBytes k off m.size s)) s
  | .pa a =>
    match cachedBytes k a m.size s with
    | (some bs, s) => updCtx k (landLane m l.1 bs) s
    | (none, s) => updCtx k (fun c => { c with miss := some (match c.miss with
        | some q => { q with queued := q.queued ++ [(l.1, l.2.1, a)] }
        | none => { m with queued := [(l.1, l.2.1, a)] }) }) s
  | .fault _ => s

/-- R90: beside a faulting lane: every lane below it completes; one above it completes or not, as a
free value says (DEDUCED, log entry 38). -/
def loadBeside (m : Miss) (k bad : Nat) (l : Nat × Nat × LaneTo) (s : State) : State :=
  let (go, s) := if l.1 < bad then (true, s) else if l.1 = bad then (false, s) else
    let (f, s) := fresh s; (f.getLsbD 0, s)
  if !go then s
  else match l.2.2 with
    | .tlm off => updCtx k (landLane m l.1 (tlmBytes k off m.size s)) s
    | .pa a =>
      if poisoned a m.size s then s
      else updCtx k (landLane m l.1 (withBuffered (ctxAt k s).sbuf a (memBytes a m.size s))) s
    | .fault _ => s

/-- R123, R124: a vector load. -/
def vecLoad (c : CtxId) (f : VecMF) (indexed : Bool) (bad : Bool) (s : State) :
    Host.Outcome State Fault Refusal :=
  let len := extLen f.ext
  issue c len (f.z ≠ 0 || bad) (fun k s =>
    match vecCheck f indexed k s with
    | some t => t
    | none =>
      let m : Miss := { rd := f.vd.val, vec := true, size := laneBytes f.wide, signed := false, len := len, lanes := [] }
      let (ls, s) := laneTargets f indexed k .read (lanesToDo f (ctxAt k s)) s
      if ls.any fun l => match l.2.2 with | .fault _ => true | _ => false then
        let s := forAll (fun l s => match l.2.2 with
          | .pa p => meet (coreReq k p) p m.size s
          | _ => s) ls s
        match firstBad m.size ls s with
        | some (i, a, x) => raiseFault k cData x a i false false (forAll (loadBeside m k i) ls s)
        | none => s
      else
        let s := forAll (loadLane m k) ls (updCtx k (fun c => { c with miss := none }) s)
        match (ctxAt k s).miss with
        | none => updCtx k (finishLoad m) s
        | some q => awaitLanes m q.queued k s) s

/-- R82, R124: a lane's bytes enter the store buffer: with the last entry where they follow it in
its line, also where an earlier instruction made that entry (DEDUCED, log entry 102: the spec does
not say how many entries the lanes of a store take); none when the buffer is full.  t is the
instant of the translation (R181). -/
def bufferLane (t a : Nat) (bs : List Byte) (c : Ctx) : Option Ctx :=
  match c.sbuf.getLast? with
  | some e =>
    if e.pa + e.bytes.length = a ∧ e.pa / 64 = a / 64 then
      some { c with sbuf := c.sbuf.dropLast ++ [{ e with bytes := e.bytes ++ bs }] }
    else if c.sbuf.length < 8 then some { c with sbuf := c.sbuf ++ [⟨a, bs, t⟩] } else none
  | none => some { c with sbuf := [⟨a, bs, t⟩] }

/-- R123, R124: the lanes of a store, in ascending order. -/
def storeLanes (f : VecMF) (indexed : Bool) (len k : Nat) : List Nat → State → State
  | [], s => updCtx k (fun c => { c with vrm := 0 }.retire len) s
  | i :: t, s =>
    let c := ctxAt k s
    let z := laneBytes f.wide
    let a := laneAddr f indexed c i
    let bs := leBytes z (lane (laneW f.wide) (vReg f.vd c) i)
    match spaceOf c.tlmLimit a z with
    | .tlm off =>
      storeLanes f indexed len k t (updCtx k (vrmSet f.wide i) (putTlm k off bs s))
    | _ =>
      match coreTranslate k a .write s with
      | (.fault x, s) => raiseFault k cData x a i true false s
      | (.pa p, s) =>
        match bufferLane s.clk p bs (ctxAt k s) with
        | some c => storeLanes f indexed len k t (setCtx k (vrmSet f.wide i c) s)
        | none => stallOn .storeBuf k s

def vecStore (c : CtxId) (f : VecMF) (indexed : Bool) (bad : Bool) (s : State) :
    Host.Outcome State Fault Refusal :=
  let len := extLen f.ext
  issue c len (f.z ≠ 0 || bad) (fun k s =>
    match vecCheck f indexed k s with
    | some t => t
    | none => storeLanes f indexed len k (lanesToDo f (ctxAt k s)) s) s

/-- vld (R123): vb must be 0. -/
def execVld (c : CtxId) (f : VecMF) (s : State) : Host.Outcome State Fault Refusal :=
  vecLoad c f false (f.vb ≠ 0) s
/-- vst (R123): vb must be 0. -/
def execVst (c : CtxId) (f : VecMF) (s : State) : Host.Outcome State Fault Refusal :=
  vecStore c f false (f.vb ≠ 0) s
def execVgather (c : CtxId) (f : VecMF) (s : State) : Host.Outcome State Fault Refusal :=
  vecLoad c f true false s
def execVscatter (c : CtxId) (f : VecMF) (s : State) : Host.Outcome State Fault Refusal :=
  vecStore c f true false s

end Sys2Proof.Machine
end

