-- ==== Sys2Proof/Machine/Task.lean ====
section
/-! DEFINITION. Tile instructions (R125 to R128), task and sync (R129 to R135), CRC feed (R136,
R137), system (R73, R74, R88, R138). -/

namespace Sys2Proof.Machine

/-! ### Tile (R125 to R128) -/

/-- tld (R126): the range is checked before the operands (R85); a third request stalls (R81). -/
def execTld (c : CtxId) (f : VecF) (layer : Fin 16) (s : State) :
    Host.Outcome State Fault Refusal :=
  issue c 4 (f.vd ≠ 0 || f.pk ≠ 0) (fun k s =>
    let x := ctxAt k s
    let dst := (gReg f.va x).toNat
    let b := (gReg f.vb x).toNat
    match spaceOf x.tlmLimit dst 2048 with
    | .tlm off =>
      if dst % 64 ≠ 0 ∨ 2 ^ 32 ≤ b then raiseTile k s
      else if 2 ≤ x.tlds.length then stallOn .tldFull k s
      else
        let r : TldReq := ⟨k, layer.val, off, b % 65536, b / 65536⟩
        sendTld k r (retireWith 4 (fun x => { x with tlds := x.tlds ++ [r] }) k s)
    | _ => raiseTlmRange k s) s

/-- R158: the writes of the context's task pass straight to the frame store: it is in no flow, or is
the head of its flow. -/
def writesDirect (k : Nat) (s : State) : Bool :=
  let d := descOf (ctxSlice k) (ctxAt k s).desc
  !(descAt d s).flowValid || isFlowHead d s

/-- R128: what orders the items of a context: its flow, or the context itself. -/
def pathOwner (k : Nat) (s : State) : Nat :=
  let e := descAt (descOf (ctxSlice k) (ctxAt k s).desc) s
  if e.flowValid then 64 + e.flow else k % 32

/-- The item is on its way to the frame store, and the instruction retires. -/
def sendDirect (k : Nat) (i : PathItem) (s : State) : State :=
  retireWith 4 id k (updSched (ctxSlice k)
    (fun q => { q with path := q.path ++ [⟨pathOwner k s, k, false, i⟩] }) s)

/-- The item is held until the task's release, and the instruction retires. -/
def sendHeld (k : Nat) (buffered : Bool) (i : PathItem) (s : State) : State :=
  retireWith 4 id k (updDesc (descOf (ctxSlice k) (ctxAt k s).desc)
    (fun e => { e with held := e.held ++ [⟨pathOwner k s, k, buffered, i⟩] }) s)

/-- R160: a flow task that is not the head writes into the release buffer, which may be full. -/
def sendBuffered (k : Nat) (i : PathItem) (s : State) : State :=
  let sl := ctxSlice k
  if relBufSize < relBufUsed sl s + itemBytes i then
    logPer 0x0406 sl oneSecond [] (stallOn (.relBuf (itemBytes i)) k
      (updSched sl (fun q => { q with full := some (itemBytes i) }) s))
  else sendHeld k true i s

/-- R127, R158: a tst goes straight to the frame store, or into the release buffer. -/
def sendTst (k : Nat) (w : TstWrite) (s : State) : State :=
  if writesDirect k s then sendDirect k (.tst w) s else sendBuffered k (.tst w) s

/-- R128, R158: a tcommit of a task outside any flow goes after its context's tst writes; that of a
flow task is held until the release.  The head's takes no room of the release buffer (DEDUCED, log
entry 31: R158 has only the other tasks' writes go into it). -/
def sendMark (k ports val : Nat) (s : State) : State :=
  let d := descOf (ctxSlice k) (ctxAt k s).desc
  if !(descAt d s).flowValid then sendDirect k (.commit ports val) s
  else if isFlowHead d s then sendHeld k false (.commit ports val) s
  else sendBuffered k (.commit ports val) s

/-- R215: a tst that finds the write path full stalls; whether a path that holds writes is full is a
free value (DEDUCED, log entry 39). -/
def pathFull (k : Nat) (s : State) : Bool × State :=
  if !writesDirect k s || (schedAt (ctxSlice k) s).path.isEmpty then (false, s)
  else
    let (f, s) := fresh s
    (f.getLsbD 0, s)

/-- tst (R127). -/
def execTst (c : CtxId) (f : VecF) (z : BitVec 4) (s : State) : Host.Outcome State Fault Refusal :=
  issue c 4 (z ≠ 0) (fun k s =>
    let x := ctxAt k s
    let a := (gReg f.va x).toNat
    let b := (gReg f.vb x).toNat
    if 28 < f.vd.val ∨ 2 ^ 14 ≤ a ∨ 2 ^ 18 ≤ b then raiseTile k s
    else
      let (full, s) := pathFull k s
      if full then stallOn .tstPath k s
      else
        let w : TstWrite := { seg := a, off := b, lanes := (x.getP f.pk.val).toNat,
                              ch := (List.range 4).map fun i => x.getV (f.vd.val + i) }
        sendTst k w s) s

/-- tcommit (R128): an empty mask or a reserved bit raises TILE (DEDUCED, log entry 36). -/
def execTcommit (c : CtxId) (f : VecF) (z : BitVec 4) (s : State) :
    Host.Outcome State Fault Refusal :=
  issue c 4 (z ≠ 0 || f.vd ≠ 0 || f.pk ≠ 0) (fun k s =>
    let x := ctxAt k s
    let a := (gReg f.va x).toNat
    let b := (gReg f.vb x).toNat
    if a = 0 ∨ 256 ≤ a ∨ 2 ^ 17 ≤ b then raiseTile k s else sendMark k a b s) s

/-! ### Task and sync (R129 to R135) -/

/-- R82, R135: the release first, then the instruction takes effect. -/
def afterRelease (body : Nat → State → State) (k : Nat) (s : State) : State :=
  if (ctxAt k s).sbuf.isEmpty then body k s else stallOn .release k s

/-- R131: a submission waits for the scheduler. -/
def askScheduler (u : Sub) (k : Nat) (s : State) : State :=
  updSched (ctxSlice k) (fun q => { q with subs := q.subs ++ [u] }) (stallOn .submit k s)

/-- spawn (R130): the descriptor its spec builds (R142). -/
def spawnSub (k rd : Nat) (nb : Bool) (spec start : Nat) (x : Ctx) : Sub :=
  { src := .ctx k rd 4 nb false, ctrl := spec % 2 ^ 18 + 2 ^ 18 + 2 ^ 24, image := 0, start := start,
    args := (List.range 4).map fun i => x.getG (4 + i),
    tag := 0, tail := 0, badSpec := 2 ^ 18 ≤ spec }

def execSpawn (c : CtxId) (f : TaskF) (s : State) : Host.Outcome State Fault Refusal :=
  issue c 4 (f.z ≠ 0) (afterRelease fun k s =>
    let x := ctxAt k s
    askScheduler (spawnSub k f.rd.val f.nb (gReg f.ra x).toNat (gReg f.rb x).toNat x) k s) s

/-- R142: a submission from the 64 bytes of a descriptor. -/
def subOf (src : SubSrc) (b : List Byte) : Sub :=
  { src := src, ctrl := at_ 0 4 b, image := at_ 4 4 b, start := at_ 8 8 b,
    args := (List.range 4).map fun i => BitVec.ofNat 64 (at_ (16 + 8 * i) 8 b),
    tag := at_ 0x30 8 b, tail := at_ 0x38 8 b, badSpec := false }

/-- enq (R129, R130). -/
def execEnq (c : CtxId) (f : TaskF) (s : State) : Host.Outcome State Fault Refusal :=
  issue c 4 (f.z ≠ 0) (fun k s =>
    let x := ctxAt k s
    let a := (gReg f.ra x).toNat
    if a % 64 ≠ 0 then raiseAlign k s
    else match spaceOf x.tlmLimit a 64 with
      | .tlm off =>
        match tileStall k off 64 s with
        | some t => t
        | none => afterRelease (fun k s =>
            askScheduler (subOf (.ctx k f.rd.val 4 f.nb true) (tlmBytes k off 64 s)) k s) k s
      | _ => raiseTlmRange k s) s

/-- tcancel (R132): the scheduler answers in its cycle (R140 step 3). -/
def execTcancel (c : CtxId) (f : TaskF) (s : State) : Host.Outcome State Fault Refusal :=
  issue c 4 (f.z ≠ 0 || f.nb) (fun k s =>
    let h := (gReg f.ra (ctxAt k s)).toNat
    updSched (ctxSlice k) (fun q => { q with cancels := q.cancels ++ [(k, f.rd.val, h)] })
      (stallOn .submit k s)) s

/-- done (R97). -/
def execDone (c : CtxId) (f : TaskF) (s : State) : Host.Outcome State Fault Refusal :=
  issue c 4 (f.z ≠ 0 || f.nb) endTask s

/-- R151: a yield ends its group's turn. -/
def endTurn (sl g : Nat) (s : State) : State :=
  if fld (Sched.SCHED_STATUS sl) 15 13 s = g ∧ 1 ≤ g then
    let cur := if g = 7 then 1 else g + 1
    setFld (Sched.WG_STATUS sl g) 31 16 0
      (setBit (Sched.SCHED_STATUS sl) 16 true (setFld (Sched.SCHED_STATUS sl) 15 13 cur s))
  else s

/-- yield (R92, R155): a no-op where 32 or fewer slots are free; else the task is saved as RESUME,
its pc beyond the yield. -/
def execYield (c : CtxId) (f : TaskF) (s : State) : Host.Outcome State Fault Refusal :=
  issue c 4 (f.z ≠ 0 || f.nb) (afterRelease fun k s =>
    let sl := ctxSlice k
    let g := (descAt (descOf sl (ctxAt k s).desc) s).wg
    if freeSlots sl s ≤ 32 then
      retireWith 4 id k (bump (Sched.YIELD_NOSLOT sl) s)
    else startSave k .resume (endTurn sl g (retireWith 4 id k s))) s

/-- A context waits (R133, R134). -/
def startWait (w : Wait) (k : Nat) (s : State) : State :=
  updCtx k (fun c => { c with st := .waiting, wait := some w }) s

/-- wait.time (R133): a deadline already past completes at once. -/
def execWaitTime (c : CtxId) (f : TaskF) (s : State) : Host.Outcome State Fault Refusal :=
  issue c 4 (f.z ≠ 0 || f.nb) (fun k s =>
    let t := (gReg f.ra (ctxAt k s)).toNat
    if t ≤ srTime s then retireWith 4 id k s else startWait ⟨false, 0, some t, 0⟩ k s) s

/-- wait.ev (R134): nothing to wait for, or a deadline already reached, completes at once with 0. -/
def execWaitEv (c : CtxId) (f : TaskF) (s : State) : Host.Outcome State Fault Refusal :=
  issue c 4 (f.z ≠ 0 || f.nb) (fun k s =>
    let x := ctxAt k s
    let mask := (gReg f.ra x).toNat
    let t := (gReg f.rb x).toNat
    if (mask = 0 ∧ t = 0) ∨ (t ≠ 0 ∧ t ≤ srTime s) then
      retireWith 4 (fun x => x.setG f.rd.val 0) k s
    else startWait ⟨true, mask, if t = 0 then none else some t, f.rd.val⟩ k s) s

/-- post (R135): line 48 + k rises. -/
def execPost (c : CtxId) (f : TaskF) (s : State) : Host.Outcome State Fault Refusal :=
  issue c 4 (f.z ≠ 0 || f.nb) (afterRelease fun k s =>
    let j := (gReg f.ra (ctxAt k s)).toNat % 16
    lineEdge (ctxSlice k) (48 + j) (retireWith 4 id k s)) s

/-! ### CRC feed (R136, R137) -/

/-- R137: an operation that reaches a busy unit, or one that others wait for, stalls its context. -/
def crcIssue (c : CtxId) (f : CrcF) (bad : Bool) (body : Nat → Nat → State → State) (s : State) :
    Host.Outcome State Fault Refusal :=
  issue c 4 (f.z ≠ 0 || f.y ≠ 0 || bad) (fun k s =>
    let u := 4 * ctxSlice k + f.unit.val
    if crcHeld u k s then crcWaits u k s else body u k (crcTaken k s)) s

/-- R136: the feeds: rd and rb must be 0. -/
def crcFeedOp (c : CtxId) (f : CrcF) (bytes : Ctx → List Byte) (s : State) :
    Host.Outcome State Fault Refusal :=
  crcIssue c f (f.rd ≠ 0 || f.rb ≠ 0)
    (fun u k s => crcFeedUnit u (bytes (ctxAt k s)) (retireWith 4 id k s)) s

def execCrcB (c : CtxId) (f : CrcF) (s : State) : Host.Outcome State Fault Refusal :=
  crcFeedOp c f (fun x => leBytes 1 (gReg f.ra x).toNat) s
def execCrcH (c : CtxId) (f : CrcF) (s : State) : Host.Outcome State Fault Refusal :=
  crcFeedOp c f (fun x => leBytes 2 (gReg f.ra x).toNat) s
def execCrcW (c : CtxId) (f : CrcF) (s : State) : Host.Outcome State Fault Refusal :=
  crcFeedOp c f (fun x => leBytes 4 (gReg f.ra x).toNat) s
def execCrcV (c : CtxId) (f : CrcF) (s : State) : Host.Outcome State Fault Refusal :=
  crcFeedOp c f (fun x => leBytes 64 (vReg f.ra x).toNat) s

/-- R136: ra and rb must be 0. -/
def crcReadOp (c : CtxId) (f : CrcF) (val : Nat → State → Nat) (s : State) :
    Host.Outcome State Fault Refusal :=
  crcIssue c f (f.ra ≠ 0 || f.rb ≠ 0)
    (fun u k s => retireWith 4 (fun x => x.setG f.rd.val (BitVec.ofNat 64 (val u s))) k s) s

def execCrcGet (c : CtxId) (f : CrcF) (s : State) : Host.Outcome State Fault Refusal :=
  crcReadOp c f crcRaw s
def execCrcFin (c : CtxId) (f : CrcF) (s : State) : Host.Outcome State Fault Refusal :=
  crcReadOp c f crcFinalUnit s
/-- crc.put: R136 states no value for rd and rb (DEDUCED, log entry 36). -/
def execCrcPut (c : CtxId) (f : CrcF) (s : State) : Host.Outcome State Fault Refusal :=
  crcIssue c f false (fun u k s =>
    crcPutUnit u (gReg f.ra (ctxAt k s)).toNat (retireWith 4 id k s)) s

/-! ### System (R73, R74, R138) -/

/-- R73: what a special register reads; none: there is no such register. -/
def srRead (k num : Nat) (s : State) : Option Nat :=
  let c := ctxAt k s
  let sl := ctxSlice k
  let e := descAt (descOf sl c.desc) s
  let q := sliceAt sl s
  match num with
  | 0x000 => some (k % 4 + 4 * ctxCore k + 32 * sl + 65536 * c.asid)
  | 0x001 => some (c.desc + 4096 * e.flow + 2 ^ 18 * b2n e.flowValid + 2 ^ 19 * e.wg)
  | 0x002 => some (if e.flowValid then e.seq else 0)
  | 0x003 => some (statusOf c)
  | 0x004 => some c.vrm
  | 0x005 => some c.tlmLimit
  | 0x010 => some (match q.cpFrame with | some n => n % 2 ^ 64 | none => 2 ^ 64 - 1)
  | 0x011 => some (srTime s)
  | 0x012 => some q.cpTn
  | 0x013 => some q.cpFacet
  | 0x020 => some ((s.clk - s.upBase) / 10 % 2 ^ 64)
  | 0x021 => some c.icount
  | _ => none

/-- mfs (R74, R138): ra must be 0. -/
def execMfs (c : CtxId) (f : SysF) (s : State) : Host.Outcome State Fault Refusal :=
  issue c 4 (f.ra ≠ 0) (fun k s =>
    if 0x100 ≤ f.num.toNat then raisePriv k s
    else match srRead k f.num.toNat s with
      | some v => retireWith 4 (fun x => x.setG f.rd.val (BitVec.ofNat 64 v)) k s
      | none => raiseIllegal k s) s

/-- mts (R74, R138): rd must be 0; only SAT of sr.status is written. -/
def execMts (c : CtxId) (f : SysF) (s : State) : Host.Outcome State Fault Refusal :=
  issue c 4 (f.rd ≠ 0) (fun k s =>
    if 0x100 ≤ f.num.toNat then raisePriv k s
    else match srRead k f.num.toNat s with
      | none => raiseIllegal k s
      | some _ =>
        if f.num.toNat = 3 then retireWith 4 (fun x => { x with sat := (gReg f.ra x).getLsbD 0 }) k s
        else raisePriv k s) s

/-- fence.rel (R82): stalls until the store buffer has drained. -/
def execFenceRel (c : CtxId) (rd ra : Fin 32) (s : State) : Host.Outcome State Fault Refusal :=
  issue c 4 (rd ≠ 0 || ra ≠ 0) (afterRelease (retireWith 4 id)) s

/-- fence.acq (R82). -/
def execFenceAcq (c : CtxId) (rd ra : Fin 32) (s : State) : Host.Outcome State Fault Refusal :=
  issue c 4 (rd ≠ 0 || ra ≠ 0) (fun k s => retireWith 4 id k (acquire k s)) s

/-- fence: num 3, release first, then acquire; any other num of this group's third form is
ILLEGAL (R138). -/
def execFence (c : CtxId) (f : SysF) (s : State) : Host.Outcome State Fault Refusal :=
  issue c 4 (f.rd ≠ 0 || f.ra ≠ 0 || f.num ≠ 3)
    (afterRelease fun k s => retireWith 4 id k (acquire k s)) s

/-- R88: is the context's image loaded with DEBUG = 1. -/
def debugImage (k : Nat) (s : State) : Bool :=
  match kget none (ctxAt k s).image s.host.images with
  | some i => i.debug
  | none => false

/-- R88, R89: CUE_TRAP, and the task ends TRAPPED, or is held FAULTED for a debugger. -/
def raiseTrap (code k : Nat) (s : State) : State :=
  let s := logSixteenBy 1 0x0442 (ctxSlice k) (p2 code ++ p8 (ctxAt k s).pc) s
  if debugImage k s then
    updCtx k (fun c => { c with
      st := .faulted, fault := some {
      cause := cTrap, kind := 0, va := 0, lane := 0, write := false, fetch := false, from_ := k % 32,
      pc := c.pc } }) s
  else endOnCtx k 3 (code % 256) 0 s

/-- trap (R138): rd and ra must be 0. -/
def execTrap (c : CtxId) (f : SysF) (s : State) : Host.Outcome State Fault Refusal :=
  issue c 4 (f.rd ≠ 0 || f.ra ≠ 0) (raiseTrap f.num.toNat) s

/-- halt (R84): always PRIV. -/
def execHalt (c : CtxId) (_ : SysF) (s : State) : Host.Outcome State Fault Refusal :=
  issue c 4 false raisePriv s

end Sys2Proof.Machine
end

