-- ==== Sys2Proof/Machine/Sched.lean ====
section
/-! DEFINITION. The scheduler's cycle (R140, R141, R150 to R169) and the commands of the scheduler. -/

namespace Sys2Proof.Machine

/-! ### What a slice's contexts are doing -/

def sliceCtxs (sl : Nat) : List Nat := (List.range 32).map (32 * sl + ·)
def ctxFree (k : Nat) (s : State) : Bool := (ctxAt k s).st == .free
def coreEnabled (core : Nat) (s : State) : Bool := bit (Sched.CORE_CTRL (core / 8) (core % 8)) 0 s
def sliceRun (sl : Nat) (s : State) : Bool := bit (Slc.SLC_CTRL sl) 0 s
def ctxDesc (k : Nat) (s : State) : Nat := descOf (ctxSlice k) (ctxAt k s).desc
def ctxGroup (k : Nat) (s : State) : Nat := (descAt (ctxDesc k s) s).wg
/-- R29: SLC_STATUS: dispatch is active, or pre-emptions are still in progress. -/
def slcStatus (sl : Nat) (s : State) : Nat :=
  if sliceRun sl s then b2n (coresOn s)
  else 2 * b2n ((sliceCtxs sl).any fun k => !ctxFree k s)

/-- R169: core c of the slice is drained. -/
def coreDrained (core : Nat) (s : State) : Bool :=
  !coreEnabled core s && (List.range 4).all fun i => ctxFree (4 * core + i) s

/-- The free contexts of enabled cores. -/
def freeContexts (sl : Nat) (s : State) : List Nat :=
  (sliceCtxs sl).filter fun k => ctxFree k s && coreEnabled (k / 4) s

/-- R152: the context a dispatched task takes: the core with most free contexts, the lowest of
them; its lowest free context. -/
def placement (sl : Nat) (s : State) : Option Nat :=
  let free := freeContexts sl s
  let count (core : Nat) := (free.filter fun k => k / 4 == core).length
  let best := (List.range 8).foldl (fun (b : Nat × Nat) i =>
    let n := count (8 * sl + i)
    if b.2 < n then (8 * sl + i, n) else b) (0, 0)
  if best.2 = 0 then none else free.find? fun k => k / 4 == best.1

/-! ### Dispatch (R96, R147, R151) -/

def taskEntry (d : Nat) (s : State) : EntryInfo :=
  let e := descAt d s
  entryOf (descSlice d) e.image e.entry s

/-- R96: the state at a fresh dispatch; bits 1:0 of the pc are 0 (R70). -/
def freshCtx (d k : Nat) (s : State) : Ctx :=
  let e := descAt d s
  let i := taskEntry d s
  let c : Ctx := {
    st := .ready, pc := i.pc % 2 ^ 48 / 4 * 4, restarted := e.restart, tlmLimit := i.tlmLimit,
    asid := fld (Sched.IMG_CFG (descSlice d) e.image) 15 0 s, image := e.image,
    desc := descIdx d, icount := e.icount, dispatchNo := (schedAt (ctxSlice k) s).dispatchNo }
  let c := c.setG 2 (BitVec.ofNat 64 (tlmBase + i.stack))
  let c := upTo 4 (fun j c => c.setG (4 + j) (e.args.getD j 0)) c
  c.setG 8 (BitVec.ofNat 64 (descIdx d))

/-- A task takes a context: a saved one starts its restore (R93); a fresh one is READY. -/
def dispatch (d k : Nat) (s : State) : State :=
  let sl := descSlice d
  let e := descAt d s
  let s := setQueue sl e.wg ((queueOf sl e.wg s).filter (· ≠ d)) s
  let s := updSched sl (fun q => { q with dispatchNo := q.dispatchNo + 1 }) s
  let s := noteEntry sl e.image e.entry s
  let s := { s with issuedAt := kset 0 k s.clk s.issuedAt }
  let c := freshCtx d k s
  let c := if e.slot.isSome then { c with st := .loading } else c
  let s := updDesc d (fun e => { e with st := .running, ctx := some k, dispatched := true }) s
  bump (Sched.DISPATCH_COUNT sl) (acquire k (setCtx k c s))

def groupOpen (sl g : Nat) (s : State) : Bool :=
  bit (Sched.WG_CFG sl g) 8 s && !(queueOf sl g s).isEmpty

def weightOf (sl g : Nat) (s : State) : Nat := max 1 (fld (Sched.WG_CFG sl g) 7 0 s)
def costOf (d : Nat) (s : State) : Nat := max 1 (descAt d s).cost
def deficit (sl g : Nat) (s : State) : Int := sgn 16 (fld (Sched.WG_STATUS sl g) 31 16 s)
def setDeficit (sl g : Nat) (v : Int) (s : State) : State :=
  setFld (Sched.WG_STATUS sl g) 31 16 (unsgn 16 v) s
def drrCur (sl : Nat) (s : State) : Nat := fld (Sched.SCHED_STATUS sl) 15 13 s
def setCur (sl g : Nat) (fresh_ : Bool) (s : State) : State :=
  setBit (Sched.SCHED_STATUS sl) 16 fresh_ (setFld (Sched.SCHED_STATUS sl) 15 13 g s)
def nextGroup (g : Nat) : Nat := if g = 7 then 1 else g + 1

/-- R151: the deficit round robin; n bounds its turns (255 is the greatest cost, and every visit
of an open group adds at least 1). -/
def drr (sl : Nat) : Nat → State → Option Nat × State
  | 0, s => (none, s)
  | n + 1, s =>
    let g := drrCur sl s
    if !groupOpen sl g s then drr sl n (setCur sl (nextGroup g) true (setDeficit sl g 0 s))
    else
      let s := if bit (Sched.SCHED_STATUS sl) 16 s then
          setBit (Sched.SCHED_STATUS sl) 16 false
            (setDeficit sl g (min (deficit sl g s + weightOf sl g s) 32767) s)
        else s
      match queueOf sl g s with
      | [] => (none, s)
      | d :: _ =>
        if (costOf d s : Int) ≤ deficit sl g s then
          (some d, setDeficit sl g (deficit sl g s - costOf d s) s)
        else drr sl n (setCur sl (nextGroup g) true s)

/-- R160: the release buffer is full: what last found it so still would. -/
def relBufFull (sl : Nat) (s : State) : Bool :=
  match (schedAt sl s).full with
  | some need => relBufSize < relBufUsed sl s + need
  | none => false

/-- R160: the READY flow heads, lowest flow first. -/
def readyHeads (sl : Nat) (s : State) : List Nat :=
  (List.range 64).filterMap fun f => match flowHead sl f s with
    | some d => if (queueOf sl (descAt d s).wg s).contains d && bit (Sched.WG_CFG sl (descAt d s).wg) 8 s
        then some d else none
    | none => none

/-- R150: the task selected. -/
def selectTask (sl : Nat) (s : State) : Option Nat × State :=
  let head := if groupOpen sl 0 s then (queueOf sl 0 s).head? else none
  match head with
  | some d => (some d, s)
  | none =>
    let boost := if bit (Sched.SCHED_CTRL sl) 1 s && relBufFull sl s then (readyHeads sl s).head? else none
    match boost with
    | some d => (some d, s)
    | none => if (List.range 7).any fun g => groupOpen sl (g + 1) s then drr sl 2048 s else (none, s)

/-- R150 step 4: at most one dispatch. -/
def selectAndDispatch (sl : Nat) (s : State) : State :=
  if !sliceRun sl s then s
  else match placement sl s with
    | none => s
    | some k =>
      match selectTask sl s with
      | (none, s) => s
      | (some d, s) => dispatch d k s

/-! ### Pre-emption requests (R154, R155, R160, R169) -/

def taskRestarts (k : Nat) (s : State) : Bool := (taskEntry (ctxDesc k s) s).restart
def isHeld (st : CtxState) : Bool := st == .ready || st == .stalled || st == .waiting

/-- May a context be chosen by rule 2 of R154. -/
def canPreempt (sl k : Nat) (s : State) : Bool :=
  let c := ctxAt k s
  isHeld c.st && c.preempt.isNone && ctxGroup k s ≠ 0 && coreEnabled (k / 4) s
    && (taskRestarts k s || 32 < freeSlots sl s)

/-- R154 rule 2: the most recently dispatched; ties to the lowest context. -/
def latest (ks : List Nat) (s : State) : Option Nat :=
  ks.foldl (fun b k => match b with
    | none => some k
    | some j => if (ctxAt j s).dispatchNo < (ctxAt k s).dispatchNo then some k else some j) none

def victim (sl : Nat) (s : State) : Option Nat :=
  let faulted := (sliceCtxs sl).filter fun k =>
    (ctxAt k s).st == .faulted && (ctxAt k s).preempt.isNone && ctxGroup k s ≠ 0
      && coreEnabled (k / 4) s && 32 < freeSlots sl s
  match faulted with
  | k :: _ => some k
  | [] => latest ((sliceCtxs sl).filter fun k => canPreempt sl k s) s

def request (k : Nat) (why : PreemptWhy) (s : State) : State :=
  updCtx k (fun c => { c with preempt := some why }) s

/-- R154: one request per cycle. -/
def wg0Preempt (sl : Nat) (s : State) : State :=
  let waiting := if bit (Sched.WG_CFG sl 0) 8 s then (queueOf sl 0 s).length else 0
  let going := ((sliceCtxs sl).filter fun k =>
    coreEnabled (k / 4) s && ((ctxAt k s).preempt.isSome || (ctxAt k s).st == .saving)).length
  if bit (Sched.SCHED_CTRL sl) 0 s && sliceRun sl s && going + (freeContexts sl s).length < waiting then
    match victim sl s with
    | some k => bump (Sched.PREEMPT_COUNT sl) (request k .wg0 s)
    | none => s
  else s

/-- R160: with the buffer full and no context free, a task stalled on it gives way to a flow head. -/
def boostPreempt (sl : Nat) (s : State) : State :=
  if bit (Sched.SCHED_CTRL sl) 1 s && relBufFull sl s && !(readyHeads sl s).isEmpty
      && (freeContexts sl s).isEmpty then
    let ks := (sliceCtxs sl).filter fun k => canPreempt sl k s && (match (ctxAt k s).stall with
      | some (.relBuf _) => true
      | _ => false)
    match latest ks s with
    | some k => bump (Sched.PREEMPT_COUNT sl) (request k .relBuf s)
    | none => s
  else s

/-- R169, R31: must the contexts of a core leave it. -/
def mustDrain (core : Nat) (s : State) : Bool :=
  !sliceRun (core / 8) s
    || (!coreEnabled core s && bit (Sched.CORE_CTRL (core / 8) (core % 8)) 1 s)

/-- R156: with no pool a RESUME task that is not faulted is left to end by itself. -/
def drainable (k : Nat) (s : State) : Bool :=
  let c := ctxAt k s
  (isHeld c.st || c.st == .faulted) && c.preempt.isNone && !c.slotWait
    && (c.st == .faulted || taskRestarts k s || 0 < saveSlots (ctxSlice k) s)

/-- R169: one request per cycle and core, in ascending context order. -/
def drainCore (sl i : Nat) (s : State) : State :=
  let core := 8 * sl + i
  if mustDrain core s then
    match (List.range 4).find? fun j => drainable (4 * core + j) s with
    | some j => request (4 * core + j) (if sliceRun sl s then .drain else .hold) s
    | none => s
  else s

/-- R169: CORE_STATE at drained. -/
def logDrained (sl i : Nat) (s : State) : State :=
  if (schedAt sl s).draining.contains i && coreDrained (8 * sl + i) s then
    logEv 0x0409 sl (p1 i ++ p1 2)
      (updSched sl (fun q => { q with draining := q.draining.filter (· ≠ i) }) s)
  else s

/-! ### Arrivals (R140 step 2, R153, R163, R166) -/

/-- R153: requeued tasks, the lowest core and context first at the head. -/
def keyInsert (p : Nat × Nat) : List (Nat × Nat) → List (Nat × Nat)
  | [] => [p]
  | q :: t => if q.1 ≤ p.1 then q :: keyInsert p t else p :: q :: t

def requeue (sl : Nat) (p : Nat × Nat) (s : State) : State :=
  let d := p.2
  let s := updDesc d (fun e => { e with st := .ready }) s
  let g := (descAt d s).wg
  setQueue sl g (d :: queueOf sl g s) s

def takeRequeues (sl : Nat) (s : State) : State :=
  let ps := (schedAt sl s).requeues.foldl (fun l p => keyInsert p l) []
  let s := updSched sl (fun q => { q with requeues := [] }) s
  forAll (requeue sl) ps.reverse s

/-- Up to 16 expired entries become READY. -/
def takeExpired (sl : Nat) (s : State) : State :=
  let ds := (schedAt sl s).expired.take 16
  let s := updSched sl (fun q => { q with expired := q.expired.drop 16 }) s
  forAll (readyTail sl) ds s

/-- R166: the submission of an event-triggered entry. -/
def etsSub (sl e : Nat) (s : State) : Sub :=
  let cfg := rd (Sched.ETS_CFG sl e) s
  let pend := fld (Sched.ETS_STATUS sl e) 7 0 s
  { src := .host,
    ctrl := bitsOf cfg 15 8 + 2 ^ 8 * bitsOf cfg 24 22 + 2 ^ 11 * bitsOf cfg 31 26
      + 2 ^ 17 * bitsOf cfg 25 25 + 2 ^ 24,
    image := bitsOf cfg 21 16, start := 0,
    args := [BitVec.ofNat 64 (rd (Sched.ETS_ARG sl e) s),
      BitVec.ofNat 64 ((sliceAt sl s).cpFrame.getD (2 ^ 64 - 1)),
      BitVec.ofNat 64 (rd (Sched.ETS_SEQ sl e) s + 2 ^ 64 - pend + 1),
      BitVec.ofNat 64 (fld (Sched.ETS_STATUS sl e) 31 8 s)],
    tag := 0, tail := 0, badSpec := false }

/-- What a submission pass carries: submissions still to take in this cycle, and the state. -/
abbrev Pass := Nat × State

/-- R166: an entry with pending edges submits one task. -/
def etsSubmit (sl e : Nat) (p : Pass) : Pass :=
  let (n, s) := p
  if n = 0 ∨ fld (Sched.ETS_STATUS sl e) 7 0 s = 0 then p
  else
    let (r, s) := submit sl (etsSub sl e s) s
    if r < 2 ^ 63 then
      (n - 1, setFld (Sched.ETS_STATUS sl e) 7 0 (fld (Sched.ETS_STATUS sl e) 7 0 s - 1) s)
    else if r = stBusy then (n, bump (Sched.BUSY_COUNT sl) s)
    else
      let s := setBit (Sched.ETS_CTL sl e) 0 false s
      (n - 1, logEv 0x0403 sl (p1 e ++ p1 (r % 256)) (orReg (Sched.SCHED_ERR sl) 0x20 s))

def dropSub (sl k : Nat) (s : State) : State :=
  updSched sl (fun q => { q with subs := q.subs.filter fun u => match u.src with
    | .ctx j _ _ _ _ => j ≠ k
    | .host => true }) s

/-- The instruction that submitted returns its handle or status. -/
def answerCtx (k rd len r : Nat) (s : State) : State :=
  updCtx k (fun c => (({ c with st := .ready, stall := none, busyCounted := false }).setG rd
    (BitVec.ofNat 64 r)).retire len) s

/-- R143: a stalled blocking form is counted once. -/
def stallBusy (sl k : Nat) (s : State) : State :=
  let s := if (ctxAt k s).busyCounted then s else bump (Sched.BUSY_COUNT sl) s
  updCtx k (fun c => { c with stall := some .submitBusy, busyCounted := true }) s

/-- The submission of context k, if one waits. -/
def ctxSubmit (sl k : Nat) (p : Pass) : Pass :=
  let (n, s) := p
  match (schedAt sl s).subs.find? fun u => match u.src with
      | .ctx j _ _ _ _ => j == k
      | .host => false with
  | none => p
  | some u =>
    match u.src with
    | .host => p
    | .ctx _ rd len nb _ =>
      if n = 0 then p
      else
        let (r, s) := submit sl u s
        if r = stBusy ∧ ¬ nb then (n, stallBusy sl k s)
        else
          let s := if r = stBusy then bump (Sched.BUSY_COUNT sl) s else s
          (n - 1, answerCtx k rd len r (dropSub sl k s))

/-- One host submission. -/
def hostSubmit (sl : Nat) (p : Pass) : Pass :=
  let (n, s) := p
  match (schedAt sl s).subs.find? Sub.isHost with
  | none => p
  | some u =>
    if n = 0 then p
    else
      let s := updSched sl (fun q => { q with subs := q.subs.erase u }) s
      let (r, s) := submit sl u s
      let s := if r = stBusy then bump (Sched.BUSY_COUNT sl) s else s
      (n - 1, wr (Sched.SUBMIT_RESULT sl) r s)

def arrivals (sl : Nat) (s : State) : State :=
  let s := takeExpired sl (takeRequeues sl s)
  let p := upTo 32 (etsSubmit sl) (4, s)
  let p := forAll (ctxSubmit sl) (sliceCtxs sl) p
  (hostSubmit sl p).2

/-! ### Cancels and kills (R132, R168) -/

/-- A task that has not been dispatched and can be cancelled. -/
def cancellable (d : Nat) (s : State) : Bool :=
  let e := descAt d s
  (e.st == .delayed || e.st == .ready) && !e.dispatched

def hasEnded (d : Nat) (s : State) : Bool :=
  let e := descAt d s
  e.st == .free || e.st == .held || e.st == .releasing

/-- R132. -/
def applyCancel (sl : Nat) (q : Nat × Nat × Nat) (s : State) : State :=
  let (k, rd, h) := q
  match byHandle sl h s with
  | none => answerCtx k rd 4 2 s
  | some d =>
    if cancellable d s then answerCtx k rd 4 0 (cancelTask d s)
    else if hasEnded d s || (schedAt sl s).endings.contains d then answerCtx k rd 4 2 s
    else answerCtx k rd 4 1 s

def descCode (st : DescState) : Nat :=
  match st with
  | .free => 0 | .delayed => 1 | .ready => 2 | .running => 3 | .saved => 4 | .faultPending => 5
  | .held => 6 | .releasing => 7

def killDone (sl result : Nat) (s : State) : State :=
  orReg (Sched.INT_STATUS sl) 2 (wr (Sched.KILL_RESULT sl) (result + 2 ^ 31) s)

/-- R168: a task that was dispatched is killed. -/
def killTask (d : Nat) (s : State) : State :=
  let e := descAt d s
  let s := logKilled d (descCode e.st) s
  match e.ctx with
  | none => endSaved d 4 0 s
  | some k =>
    let c := ctxAt k s
    if c.st = .saving ∨ c.atomic.isSome then updCtx k (fun c => { c with killed := true }) s
    else endOnCtx k 4 0 0 s

/-- R168. -/
def applyKill (sl : Nat) (s : State) : State :=
  match (schedAt sl s).kill with
  | none => s
  | some h =>
    let s := updSched sl (fun q => { q with kill := none }) s
    match byHandle sl h s with
    | none => killDone sl 2 s
    | some d =>
      if cancellable d s then killDone sl 0 (cancelTask d s)
      else if hasEnded d s || (schedAt sl s).endings.contains d then killDone sl 2 s
      else killDone sl 1 (killTask d s)

/-! ### The cycle (R140, R141) -/

/-- R140 step 1. -/
def takeEndings (sl : Nat) (s : State) : State :=
  let ds := (schedAt sl s).endings
  forAll endDescriptor ds (updSched sl (fun q => { q with endings := [] }) s)

def takeCancels (sl : Nat) (s : State) : State :=
  let cs := (schedAt sl s).cancels
  applyKill sl (forAll (applyCancel sl) cs (updSched sl (fun q => { q with cancels := [] }) s))

/-- R167: the entries that assert back-pressure, with their hysteresis. -/
def updateBpn (sl : Nat) (s : State) : State :=
  let on := (schedAt sl s).bpn
  let keep := (List.range 32).filter fun e =>
    let th := fld (Sched.ETS_CTL sl e) 23 16 s
    let pend := fld (Sched.ETS_STATUS sl e) 7 0 s
    fld (Sched.ETS_CTL sl e) 7 4 s ≠ 0 && th ≠ 0 && (th ≤ pend || (on.contains e && th / 2 < pend))
  updSched sl (fun q => { q with bpn := keep }) s

def descLow (sl : Nat) (s : State) : Bool := freeDesc sl s < fld (Sched.BP_CFG sl) 12 0 s
/-- R167: BP_FETCH. -/
def bpFetch (sl : Nat) (s : State) : Bool :=
  descLow sl s || fld (Sched.BP_CFG sl) 23 16 s * relBufSize < relBufUsed sl s * 256
/-- R167: BPNk. -/
def bpNet (sl k : Nat) (s : State) : Bool :=
  (schedAt sl s).bpn.any (fun e => fld (Sched.ETS_CTL sl e) 7 4 s == k + 1)
    || (bit (Sched.BP_CFG sl) 24 s && descLow sl s)

/-- R135: posts of this cycle make one edge a line; the next cycle's make another. -/
def newEdges (sl : Nat) (s : State) : State := { s with edges := kset (0, 0) sl (0, 0) s.edges }

/-! ### Mirrored tasks made at a takeover (R326) -/

/-- The image a BUILD_ID names here. -/
def imageOfBuild (b : Nat) (s : State) : Option Nat :=
  (s.host.images.find? fun p => match p.2 with | some m => m.buildId == b | none => false).map Prod.fst

/-- The tile requests a slot's bytes hold. -/
def slotTlds (b : List Byte) : List TldReq :=
  [0x940, 0x950].filterMap fun o =>
    let v := at_ (o + 8) 8 b
    if v.testBit 63 then
      some ⟨0, bitsOf v 35 32, at_ o 8 b - tlmBase, v % 2 ^ 16, bitsOf v 31 16⟩
    else none

/-- R326 step 2: a record becomes a RESUME task with a save slot, requeued at the head of its group;
it issues the instruction its pc points at again (DESIGN CHOICE, log entry 81).  With no descriptor or
no slot free it waits for one (DESIGN CHOICE, log entry 116). -/
def instantiate (c : MirCtx) (s : State) : State :=
  match imageOfBuild c.buildId s with
  | none => s
  | some i =>
    if freeDesc c.slice s = 0 ∨ freeSlots c.slice s = 0 then
      { s with red := { s.red with toMake := s.red.toMake ++ [c] } }
    else
      let d := descOf c.slice (firstFree c.slice s)
      let (slot, s) := takeSlot c.slice s
      let s := physWrite ⟨7, 0⟩ (slotAddr c.slice slot s) (c.state ++ List.replicate 1696 0 ++ c.tlm) s
      let e : Desc :=
        { st := .saved, gen := takenGen d s, entry := c.entry, wg := c.wg, image := i, cost := 1
          args := [BitVec.ofNat 64 c.arg0, BitVec.ofNat 64 c.arg1], tag := c.tag
          dispatched := true, slot := some slot, savedTlds := slotTlds c.state }
      let s := setDesc d e s
      updSched c.slice (fun q => { q with requeues := q.requeues ++ [(0, d)] }) s

/-- The records of a slice that still wait. -/
def makeTasks (sl : Nat) (s : State) : State :=
  let cs := s.red.toMake
  forAll instantiate (cs.filter fun c => c.slice == sl)
    { s with red := { s.red with toMake := cs.filter fun c => c.slice ≠ sl } }

def cycle (sl : Nat) (s : State) : State :=
  let s := takeEndings sl (newEdges sl s)
  let s := if s.red.toMake = [] then s else makeTasks sl s
  let s := takeCancels sl (arrivals sl s)
  let s := selectAndDispatch sl s
  let s := boostPreempt sl (wg0Preempt sl s)
  let s := upTo 8 (drainCore sl) s
  updateBpn sl (upTo 8 (logDrained sl) s)

/-- SCHEDULER_CYCLE (R140). -/
def execSchedulerCycle (slice : Fin 4) (s : State) : Host.Outcome State Fault Refusal :=
  atOnce (onCores (cycle slice.val)) s

/-! ### Pre-emption and drains (R93, R95, R155, R156) -/

/-- How the context's task would be saved. -/
def saveKind (k : Nat) (s : State) : SaveKind :=
  if (ctxAt k s).st = .faulted then .faulted
  else if taskRestarts k s then .restart else .resume

/-- R93 steps 1 and 3: the context stops; with an atomic outstanding it issues nothing more, and is
saved when the atomic has completed. -/
def stopAndSave (k : Nat) (kind : SaveKind) (s : State) : State :=
  if (ctxAt k s).atomic.isSome then updCtx k (fun c => { c with save := some kind }) s
  else startSave k kind s

/-- PREEMPTION_REQUEST (R93): a request that reaches its context. -/
def preemptionRequest (k : Nat) (s : State) : State :=
  let c := ctxAt k s
  if c.preempt.isNone ∨ ¬ (isHeld c.st ∨ c.st = .faulted) then s
  else
    let kind := saveKind k s
    if kind ≠ .restart ∧ freeSlots (ctxSlice k) s = 0 then waitForSlot k s else stopAndSave k kind s

def execPreemptionRequest (c : CtxId) (s : State) : Host.Outcome State Fault Refusal :=
  atOnce (onCores (preemptionRequest (ctxNo c))) s

/-- DRAIN_SAVE_RESUME (R155): a slot is free, and the drain is still wanted. -/
def drainSaveResume (k : Nat) (s : State) : State :=
  let c := ctxAt k s
  if !c.slotWait then s
  else if !mustDrain (k / 4) s then updCtx k (fun c => { c with slotWait := false }) s
  else if (isHeld c.st || c.st == .faulted) && (0 < freeSlots (ctxSlice k) s || taskRestarts k s) then
    stopAndSave k (saveKind k s) s
  else s
def execDrainSaveResume (c : CtxId) (s : State) : Host.Outcome State Fault Refusal :=
  atOnce (onCores (drainSaveResume (ctxNo c))) s

/-- RELEASE_DRAIN_DONE (R158): what flow f sent has drained as far as its last write; the slot is
released and the next one follows. -/
def releaseDone (sl f : Nat) (s : State) : State :=
  match flowHead sl f s with
  | none => s
  | some d =>
    if (descAt d s).st = .releasing ∧ ¬ flowDraining sl f s then
      let q := releaseNext sl f s
      advanceFlow sl f 4096 (freeDescriptor d (wr (Sched.FLOW_RELEASE_NEXT sl f) ((q + 1) % 2 ^ 32) s))
    else s

def execReleaseDrainDone (slice : Fin 4) (flow : Fin 64) (s : State) :
    Host.Outcome State Fault Refusal :=
  atOnce (onCores (releaseDone slice.val flow.val)) s

/-! ### Delay grid (R162, R163) -/

/-- The instant (2^-32 ns) of point j of the i-th frame of a frame grid. -/
def framePoint (g : Nat × Nat × Nat × Nat) (i j : Nat) : Nat :=
  let (t, num, den, f) := g
  t + i * num * 2 ^ 16 / den * 2 ^ 16 + j * num / (den * f) * 2 ^ 32

/-- The first point of frame i of a frame grid at or after x, if one is. -/
def pointIn (g : Nat × Nat × Nat × Nat) (x i : Nat) : Option Nat :=
  let (t, num, den, f) := g
  let base := t + i * num * 2 ^ 16 / den * 2 ^ 16
  let need := ceilDiv (x - base) (2 ^ 32)
  let j := ceilDiv (need * den * f) num
  if j < f then some (framePoint g i j) else none

/-- The first grid point (2^-32 ns) at or after x. -/
def gridPoint (sl x : Nat) (s : State) : Nat :=
  let step (u : Nat) := ceilDiv x (nsUnits u) * nsUnits u
  if bit (Sched.TICK_CFG sl) 16 s then
    match (schedAt sl s).grid with
    | none => step 1000
    | some g =>
      let (t, num, den, _) := g
      let i := (x - t) * den / (num * 2 ^ 32)
      match pointIn g x i with
      | some p => p
      | none => match pointIn g x (i + 1) with
        | some p => p
        | none => framePoint g (i + 2) 0
  else step (max 1 (fld (Sched.TICK_CFG sl) 9 0 s) * 1000)

/-- R162: the first grid point (2^-32 ns) at which an entry is due. -/
def tickPoint (sl : Nat) (s : State) : Option Nat :=
  (schedAt sl s).delay.head?.map fun p => gridPoint sl (max s.cnt (nsUnits p.1)) s

def tickHop (sl : Nat) (s : State) : State :=
  match tickPoint sl s with
  | none => s
  | some p => hopCnt p s

/-- At grid point p every entry due at or before it has expired; R140 step 2 makes the expired
READY, up to 16 in a cycle. -/
def tick (sl p : Nat) (s : State) : State :=
  let due := (schedAt sl s).delay.filter fun q => nsUnits q.1 ≤ p
  updSched sl (fun q => { q with
    delay := q.delay.filter (fun q => p < nsUnits q.1), expired := q.expired ++ due.map Prod.snd }) s

/-- TICK_GRID_POINT (R162). -/
def execTickGridPoint (slice : Fin 4) (s : State) : Host.Outcome State Fault Refusal :=
  match tickPoint slice.val s with
  | none => atOnce id s
  | some p => timed (onCores (tickHop slice.val)) (onCores (tick slice.val p)) s

/-! ### Register commands -/

/-- SUBMIT (R143). -/
def submitWrite (sl : Nat) (s : State) : State :=
  let b := (List.range 16).flatMap fun i => p4 (rd (Sched.SUBMIT_DESC sl i) s)
  wr (Sched.SUBMIT_RESULT sl) (2 ^ 63)
    (updSched sl (fun q => { q with subs := q.subs ++ [subOf .host b] }) s)
def execSubmit (slice : Fin 4) (who : Req) (s : State) : Host.Outcome State Fault Refusal :=
  atOnce (landing who true (submitWrite slice.val)) s

/-- KILL_HANDLE (R168): the cycle decides it. -/
def killWrite (sl h : Nat) (s : State) : State :=
  wr (Sched.KILL_RESULT sl) 0 (updSched sl (fun q => { q with kill := some h }) s)
def execKillHandle (slice : Fin 4) (who : Req) (handle : Word) (s : State) :
    Host.Outcome State Fault Refusal :=
  atOnce (landing who true (latching who (Sched.KILL_HANDLE slice.val) (killWrite slice.val handle.toNat))) s

/-- FLOW_RESET (R161). -/
def flowReset (sl f : Nat) (s : State) : State :=
  if rd (Sched.FLOW_RELEASE_NEXT sl f) s = rd (Sched.FLOW_NEXT_SEQ sl f) s then
    wr (Sched.FLOW_RELEASE_NEXT sl f) 0 (wr (Sched.FLOW_NEXT_SEQ sl f) 0 s)
  else orReg (Sched.SCHED_ERR sl) 4 s
def execFlowReset (slice : Fin 4) (flow : Fin 64) (who : Req) (s : State) :
    Host.Outcome State Fault Refusal :=
  atOnce (landing who true (flowReset slice.val flow.val)) s

/-- CORE_CTRL_WRITE (R169): CORE_STATE is logged at enable and at disable. -/
def coreCtrlWrite (sl i : Nat) (enable force : Bool) (s : State) : State :=
  let was := coreEnabled (8 * sl + i) s
  let s := wr (Sched.CORE_CTRL sl i) (b2n enable + 2 * b2n force) s
  if was = enable then s
  else
    let s := updSched sl (fun q => { q with
      draining := if enable then q.draining.filter (· ≠ i) else q.draining ++ [i] }) s
    logEv 0x0409 sl (p1 i ++ p1 (if enable then 0 else 1)) s
def execCoreCtrlWrite (slice : Fin 4) (core : Fin 8) (who : Req) (enable force : Bool) (s : State) :
    Host.Outcome State Fault Refusal :=
  atOnce (landing who true (coreCtrlWrite slice.val core.val enable force)) s

/-- SLC_RUN_SET, SLC_RUN_CLEAR (R29): the hold itself is the cycle's work. -/
def slcRun (sl : Nat) (v : Bool) (s : State) : State :=
  let s := setBit (Slc.SLC_CTRL sl) 0 v s
  if !v && s.upd.trialRuns.contains sl then { s with upd := { s.upd with broken := true } } else s
def execSlcRunSet (slice : Fin 4) (who : Req) (s : State) : Host.Outcome State Fault Refusal :=
  atOnce (landing who false (slcRun slice.val true)) s
def execSlcRunClear (slice : Fin 4) (who : Req) (s : State) : Host.Outcome State Fault Refusal :=
  atOnce (landing who false (slcRun slice.val false)) s

/-! ### Fault responses (R188, R189) -/

def badToken (t : Nat) (s : State) : State := orReg (Mmu.MMU_ERR t) 2 s

/-- The source of the outstanding record with a token. -/
def openFault (t token : Nat) (s : State) : Option FaultSrc :=
  ((fqAt t s).open_.find? fun p => p.token == token).map OpenFault.src

/-- Each token is answered once. -/
def closeFault (t token : Nat) (s : State) : State :=
  let q := fqAt t s
  setFq t { q with open_ := q.open_.filter fun p => p.token ≠ token } s

/-- R188: RESUME of a cue context, where it stands, while it is saved, or saved.  Where it stands it
acquires too (R82: every resume of a task). -/
def resumeCtx (d : Nat) (s : State) : State :=
  match (descAt d s).ctx with
  | some k =>
    if (ctxAt k s).st = .saving then
      updCtx k (fun c => { c with fault := none, save := some .resume }) s
    else acquire k (updCtx k (fun c => { c with st := .ready, stall := none, fault := none }) s)
  | none =>
    let s := updDesc d (fun e => { e with st := .saved, savedFault := none }) s
    updSched (descSlice d) (fun q => { q with requeues := q.requeues ++ [(32, d)] }) s

/-- The fault record a task holds, on its context or beside its save slot. -/
def heldFault (d : Nat) (s : State) : Option CtxFault :=
  match (descAt d s).ctx with
  | some k => (ctxAt k s).fault
  | none => (descAt d s).savedFault

/-- R188, R89: TERMINATE: CUE_EXCEPTION, and the task ends FAULTED. -/
def terminateCtx (d : Nat) (f : CtxFault) (s : State) : State :=
  let sl := descSlice d
  let s := logSixteen 0x0440 sl
    (p1 (f.from_ / 4) ++ p1 (f.from_ % 4) ++ p2 (descIdx d) ++ p8 f.pc ++ p1 f.cause ++ p1 f.kind) s
  match (descAt d s).ctx with
  | some k => endOnCtx k 2 f.cause 0 s
  | none => endSaved d 2 f.cause s

/-- R168, R188: a kill has been asked for or decided for the task: it loses no race to a response. -/
def beingKilled (d : Nat) (s : State) : Bool :=
  let sl := descSlice d
  (match (schedAt sl s).kill with
    | some h => byHandle sl h s == some d
    | none => false)
  || (match (descAt d s).ctx with
    | some k => (ctxAt k s).killed
    | none => false)
  || (schedAt sl s).endings.contains d

/-- R188: does a record's context still wait for its answer. -/
def awaits (d gen token : Nat) (s : State) : Option CtxFault :=
  if (descAt d s).gen ≠ gen ∨ beingKilled d s then none
  else match heldFault d s with
    | some f => if f.token = some token then some f else none
    | none => none

/-- R188: a response to a token. -/
def respond (t token : Nat) (resume : Bool) (s : State) : State :=
  match openFault t token s with
  | none => badToken t s
  | some src =>
    let s := closeFault t token s
    match src with
    | .chan k => if resume then chResume k s else chTerminate k s
    | .ctx d gen =>
      match awaits d gen token s with
      | none => badToken t s
      | some f => if resume then resumeCtx d s else terminateCtx d f s

def execFaultRespResume (block : Fin 5) (who : Req) (token : BitVec 16) (s : State) :
    Host.Outcome State Fault Refusal :=
  atOnce (renroOnly who (respond block.val token.toNat true)) s
def execFaultRespTerminate (block : Fin 5) (who : Req) (token : BitVec 16) (s : State) :
    Host.Outcome State Fault Refusal :=
  atOnce (renroOnly who (respond block.val token.toNat false)) s

/-- R189: when FAULT_HOLD of the oldest unanswered record expires. -/
def holdEnds (t : Nat) (s : State) : Option Nat :=
  (fqAt t s).open_.head?.map fun p => p.at_ + realNs (s.upd.cur.faultHold * 1000000)

/-- FAULT_TIMEOUT (R189): Renro logs it and terminates. -/
def faultTimeout (t : Nat) (s : State) : State :=
  match (fqAt t s).open_ with
  | [] => s
  | ⟨token, src, _, _, _⟩ :: _ =>
    let code := match src with
      | .ctx _ _ => 0
      | .chan k => if k < 64 then 1 else 2
    respond t token false (logRenro 0x0508 (if t < 4 then t else noInst) (p4 token ++ p1 code) s)
def execFaultTimeout (block : Fin 5) (s : State) : Host.Outcome State Fault Refusal :=
  match holdEnds block.val s with
  | none => atOnce id s
  | some t => timed (hopClk t) (faultTimeout block.val) s

/-! ### MCHECK and the debugger -/

/-- DEBUGGER_RESUME (R88): a task held by trap goes on after it: on its context, or from its save
slot. -/
def debuggerResume (d : Nat) (s : State) : State :=
  match heldFault d s with
  | none => s
  | some f =>
    if f.cause ≠ cTrap then s
    else match (descAt d s).ctx with
      | some k =>
        let s := resumeCtx d s
        updCtx k (fun c => c.retire 4) s
      | none =>
        let s := match (descAt d s).slot with
          | some i =>
            let a := slotAddr (descSlice d) i s + 0x918
            physWrite ⟨0, descSlice d⟩ a (p8 ((f.pc + 4) % 2 ^ 48)) s
          | none => s
        resumeCtx d (updDesc d (fun e => { e with icount := (e.icount + 1) % 2 ^ 64 }) s)
def execDebuggerResume (slice : Fin 4) (desc : BitVec 12) (s : State) :
    Host.Outcome State Fault Refusal :=
  atOnce (onCores (debuggerResume (descOf slice.val desc.toNat))) s

end Sys2Proof.Machine
end

