-- ==== Sys2Proof/Machine/Sinks.lean ====
section
/-! DEFINITION. The voted role, claims and the ownership of the sinks (R309 to R312, R329 to R332),
and what they stop: shared by the twin, the fatal and the power commands. -/

namespace Sys2Proof.Machine

/-! ### LED channels -/

def ledCh (c : Nat) (s : State) : LedCh := kget {} c s.led.ch
def setLedCh (c : Nat) (h : LedCh) (s : State) : State :=
  { s with led := { s.led with ch := kset {} c h s.led.ch } }
def updLedCh (c : Nat) (f : LedCh → LedCh) (s : State) : State := setLedCh c (f (ledCh c s)) s

/-- The diagnostic counts of a channel from zero (R341, R353). -/
def LedCh.restart (h : LedCh) : LedCh :=
  { h with
    openRun := 0
    openFree := 0
    dropRun := 0
    dropFree := 0
    shortRun := 0
    shortFree := 0
    adjRun := 0
    adjMiss := 0
    unmeasured := 0 }

/-- A pulse in progress ends now: the channel is off (CH_STATUS.ON). -/
def chOff (c : Nat) (s : State) : State :=
  let left (h : LedCh) := h.onClk - (s.clk - h.onAt) / 50
  setBit (Led.CH_STATUS c) 0 false (updLedCh c (fun h =>
    { h with
      onClk := 0
      onSum := h.onSum - left h
      measurable := false }) s)

/-- R341: every change of ownership resets the counts. -/
def restartDiag (s : State) : State := upTo 48 (fun c s => updLedCh c LedCh.restart s) s
def channelsOff (s : State) : State := upTo 48 (fun c s => chOff c s) s

/-! ### A calibration run that ends early (R372, R373) -/

/-- The run ends with a code and a detail.  The group's channels resume (R375). -/
def calEnd (code detail : Nat) (s : State) : State :=
  let seq := match s.cal.run with
    | some r => r.seq
    | none => s.cal.runSeq
  let s := wr Adc.CAL_RESULT (code + 256 * (detail % 256) + 65536 * (seq % 65536)) s
  let s := setFld Adc.CAL_STATUS 21 16 0 (setFld Adc.CAL_STATUS 10 8 0 (setBit Adc.CAL_STATUS 0 false s))
  let held := match s.cal.run with
    | some r => if r.mode = 0 then [] else (List.range 8).map (8 * (r.ch / 8) + ·)
    | none => []
  let s := forAll (fun c s => updLedCh c LedCh.restart s) held s
  { s with cal := { s.cal with run := none } }

/-- R372: an abort; the code, its detail, its count, its record. -/
def calAbort (code detail : Nat) (s : State) : State :=
  logEv 0x0903 noInst (p1 code ++ p1 detail) (bump Adc.CAL_ABORTS (calEnd code detail s))

/-- R373: a run in progress is interrupted; the detail is the cause, in the order of its list
(0 ABORT, 1 VIN, 2 fatal error, 3 role change, 4 activation pause, 5 loss of ownership). -/
def calInterrupt (cause : Nat) (s : State) : State :=
  if s.cal.run.isSome then calAbort 9 cause s else s

/-! ### Role and claim (R309 to R312) -/

def rSolo : Nat := 0
def rSeeking : Nat := 1
def rStandby : Nat := 2
def rActive : Nat := 3
def rFatal : Nat := 4

def roleOf (s : State) : Nat := fld Red.RED_STATUS 2 0 s
def ownsSinks (s : State) : Bool := bit Red.RED_STATUS 6 s
def ilkInLive (s : State) : Bool := bit Red.RED_STATUS 5 s
def pathAOk (s : State) : Bool := bit Red.RED_STATUS 3 s
def pathBOk (s : State) : Bool := bit Red.RED_STATUS 4 s

/-- R312: the voted claims change: from the first S_n at least 1 us later. -/
def voteClaim (s : State) : State :=
  let own := rd Red.CLAIM s
  let twin := if roleOf s = rActive ∨ roleOf s = rSolo then own else 0
  { s with red := { s.red with claimNext := s.red.claimNext ++ [(s.clk + realNs 1000, twin, own)] } }

/-- R310: this module's claim, from the stored epoch and RANK. -/
def putClaim (s : State) : State :=
  voteClaim (wr Red.CLAIM (65536 * (s.upd.cur.epoch % 65536) + rd Red.RANK s) s)

/-- R310: E becomes max(stored, heard) + 1 and is stored; 0xFFFF saturates. -/
def raiseEpoch (s : State) : State :=
  let top := max s.upd.cur.epoch s.red.heard
  let e := min (top + 1) 0xFFFF
  let s := { s with upd := { s.upd with cur := { s.upd.cur with epoch := e }, urgent := true } }
  let s := putClaim s
  if 0xFFFF ≤ top then logEv 0x0A10 noInst [] s else s

/-- R315: LANE_VOTES follows the voted role, except in a dissenting lane (R316). -/
def putVotes (role : Nat) (s : State) : State :=
  upTo 3 (fun l s => if bit Red.RED_STATUS (9 + l) s then s
    else setFld Red.LANE_VOTES (4 * l + 2) (4 * l) role s) s

/-- R309: a role change pulses line 46 in every slice, sets ROLE_CHG and is logged with the old and
new role, the row of R309's table that caused it and the claim. -/
def setRole (new cause : Nat) (s : State) : State :=
  let old := roleOf s
  if old = new then putVotes new s
  else
    let s := putVotes new (setFld Red.RED_STATUS 2 0 new s)
    let s := orReg Red.INT_STATUS 1 (lineEdgeAll 46 s)
    let s := logEv 0x0A01 noInst (p1 old ++ p1 new ++ p1 cause ++ p4 (rd Red.CLAIM s)) s
    voteClaim (calInterrupt 3 s)

/-! ### Sinks (R329, R330) -/

def wSolo : Nat := 0
def wAgreement : Nat := 1
def wHandover : Nat := 2
def wFailure : Nat := 3

/-- R330: the sinks are taken, only while ILK_IN is static.  ILK_OUT goes live; the owner sets
LED_CTRL.ENABLE once start-up has reached step 9 (R425). -/
def takeSinks (way : Nat) (s : State) : State :=
  if ownsSinks s ∨ ilkInLive s then s
  else
    let s := setBit Red.RED_STATUS 6 true s
    let s := if fld Sys.BOOT_STAGE 3 0 s = 9 then setBit Led.LED_CTRL 0 true s else s
    let s := { s with red := { s.red with ilkOut := true } }
    logEv 0x0A0B noInst (p1 way) (orReg Red.INT_STATUS 4 (restartDiag s))

def cLeaving : Nat := 0
def cFatalError : Nat := 1
def cVin : Nat := 2
def cSwitch : Nat := 3

/-- R330: the sinks are released: ILK_OUT static, the channels off, a calibration run aborted. -/
def releaseSinks (cause : Nat) (s : State) : State :=
  if !ownsSinks s then s
  else
    let s := setBit Red.RED_STATUS 6 false s
    let s := { s with red := { s.red with ilkOut := false } }
    let s := channelsOff (restartDiag s)
    calInterrupt 5 (logEv 0x0A0C noInst (p1 cause) (orReg Red.INT_STATUS 4 s))

/-- R330: agreement: ACTIVE, a live path, and the peer's last valid beat owns no sinks. -/
def mayAgree (s : State) : Bool :=
  roleOf s == rActive && (pathAOk s || pathBOk s)
    && (match s.red.peer with | some b => !b.sinks | none => false)

/-- R330: failure: ACTIVE after a takeover or a seek timeout, with both paths failed. -/
def mayFail (s : State) : Bool :=
  roleOf s == rActive && s.red.tookOver && !pathAOk s && !pathBOk s

/-- R330: the sinks are taken by whatever way holds, if ILK_IN is static. -/
def trySinks (s : State) : State :=
  if roleOf s = rSolo then takeSinks wSolo s
  else if mayAgree s then takeSinks wAgreement s
  else if mayFail s then takeSinks wFailure s
  else s

/-- R309: the module enters FATAL: ILK_OUT static, sinks off, beats that carry FATAL. -/
def enterFatalRole (cause : Nat) (s : State) : State :=
  setRole rFatal 11 (releaseSinks cause s)

end Sys2Proof.Machine
end

