-- ==== Sys2Proof/Machine/Outage.lean ====
section
/-! DEFINITION. Resets (R422, R423), the fatal sequence (R431 to R433) and the power sequence
(R463 to R469). -/

namespace Sys2Proof.Machine

/-! ### Warm reset (R422, R423) -/

/-- Registers a warm reset keeps: those of AON, the fuses, what counts since power-on, the dump's
status and the time counter's rate. -/
def keptRegs : List Reg :=
  [Sys.FATAL_CAUSE, Sys.FATAL_COUNT, Sys.DUMP_STATUS, Sys.DUMP_LEN, Sys.HOLDUP_UF, Sys.PF_COUNT,
   Time.RATE_ACT, Upd.FW_VERSION_Q, Upd.SEC_COUNTER]

def copyRegs (rs : List Reg) (old new : State) : State :=
  forAll (fun r s => wr r (rd r old) s) rs new

/-- R356: the latched LED faults (SHORT with SHORT_OFF, SHORT_HARD, ADJ_SHORT, LATCHED_OFF). -/
def latchedFaults (c : Nat) (s : State) : Nat :=
  let v := rd (Led.CH_STATUS c) s
  if v.testBit 10 then v &&& 0x470 else 0

def keepLedFaults (old new : State) : State :=
  upTo 48 (fun c s => wr (Led.CH_STATUS c) (latchedFaults c old) s) new

/-- R423: TIME after a warm reset: FREE_RUN if TIME_VALID was 1, else UNSET. -/
def keepTime (old new : State) : State :=
  if bit Time.TIME_STATUS 3 old then wr Time.TIME_STATUS 9 new else new

/-- R438: the reset cause and the count of warm resets since power-on. -/
def resetCause (cause : Nat) (old : State) : Nat :=
  cause + 256 * min 255 (fld Sys.RESET_CAUSE 15 8 old + 1)

/-- R388: a reset other than power-on waits until the flush completes. -/
def flushForReset (s : State) : State :=
  let s := settle s
  let s := if s.rcd.erase.isNone then commitAll s else s
  match s.rcd.erase with
  | some (_, n) => commitAll (finishErase n s)
  | none => s

/-- What a warm reset leaves: the machine as reset leaves it, with what R422 and R356 keep. -/
def afterWarm (cause : Nat) (o : State) : State :=
  let n : State :=
    { clk := o.clk
      upBase := o.clk
      cnt := o.cnt
      freeCtr := o.freeCtr
      rcd := { store := o.rcd.store, lastFlush := o.clk }
      dram := o.dram
      poison := o.poison
      led := { zeroAt := o.clk }
      upd := { o.upd with cmd := none, act := none, dirty := false, urgent := false, fatalSinceBoot := false, healthAt := o.clk }
      power := { restored := o.power.restored }
      boot :=
        { fatals := o.boot.fatals
          later := o.boot.later
          firstSummary := o.boot.firstSummary
          latestSummary := o.boot.latestSummary
          dumpLogged := o.boot.dumpLogged
          dumpKept := o.boot.dumpKept
          countsAt := o.clk
          watchdogAt := o.clk }
      host := { aon := o.host.aon, aonAt := o.clk }
      hostMem := o.hostMem
      pending := o.pending }
  let n := keepTime o (keepLedFaults o (copyRegs keptRegs o n))
  let n := wr Sys.PWR_STATUS (1 + (rd Sys.PWR_STATUS o &&& 0x5C)) n
  wr Sys.RESET_CAUSE (resetCause cause o) n

/-- R422, R423: a warm reset; causes 1 HOST, 2 FATAL, 3 POWER_FAIL, 4 UPDATE. -/
def warmReset (cause : Nat) (s : State) : State := afterWarm cause (flushForReset s)

/-- SYS_RESET (R423, R438): acted on only with the key 0x5A17 and WARM set. -/
def sysReset (v : Nat) (s : State) : State :=
  if bitsOf v 31 16 = 0x5A17 ∧ v.testBit 0 then warmReset 1 s else s
def execSysReset (who : Req) (v : BitVec 32) (s : State) : Host.Outcome State Fault Refusal :=
  atOnce (landing who false (sysReset v.toNat)) s

/-! ### Fatal errors (R431 to R433) -/

/-- R432: after the third fatal error within 600 s start-up stops at step 5. -/
def fatalLoop (s : State) : Bool :=
  match s.boot.fatals with
  | t :: _ :: u :: _ => t < u + realNs 600000000000
  | _ => false

/-- R434: SEQ of the FATAL record that entered last. -/
def fatalRecordSeq (s : State) : Nat :=
  match s.rcd.staged.reverse.find? (·.code == 0x0102) with
  | some r => r.seq.getD 0
  | none => 0

/-- R432 steps 1 to 4: the cause is latched, the FATAL record created, dispatch and issue stop
(R432: see `frozen`), the role becomes FATAL, the sinks go off, the recorder flushes. -/
def startFatal (cause : Nat) (detail : List Byte) (s : State) : State :=
  let s := setFld Sys.FATAL_CAUSE 7 0 cause (bump Sys.FATAL_COUNT s)
  let s := logEv 0x0102 noInst (p1 cause ++ detail) s
  let s :=
    { s with
      boot :=
        { s.boot with
          fatals := s.clk :: s.boot.fatals.take 3
          fatalStep := 1
          fatalDetail := detail
          mgmtAt := some (s.clk + realNs 2000000)
          fatalUptime := uptime s
          fatalSec := nowSec s % 2 ^ 48
          fatalNs := nowNsec s
          fatalFlags := wallFlags s
          later := 0 }
      host :=
        { s.host with
          mbx := s.host.mbx.map fun m => { m with
            result := 4
            resp := [] } }
      upd := { s.upd with fatalSinceBoot := true } }
  let s := calInterrupt 2 s
  let s := settle (enterFatalRole cFatalError s)
  unfreeze { s with boot := { s.boot with fatalSeq := fatalRecordSeq s } }

/-- R433: a fatal error during the sequence is counted only. -/
def laterFatal (s : State) : State :=
  let s := bump Sys.FATAL_COUNT s
  setFld Sys.DUMP_STATUS 15 8 (min 255 (fld Sys.DUMP_STATUS 15 8 s + 1))
    { s with boot := { s.boot with later := min 255 (s.boot.later + 1) } }

def raiseFatal (cause : Nat) (detail : List Byte) (s : State) : State :=
  if shed s then s
  else if frozen s then laterFatal s
  else startFatal cause detail s

/-- FATAL (R431, R432): a fatal error of a cause with its detail. -/
def execFatal (cause : Fin 6) (detail : List Byte) (s : State) : Host.Outcome State Fault Refusal :=
  if cause.val = 0 then atOnce id s else atOnce (raiseFatal cause.val (detail.take 27)) s

/-- WATCHDOG_EXPIRY (R431): the watchdog has not been serviced for 500 ms; the detail is the uptime
of the last service, 500 ms ago. -/
def watchdog (s : State) : State :=
  raiseFatal 3 (p8 (uptime s - 500000000)) s
def execWatchdogExpiry (s : State) : Host.Outcome State Fault Refusal :=
  timed (fun s => hopClk (max s.boot.watchdogAt (mgmtBase s) + realNs 500000000) s) watchdog s

/-- SUPERVISOR_DISAGREE (R316): no two lanes agree for 10 us: logged, and a fatal error of cause
2. -/
def supervisorDisagree (votes : Nat) (s : State) : State :=
  if shed s then s
  else
    let s := wr Red.LANE_VOTES (votes &&& 0x777) s
    let s := raiseFatal 2 (p4 (rd Red.LANE_VOTES s)) (logEv 0x0A07 noInst [] s)
    wr Red.LANE_VOTES (votes &&& 0x777) s
/-- The lanes' outputs are what the commanded observation gives: three roles, no two equal. -/
def execSupervisorDisagree (g j t : Fin 5) (s : State) : Host.Outcome State Fault Refusal :=
  if g = j ∨ j = t ∨ g = t then atOnce id s
  else atOnce (supervisorDisagree (g.val + 16 * j.val + 256 * t.val)) s

/-- MCHECK (R89, R431): an uncorrectable error in a context's structure; in firmware-owned state it
is a fatal error as well. -/
def execMcheck (c : CtxId) (structure_ : BitVec 8) (firmware : Bool) (s : State) :
    Host.Outcome State Fault Refusal :=
  let k := ctxNo c
  if (ctxAt k s).st = .free ∨ !coresOn s then atOnce id s
  else if firmware then
    atOnce (fun s => raiseFatal 4
      (p1 c.slice.val ++ p1 c.core.val ++ p1 c.ctx.val ++ p1 structure_.toNat)
      (logMcheck k structure_.toNat s)) s
  else atOnce (terminateMcheck k structure_.toNat) s

/-! ### Power (R463 to R469) -/

/-- R467: the frames in transmission and the network stop: every transmitter goes idle. -/
def parkOutputs (s : State) : State :=
  let s := upTo 32 (fun p s => updPort p (fun x => { x with tx := none }) s) s
  upTo 4 (fun p s =>
    { s with net := { s.net with ports := kupd {} p (fun x => { x with sending := none }) s.net.ports } }) s

/-- R455: an activation whose boot control record is not yet written: the new slot must be verified
again. -/
def dropActivation (s : State) : State :=
  match s.upd.act with
  | none => s
  | some a =>
    let again (i : Nat) (x : FwSlot) := if a.target = i ∧ x.st = 3 then { x with st := 2 } else x
    if a.paused then s
    else
      let x := again 0 s.upd.slotA
      let y := again 1 s.upd.slotB
      setFld Upd.UPD_STATUS 14 12 y.st (setFld Upd.UPD_STATUS 10 8 x.st
        { s with upd := { s.upd with slotA := x, slotB := y } })

/-- R467: the power-fail sequence: `trip` for a thermal trip, which logs THERMAL_TRIP in place of
POWER_FAIL (R461). -/
def powerSequence (trip : Bool) (s : State) : State :=
  let s := setBit Sys.PWR_STATUS 1 true s
  let s := orReg Sys.SYS_INT_STATUS 1 (bump Sys.PF_COUNT s)
  let s := dropActivation s
  let s := { s with
    power := { s.power with warnAt := some s.clk, tripped := trip }
    boot := { s.boot with fatalStep := 0 }
    upd := { s.upd with act := none, cmd := none }
    host := { s.host with mbx := none } }
  let s := enterFatalRole cVin s
  parkOutputs (forceDirect (settle s))

/-- POWER_FAIL (R466, R467): VIN falls below 34.0 V; the record carries VIN (mV) and the input power
(mW). -/
def powerFail (vin power : Nat) (s : State) : State :=
  if shed s then s
  else
    let s := setBit Sys.PWR_STATUS 0 false (logEv 0x0110 noInst (p4 vin ++ p4 power) s)
    powerSequence false (calInterrupt 1 s)
def execPowerFail (vin power : BitVec 32) (s : State) : Host.Outcome State Fault Refusal :=
  atOnce (powerFail vin.toNat power.toNat) s

/-- R469: every rail goes off: nothing but MRAM and flash keeps what it held (a record not yet
committed is lost, R388). -/
def shutOff (s : State) : State :=
  let s := cutErase (cutCommit (dropActivation s))
  { clk := s.clk
    upBase := s.clk
    freeCtr := s.freeCtr
    rcd := { store := s.rcd.store }
    upd := { s.upd with cmd := none, act := none, dirty := false, urgent := false }
    boot := { firstSummary := s.boot.firstSummary, latestSummary := s.boot.latestSummary }
    power := { off := true }
    hostMem := s.hostMem
    regs := (copyRegs [Upd.FW_VERSION_Q, Upd.SEC_COUNTER] s {}).regs
    pending := s.pending }
/-- SHUT_OFF (R466, R469): VIN falls below 30.0 V. -/
def execShutOff (s : State) : Host.Outcome State Fault Refusal := atOnce shutOff s

/-- R469: the instant of the warm reset: 10 ms after the later of the warning and the rise. -/
def restoreHop (s : State) : State :=
  match s.power.warnAt with
  | some _ => hopClk (s.clk + realNs 10000000) s
  | none => s

/-- POWER_RESTORED (R469): VIN rises through 36.0 V during a warning: after 10 ms a warm reset with
cause 3; the record waits for start-up step 3. -/
def powerRestored (t0 : Nat) (s : State) : State :=
  match s.power.warnAt with
  | none => s
  | some w =>
    warmReset 3 { s with power := { s.power with restored := some ((t0 - w) / 10) } }
def execPowerRestored (s : State) : Host.Outcome State Fault Refusal :=
  if s.power.tripped then atOnce (setBit Sys.PWR_STATUS 0 true) s
  else timed restoreHop (powerRestored s.clk) s

/-- POWER_ON_RESET (R422, R425 steps 1 and 2): VIN rises through 36.0 V from off: everything is
reset but MRAM and flash, the time counter starts at 0, and the charge time from 20 V to 30 V
(ns) gives the hold-up estimate of R464: 2.0 A x t / 10 V - 100 uF. -/
def holdupUf (charge : Nat) : Nat := min 65535 (charge / 5000 - 100)

def powerOnReset (charge : Nat) (s : State) : State :=
  if !s.power.off ∧ s.clk ≠ 0 then s
  else
    let n := { shutOff s with power := {}, led := { zeroAt := s.clk } }
    let n := { n with boot := { n.boot with watchdogAt := s.clk, countsAt := s.clk } }
    let uf := holdupUf charge
    let n := wr Sys.HOLDUP_UF uf n
    let n := logRenro 0x0104 noInst (p1 2) (logRenro 0x0104 noInst (p1 1) n)
    if uf < 2200 then logEv 0x0114 noInst (p4 uf) (setBit Sys.PWR_STATUS 4 true n) else n
def execPowerOnReset (charge : BitVec 32) (s : State) : Host.Outcome State Fault Refusal :=
  atOnce (powerOnReset charge.toNat) s

/-- VIN_OVER (R463): VIN above 75 V. -/
def vinOver (vin : Nat) (s : State) : State :=
  if s.power.off then s
  else logPer 0x0112 noInst oneMinute (p4 vin) (setBit Sys.PWR_STATUS 2 true s)
/-- The observed VIN is given in mV; at or below 75 V the flag clears. -/
def execVinOver (vin : BitVec 32) (s : State) : Host.Outcome State Fault Refusal :=
  if 75000 < vin.toNat then atOnce (vinOver vin.toNat) s
  else atOnce (setBit Sys.PWR_STATUS 2 false) s

/-- OV_CUTOFF (R463): the input switch opens at 82 V; the record carries the peak VIN. -/
def ovCutoff (peak : Nat) (s : State) : State :=
  if s.power.off then s
  else logEv 0x0113 noInst (p4 peak) (setBit Sys.PWR_STATUS 3 true s)
def execOvCutoff (peak : BitVec 32) (s : State) : Host.Outcome State Fault Refusal :=
  atOnce (ovCutoff peak.toNat) s

/-- OV_REJOIN (R463): VIN falls below 78.0 V and the input is rejoined. -/
def execOvRejoin (s : State) : Host.Outcome State Fault Refusal :=
  atOnce (setBit Sys.PWR_STATUS 3 false) s

/-! ### Host reset (R424) -/

/-- R194, R424: a host channel is stopped as STOP does, set IDLE, ENABLE 0. -/
def hostChReset (k : Nat) (s : State) : State :=
  let s := setBit (Dma.CH_CTRL k) 0 false (setChState k chIdle s)
  setChan k {} s

/-- HOST_RESET (R424): kind 0 FLR, 1 hot reset, 2 PERST_N, 3 link down.  The HOST block goes to its
reset values; a mailbox command in progress has taken effect, its response is discarded.  HOST_LINK carries 0 up,
1 down, and the speed and width of the link that came or went (R437, R486). -/
def hostReset (kind : Nat) (s : State) : State :=
  let speed := fld Hst.HOST_STATUS 2 0 s
  let width := fld Hst.HOST_STATUS 6 4 s
  let keep := fun (a : Nat) => !(hstBase ≤ a && a < hstBase + 0x2000)
  let s := { s with
    regs := kfilter keep s.regs
    host :=
      { s.host with
        mbx := none
        inService := []
        ntfSeq := 0 } }
  let s := upTo 8 (fun h s => hostChReset (64 + h) s) s
  let s := logEv 0x0D02 noInst (p1 kind) s
  if kind = 3 then logEv 0x0D04 noInst (p1 1 ++ p1 speed ++ p1 width) s else s
def execHostReset (kind : Fin 4) (s : State) : Host.Outcome State Fault Refusal :=
  atOnce (hostReset kind.val) s

/-- HOST_LINK_UP (R437): the PCIe link trains up with a speed (Gen) and a width. -/
def execHostLinkUp (speed width : Fin 5) (s : State) : Host.Outcome State Fault Refusal :=
  if shed s then atOnce id s
  else atOnce (fun s => logEv 0x0D04 noInst (p1 0 ++ p1 speed.val ++ p1 width.val)
    (setFld Hst.HOST_STATUS 6 4 width.val (setFld Hst.HOST_STATUS 2 0 speed.val s))) s

/-- PWR_CLEAR (R483): VIN_MIN := VIN_NOW, TEMP_PEAK := the highest die reading of the scan. -/
def temp16 (code : Nat) : Int := Int.fdiv (5 * (code : Int) - 174816) 40
def dieTemps (s : State) : List Int :=
  (List.range 5).filterMap fun i =>
    let v := rd (Adc.HK_RESULT (24 + i)) s
    if v.testBit 16 then some (temp16 (v % 65536)) else none
def maxInt : List Int → Int
  | [] => 0
  | x :: t => t.foldl max x
def pwrClear (s : State) : State :=
  wr Sys.TEMP_PEAK (unsgn 16 (maxInt (dieTemps s))) (wr Sys.VIN_MIN (rd Sys.VIN_NOW s) s)
def execPwrClear (who : Req) (s : State) : Host.Outcome State Fault Refusal :=
  atOnce (landing who false pwrClear) s

/-- DUMP_ACK (R436): the key 0xA5C3 sets ACKED. -/
def dumpAck (v : Nat) (s : State) : State :=
  if v = 0xA5C3 then setBit Sys.DUMP_STATUS 1 true s else s
def execDumpAck (who : Req) (v : BitVec 32) (s : State) : Host.Outcome State Fault Refusal :=
  atOnce (landing who false (dumpAck v.toNat)) s

/-- AON_COPY_REFRESH (R414): every 1 ms SYS copies the AON registers that host reads return. -/
def aonRefresh (s : State) : State :=
  let put (r : Reg) (m : KMap Word) := kset 0 r.addr (BitVec.ofNat 64 (rd r s)) m
  { s with host := { s.host with aonAt := s.clk, aon := put Sys.PF_COUNT (put Sys.FATAL_CAUSE s.host.aon) } }
def execAonCopyRefresh (s : State) : Host.Outcome State Fault Refusal :=
  timed (fun s => hopClk (s.host.aonAt + realNs 1000000) s) aonRefresh s

end Sys2Proof.Machine
end

