-- ==== Sys2Proof/Machine/Led.lean ====
section
/-! DEFINITION. LED drive: duty, pattern engines, PWM and phase, diagnosis, derating, sink power,
headroom (R340 to R360). -/

namespace Sys2Proof.Machine

/-- One LED clock, in 0.1 ns. -/
def ledClk : Nat := 50

/-! ### The PWM counter (R346, R348) -/

/-- The real instant of the next wrap. -/
def wrapAt (s : State) : Nat := s.led.zeroAt + ledClk * (s.led.period + s.led.stretch)

/-- R346: the counter wraps at w: a valid write of PWM_PERIOD takes effect and clears the dither. -/
def wrapNow (w : Nat) (s : State) : State :=
  let p := rd Led.PWM_PERIOD s
  let s := if s.led.written then upTo 48 (fun c s => updLedCh c (fun h => { h with acc := 0 }) s) s
    else s
  { s with led := { s.led with zeroAt := w, period := p, stretch := 0, written := false } }

/-- The counter brought up to the present: zeroAt is the last wrap. -/
def ledNorm (s : State) : State :=
  if s.clk < wrapAt s then s
  else
    let s := wrapNow (wrapAt s) s
    let p := ledClk * s.led.period
    { s with led := { s.led with zeroAt := s.led.zeroAt + (s.clk - s.led.zeroAt) / p * p } }

/-- PWM_COUNT. -/
def pwmCount (s : State) : Nat :=
  let s := ledNorm s
  (s.clk - s.led.zeroAt) / ledClk

/-- R346: O_c for a configuration and a period of p clocks. -/
def phaseOffset (cfg p : Nat) : Nat := bitsOf cfg 23 16 * p / 256

/-- R347: the values of CH_DUTY, CH_CFG and CH_CURRENT that a start at instant t uses: a write
within the last 2 clocks waits. -/
def usedRegs (c t : Nat) (s : State) : Nat × Nat × Nat :=
  (ledCh c s).recent.foldl (fun v w => if t < w.1 + 2 * ledClk then w.2 else v)
    (rd (Led.CH_DUTY c) s, rd (Led.CH_CFG c) s, rd (Led.CH_CURRENT c) s)

/-- The next start of channel c at the PHASE of a configuration. -/
def startWith (c cfg : Nat) (s : State) : Nat :=
  let t := s.led.zeroAt + ledClk * phaseOffset cfg s.led.period
  if s.clk ≤ t ∧ (ledCh c s).onAt < t then t
  else wrapAt s + ledClk * phaseOffset cfg (rd Led.PWM_PERIOD s)

/-- The real instant of channel c's next period start: a PHASE written within the last 2 clocks
before it waits (R347). -/
def nextStart (c : Nat) (s : State) : Nat :=
  let s := ledNorm s
  let t := startWith c (rd (Led.CH_CFG c) s) s
  startWith c (usedRegs c t s).2.1 s

/-! ### Pattern engines (R345) -/

/-- A step of an engine: its index in the table, level, ramp, duration in ns. -/
structure EngStep where
  idx : Nat
  level : Nat
  ramp : Bool
  ns : Nat
  deriving DecidableEq, Repr

def engSteps (e : Nat) (s : State) : List EngStep :=
  let n := min 16 (max 1 (fld (Led.ENG_CTRL e) 20 16 s))
  (List.range n).map fun i =>
    let j := (fld (Led.ENG_CTRL e) 14 8 s + i) % 128
    let v := rd (Led.STEP j) s
    ⟨j, v % 65536, v.testBit 16, bitsOf v 63 32 * 1000⟩

/-- A level during a step, before `next` levels follow: R345's ramp, truncated towards zero. -/
def engLevel (p : EngStep) (next : Nat) (t : Nat) : Nat :=
  if p.ramp then ((p.level : Int) + Int.tdiv (((next : Int) - p.level) * t) p.ns).toNat else p.level

/-- The step that instant t of a cycle falls in (steps of duration 0 skipped): its level and
index. -/
def engAt (first : Nat) : List EngStep → Nat → Nat × Nat
  | [], _ => (0, 0)
  | p :: rest, t =>
    if t < p.ns then (engLevel p ((rest.head?.map EngStep.level).getD first) t, p.idx)
    else engAt first rest (t - p.ns)

/-- The output, step and loops done of engine e at counter time tau (ns). -/
def engine (e tau : Nat) (s : State) : Nat × Nat × Nat :=
  let steps := engSteps e s
  let run := steps.filter fun p => p.ns ≠ 0
  let held := (fld (Led.ENG_STATUS e) 15 0 s, fld (Led.ENG_STATUS e) 22 16 s, fld (Led.ENG_STATUS e) 31 24 s)
  let cycle := (run.map EngStep.ns).foldl (· + ·) 0
  if !bit (Led.ENG_CTRL e) 0 s ∨ cycle = 0 then held
  else
    let origin := rd (Led.ENG_ORIGIN e) s
    match steps.head?, steps.getLast? with
    | some a, some z =>
      if tau < origin then (a.level, a.idx, 0)
      else
        let k := (tau - origin) / cycle
        let loops := fld (Led.ENG_CTRL e) 31 24 s
        if loops ≠ 0 ∧ loops ≤ k then (z.level, z.idx, min 255 loops)
        else
          let first := (run.head?.map EngStep.level).getD 0
          let (l, i) := engAt first run ((tau - origin) % cycle)
          (l, i, min 255 k)
    | _, _ => held

/-- Engine e is evaluated at the present counter time, into ENG_STATUS. -/
def runEngine (e : Nat) (s : State) : State :=
  let (l, i, k) := engine e (nowNs s) s
  wr (Led.ENG_STATUS e) (l + 65536 * i + 2 ^ 24 * k) s

/-! ### From level to duty (R343, R344) -/

/-- R355: the derating factor of a thermistor; 0x8000 when disabled or none. -/
def thFactor (t : Nat) (s : State) : Nat :=
  if t < 8 ∧ bit (Led.TH_CFG t) 0 s then fld (Led.TH_STATUS t) 31 16 s else 0x8000

def globalScale (s : State) : Nat := fld Led.SINK_POWER 31 16 s

/-- R344. -/
def ledCurve (k i : Nat) (s : State) : Nat := min 0x40000 (rd (Led.CURVE k (min i 1023)) s)

/-- R343: src of a channel for a duty register and a configuration, after its engine ran. -/
def srcOf (duty cfg : Nat) (s : State) : Nat :=
  let lvl := duty % 65536
  let eng := fld (Led.ENG_STATUS (bitsOf cfg 5 3)) 15 0 s
  match bitsOf cfg 2 1 with
  | 1 => eng
  | 2 => (eng * lvl + 0x7FFF) / 0xFFFF
  | _ => lvl

/-- R343: the duty d from src, an unsigned value up to 0x4_0000. -/
def dutyOf (src cfg : Nat) (s : State) : Nat :=
  let l := (src * thFactor (bitsOf cfg 15 12) s + 0x4000) / 32768
  let l := (l * globalScale s + 0x4000) / 32768
  if cfg.testBit 6 then
    let k := bitsOf cfg 8 7
    let c0 : Int := ledCurve k (l / 64) s
    let c1 : Int := ledCurve k (l / 64 + 1) s
    (c0 + Int.fdiv ((c1 - c0) * (l % 64 : Nat) + 32) 64).toNat
  else (l * 0x40000 + 0x7FFF) / 0xFFFF

/-- Before a write of one of those registers. -/
def noteLedWrite (c : Nat) (s : State) : State :=
  let w := (s.clk, rd (Led.CH_DUTY c) s, rd (Led.CH_CFG c) s, rd (Led.CH_CURRENT c) s)
  updLedCh c (fun h => { h with recent := (w :: h.recent).filter (fun w => s.clk < w.1 + 3 * ledClk) }) s

/-! ### Period starts (R341, R347, R350, R351) -/

/-- R375: a calibration holds off the channels of its group. -/
def calHolds (c : Nat) (s : State) : Bool :=
  match s.cal.run with
  | some r => r.mode != 0 && c / 8 == r.ch / 8
  | none => false

/-- R341: may channel c conduct. -/
def mayConduct (c : Nat) (s : State) : Bool :=
  bit Led.LED_CTRL 0 s && bit (Led.CH_CFG c) 0 s && ownsSinks s && !bit (Led.CH_STATUS c) 10 s
    && !calHolds c s && !shed s


/-- R350: a period of channel c with d > 0 went unmeasured. -/
def wentUnmeasured (c : Nat) (cfg : Nat) (s : State) : State :=
  let n := (ledCh c s).unmeasured + 1
  let s := updLedCh c (fun h => { h with unmeasured := n }) s
  let limit := if cfg.testBit 10 then 512 else 64
  if limit ≤ n ∧ ¬ bit (Led.CH_STATUS c) 3 s then
    logPer 0x0802 c oneMinute (p1 c ++ p4 n)
      (orReg Led.INT_STATUS 1 (setBit (Led.CH_STATUS c) 3 true s))
  else s

/-- R350: a channel with d = 0 is OFF, not OPEN_UNVERIFIED. -/
def dutyZero (c : Nat) (s : State) : State :=
  setBit (Led.CH_STATUS c) 3 false (updLedCh c (fun h => { h with unmeasured := 0 }) s)

/-- R347: on_clk and the accumulator after it. -/
def onClocks (d p : Nat) (dither : Bool) (acc : Int) : Nat × Int :=
  if dither then
    let a := acc + (d * p : Nat)
    let on := (a / 262144).toNat
    (on, a - (on * 262144 : Nat))
  else (d / 4 * p / 65536, acc)

/-- What the pulse that ended leaves: a whole pulse of 240 clocks was a measured period. -/
def LedCh.settled (h : LedCh) : LedCh :=
  if h.measurable then { h with unmeasured := 0, sinceMeas := 0 } else h

/-- The start of a period of channel c at instant t. -/
def periodStart (c t : Nat) (s : State) : State :=
  let (duty, cfg, cur) := usedRegs c t s
  let s := runEngine (bitsOf cfg 5 3) s
  let was := (ledCh c s).measurable
  let h := (ledCh c s).settled
  let src := if bit Led.LED_CTRL 2 s then h.src else srcOf duty cfg s
  let d := dutyOf src cfg s
  let p := s.led.period
  let (on, acc) := onClocks d p (cfg.testBit 9) h.acc
  let n := h.sinceMeas + 1
  let steal := cfg.testBit 10 && 0 < d && n % 256 == 0 && on < 240
  let acc := if steal && cfg.testBit 9 then acc - ((240 - on) * 262144 : Nat) else acc
  let on := min p (if steal then 240 else on)
  let runs := mayConduct c s && cfg.testBit 0
  let on := if runs then on else 0
  let measured := 240 ≤ on
  let s := setBit (Led.CH_STATUS c) 1 was s
  let s := setBit (Led.CH_STATUS c) 0 (0 < on) (wr (Led.CH_DUTY_ACT c) d s)
  let s := setLedCh c
    { h with
      src := src
      curr := cur % 1024
      acc := acc
      onAt := t
      onClk := on
      measurable := measured
      sampled := false
      onSum := h.onSum + on
      ofSum := h.ofSum + p
      sinceMeas := n } s
  if d = 0 then dutyZero c s
  else if runs && !measured then wentUnmeasured c cfg s
  else s

/-- PWM_PERIOD_START (R343, R346, R347): channel c reaches its period start. -/
def execPwmPeriodStart (c : Fin 48) (s : State) : Host.Outcome State Fault Refusal :=
  timed (fun s => ledNorm (hopClk (nextStart c.val s) s)) (periodStart c.val (nextStart c.val s)) s

/-- PWM_WRAP (R346): the counter wraps; a pending PWM_PERIOD takes effect. -/
def execPwmWrap (s : State) : Host.Outcome State Fault Refusal :=
  timed (fun s => hopClk (wrapAt (ledNorm s)) s) ledNorm s

/-! ### Phase reference (R348) -/

/-- A pulse in progress at instant t ends there; before its sample it is not measured (R349). -/
def cutPulse (c t : Nat) (s : State) : State :=
  let h := ledCh c s
  if t < h.onAt + ledClk * h.onClk then
    let k := (t - h.onAt) / ledClk
    let lost := h.measurable && !h.sampled && k < 200
    let s := setBit (Led.CH_STATUS c) 0 false (setLedCh c
      { h with
        onClk := k
        onSum := h.onSum - (h.onClk - k)
        measurable := h.measurable && !lost } s)
    if lost then wentUnmeasured c (rd (Led.CH_CFG c) s) s else s
  else s

/-- The error, in clocks to the nearest wrap: positive after it. -/
def phaseError (pos p : Nat) : Int := if 2 * pos ≤ p then pos else (pos : Int) - p

def phaseReference (s : State) : State :=
  if !s.led.refPending then s
  else
    let s := ledNorm { s with led := { s.led with refPending := false } }
    let s := setBit Led.LED_STATUS 2 true s
    let pos := ceilDiv (s.clk - s.led.zeroAt) ledClk
    let t := s.led.zeroAt + ledClk * pos
    let e := phaseError pos (s.led.period + s.led.stretch)
    if e = 0 then s
    else if bit Led.LED_CTRL 1 s ∧ e.natAbs ≤ 16 then
      if 0 < e then { s with led := { s.led with stretch := s.led.stretch + e.toNat } }
      else wrapNow t s
    else
      let s := upTo 48 (fun c s => cutPulse c t s) s
      let s := { s with led := { s.led with zeroAt := t, stretch := 0 } }
      logPer 0x080D noInst oneSecond (p4 (unsgn 32 e)) (orReg Led.INT_STATUS 8 (bump Led.PHASE_SNAPS s))

/-- PHASE_REFERENCE (R348): a DST_PWM firing arrives. -/
def execPhaseReference (s : State) : Host.Outcome State Fault Refusal := atOnce phaseReference s

/-! ### Diagnosis (R349 to R353) -/

/-- One diagnosis: a run of `need` samples with the condition declares it, and as many without it
clear it.  The runs, whether it stands, and whether it was declared just now. -/
def diagStep (cond : Bool) (need run free : Nat) (stands : Bool) : Nat × Nat × Bool × Bool :=
  if cond then
    let r := run + 1
    (r, 0, stands || need ≤ r, !stands && need ≤ r)
  else
    let f := free + 1
    (0, f, stands && f < need, false)

def openCount (s : State) : Nat := max 1 (fld Led.DIAG_CFG 3 0 s)
def shortCount (s : State) : Nat := max 1 (fld Led.DIAG_CFG 15 8 s)
def shortThresh (s : State) : Nat := fld Led.DIAG_CFG 23 16 s
def adjCount (s : State) : Nat := max 1 (fld Led.DIAG_CFG 27 24 s)

def diagInt (s : State) : State := orReg Led.INT_STATUS 1 s

def openStep (c : Nat) (regOk : Bool) (v : Nat) (s : State) : State :=
  let h := ledCh c s
  let (r, f, st, new) := diagStep (!regOk && v < 3) (openCount s) h.openRun h.openFree (bit (Led.CH_STATUS c) 2 s)
  let s := setBit (Led.CH_STATUS c) 2 st (setLedCh c { h with openRun := r, openFree := f } s)
  if new then logEv 0x0801 c (p1 c) (diagInt s) else s

def dropStep (c : Nat) (regOk : Bool) (v : Nat) (s : State) : State :=
  let h := ledCh c s
  let (r, f, st, new) := diagStep (!regOk && 3 ≤ v) 16 h.dropRun h.dropFree (bit (Led.CH_STATUS c) 8 s)
  let s := setBit (Led.CH_STATUS c) 8 st (setLedCh c { h with dropRun := r, dropFree := f } s)
  if new then logPer 0x0806 c oneMinute [] (diagInt s) else s

/-- R356: the channel goes off, latched. -/
def latchOff (c : Nat) (s : State) : State := chOff c (setBit (Led.CH_STATUS c) 10 true s)

def shortStep (c : Nat) (v : Nat) (s : State) : State :=
  let h := ledCh c s
  let (r, f, st, new) := diagStep (shortThresh s < v) (shortCount s) h.shortRun h.shortFree
    (bit (Led.CH_STATUS c) 4 s)
  let s := setBit (Led.CH_STATUS c) 4 st (setLedCh c { h with shortRun := r, shortFree := f } s)
  if new then
    let s := logEv 0x0803 c (p1 c ++ p2 v) (diagInt s)
    if bit (Led.CH_CFG c) 24 s then latchOff c s else s
  else s

/-- Is channel c conducting at instant t. -/
def conductingAt (c t : Nat) (s : State) : Bool :=
  let h := ledCh c s
  h.onAt ≤ t && t < h.onAt + ledClk * h.onClk

/-- R352: channel x is tested, or not, in a measured period of its neighbour c at instant t. -/
def adjStep (x c t : Nat) (fails : Bool) (s : State) : State :=
  if 48 ≤ x ∨ !bit (Led.CH_CFG x) 25 s then s
  else if conductingAt x t s then
    let n := (ledCh x s).adjMiss + 1
    let s := updLedCh x (fun h => { h with adjMiss := n }) s
    if n = 64 then diagInt (setBit (Led.CH_STATUS x) 7 true s) else s
  else
    let r := if fails then (ledCh x s).adjRun + 1 else 0
    let s := setBit (Led.CH_STATUS x) 7 false (updLedCh x (fun h => { h with adjRun := r, adjMiss := 0 }) s)
    if adjCount s ≤ r ∧ !bit (Led.CH_STATUS x) 6 s then
      let s := logEv 0x0805 (min x c) (p1 (min x c) ++ p1 (max x c)) (diagInt s)
      forAll (fun y s => latchOff y (setBit (Led.CH_STATUS y) 6 true s)) [x, c] s
    else s

/-- A sample of channel c's monitor. -/
def sinkSample (c : Nat) (regOk : Bool) (v : Nat) (lo hi : Bool) (s : State) : State :=
  let h := ledCh c s
  let t := h.onAt + 200 * ledClk
  let s := setFld (Led.CH_STATUS c) 23 16 v (setBit (Led.CH_STATUS c) 3 false s)
  let s := setBit (Led.CH_STATUS c) 1 true s
  let s := setLedCh c
    { h with
      sampled := true
      powSeen := true
      unmeasured := 0
      sinceMeas := 0
      hrMin := some (match h.hrMin with | some m => min m v | none => v) } s
  let s := shortStep c v (dropStep c regOk v (openStep c regOk v s))
  let s := adjStep (c + 1) c t hi s
  if c = 0 then s else adjStep (c - 1) c t lo s

/-- SINK_SAMPLE (R349, R352): 200 clocks into a measured pulse, the monitor gives REG_OK and VSINK
(0.1 V, saturating at 255), and the adjacent-pin tests of channels c - 1 and c + 1 fail or not. -/
def execSinkSample (c : Fin 48) (regOk : Bool) (vsink : BitVec 8) (adjLo adjHi : Bool) (s : State) :
    Host.Outcome State Fault Refusal :=
  let h := ledCh c.val s
  if h.measurable ∧ !h.sampled ∧ mayConduct c.val s then
    timed (hopClk (h.onAt + 200 * ledClk)) (sinkSample c.val regOk vsink.toNat adjLo adjHi) s
  else atOnce id s

/-- LED_SHORT_HARD (R349): VSINK above 24 V for 2 us of on-time of the present pulse. -/
def ledShortHard (c : Nat) (s : State) : State :=
  logEv 0x0804 c (p1 c) (diagInt (latchOff c (setBit (Led.CH_STATUS c) 5 true s)))
def execLedShortHard (c : Fin 48) (s : State) : Host.Outcome State Fault Refusal :=
  let h := ledCh c.val s
  if 400 ≤ h.onClk ∧ mayConduct c.val s ∧ s.clk ≤ h.onAt + ledClk * h.onClk then
    timed (hopClk (h.onAt + 400 * ledClk)) (ledShortHard c.val) s
  else atOnce id s

/-- CH_CLEAR (R353): the latched faults of the channel are cleared and its counts restart. -/
def chClear (c : Nat) (s : State) : State :=
  let v := rd (Led.CH_STATUS c) s
  let v := if v.testBit 10 then putBits v 4 4 0 else v
  let v := putBits (putBits v 6 5 0) 10 10 0
  updLedCh c LedCh.restart (wr (Led.CH_STATUS c) v s)
def execChClear (c : Fin 48) (who : Req) (s : State) : Host.Outcome State Fault Refusal :=
  atOnce (landing who false (chClear c.val)) s

/-! ### Thermistors and derating (R354, R355) -/

def thLut (j : Nat) (s : State) : Int := sgn 16 (rd (Led.TH_LUT j) s)

/-- R354: the temperature (1/16 degC) of a code. -/
def thTemp (code : Nat) (s : State) : Int :=
  let a := thLut (code / 256) s
  let b := thLut (code / 256 + 1) s
  a + Int.fdiv ((b - a) * (code % 256 : Nat)) 256

/-- R355: the target factor. -/
def derateTarget (t : Nat) (temp : Int) (s : State) : Nat :=
  let f := fld (Led.TH_CFG t) 31 24 s * 128
  let ts := sgn 8 (fld (Led.TH_CFG t) 15 8 s) * 16
  let te := sgn 8 (fld (Led.TH_CFG t) 23 16 s) * 16
  if temp ≤ ts then 0x8000
  else if te ≤ temp then f
  else (0x8000 - Int.tdiv ((0x8000 - f) * (temp - ts)) (te - ts)).toNat

/-- The factor moves towards its target by at most DERATE_STEP. -/
def stepTowards (step cur target : Nat) : Nat :=
  if cur ≤ target then min target (cur + step) else max target (cur - step)

def putFactor (t f : Nat) (temp : Int) (s : State) : State :=
  let old := fld (Led.TH_STATUS t) 31 16 s
  let s := setFld (Led.TH_STATUS t) 31 16 f s
  let s := if old = 0x8000 ∧ f < 0x8000 then
      orReg Led.INT_STATUS 2 (logEv 0x0808 t (p1 t ++ p2 (unsgn 16 temp)) s)
    else s
  if old < 0x8000 ∧ f = 0x8000 then orReg Led.INT_STATUS 2 (logEv 0x0809 t [] s) else s

/-- Sets or clears a bit of TH_FAULTS; answers whether it rose. -/
def thFlag (b : Nat) (v : Bool) (s : State) : Bool × State :=
  (v && !bit Led.TH_FAULTS b s, setBit Led.TH_FAULTS b v s)

/-- R355: one thermistor at one update. -/
def derateOne (t : Nat) (s : State) : State :=
  if !bit (Led.TH_CFG t) 0 s then s
  else
    let v := rd (Adc.HK_RESULT (2 + t)) s
    let code := v % 65536
    let stale := !v.testBit 16 || kget 0 (2 + t) s.adc.hkWhen + realNs oneSecond < s.clk
    let (rose, s) := thFlag (16 + t) stale s
    let s := if rose then logEv 0x0822 t (p1 t) s else s
    if stale then s
    else
      let hot := 64226 ≤ code
      let low := code ≤ 1310
      let (r0, s) := thFlag t hot s
      let (r1, s) := thFlag (8 + t) low s
      let s := if r0 then logEv 0x0807 t (p1 t ++ p1 0) s else s
      let s := if r1 then logEv 0x0807 t (p1 t ++ p1 1) s else s
      if hot || low then putFactor t (fld (Led.TH_CFG t) 31 24 s * 128) (sgn 16 (fld (Led.TH_STATUS t) 15 0 s)) s
      else
        let temp := thTemp code s
        let s := setFld (Led.TH_STATUS t) 15 0 (unsgn 16 temp) s
        putFactor t (stepTowards (fld Led.DERATE_STEP 15 0 s) (fld (Led.TH_STATUS t) 31 16 s)
          (derateTarget t temp s)) temp s

def derateUpdate (s : State) : State :=
  upTo 8 (fun t s => derateOne t s) { s with led := { s.led with derateAt := s.clk } }

/-- DERATE_UPDATE (R355): every 100 ms. -/
def execDerateUpdate (s : State) : Host.Outcome State Fault Refusal :=
  timed (fun s => hopClk (s.led.derateAt + realNs 100000000) s) derateUpdate s

/-! ### Sink power (R357, R358) -/

/-- R357: the mean duty of the interval's periods, in 2^-18; the present one where none started. -/
def meanDuty (c : Nat) (s : State) : Nat :=
  let h := ledCh c s
  if h.ofSum = 0 then h.onClk * 262144 / max 1 s.led.period else h.onSum * 262144 / h.ofSum

/-- R357: one channel's VSINK x CH_CURRENT x mean duty, in 0.1 V x mA x 2^-18. -/
def chPower (c : Nat) (s : State) : Nat :=
  let st := rd (Led.CH_STATUS c) s
  let v := if st.testBit 4 || st.testBit 5 || !(ledCh c s).powSeen then 255 else bitsOf st 23 16
  v * (ledCh c s).curr * meanDuty c s

def sumTo (n : Nat) (f : Nat → Nat) : Nat := upTo n (fun i a => a + f i) 0

/-- The estimate, in mW. -/
def sinkPower (s : State) : Nat := sumTo 48 (fun c => chPower c s) / 2621440

def powerEstimate (s : State) : State :=
  let est := sinkPower s
  let lim := fld Led.SINK_PWR_LIMIT 15 0 s
  let g := globalScale s
  let g := if lim < est then g * lim / est else min 0x8000 (g + 0x200)
  let s := wr Led.SINK_POWER (min 65535 est + 65536 * g) s
  let s := { s with led := { s.led with powerAt := s.clk } }
  let s := upTo 48 (fun c s => updLedCh c (fun h => { h with powSeen := false, onSum := 0, ofSum := 0 }) s) s
  if g < 0x8000 then
    logPer 0x080A noInst oneMinute (p4 est ++ p4 g) (orReg Led.INT_STATUS 16 s)
  else s

/-- SINK_POWER_ESTIMATE (R357, R358): every 10 ms. -/
def execSinkPowerEstimate (s : State) : Host.Outcome State Fault Refusal :=
  timed (fun s => hopClk (s.led.powerAt + realNs 10000000) s) powerEstimate s

/-! ### Headroom (R359, R360) -/

/-- R359: the channels that qualify. -/
def hrChannels (s : State) : List Nat :=
  (List.range 48).filter fun c => bit (Led.CH_CFG c) 11 s && rd (Led.CH_STATUS c) s &&& 0x7C == 0

def minOf : List Nat → Option Nat
  | [] => none
  | x :: t => some (t.foldl min x)

/-- The code one move on, up or down in string voltage, clamped. -/
def hrMove (up : Bool) (by_ : Nat) (s : State) : Nat :=
  let plus := up != bit Led.HR_CTRL 1 s
  let code : Int := fld Led.HR_ADJ 11 0 s
  let code := if plus then code + by_ else code - by_
  (clampI (fld Led.HR_LIMITS 11 0 s) (fld Led.HR_LIMITS 27 16 s) code).toNat

def hrFlags (s : State) : State :=
  let a := fld Led.HR_ADJ 11 0 s
  setBit Led.HR_STATUS 9 (a = fld Led.HR_LIMITS 11 0 s)
    (setBit Led.HR_STATUS 10 (a = fld Led.HR_LIMITS 27 16 s) s)

/-- R359: a new interval begins. -/
def hrBegin (s : State) : State :=
  upTo 48 (fun c s => updLedCh c (fun h => { h with hrMin := none }) s)
    { s with led := { s.led with headAt := s.clk } }

/-- R359: qs the channels that qualify, low their lowest VSINK, if any was measured. -/
def hrAct (qs : List Nat) (low : Option Nat) (s : State) : State :=
  let target := fld Led.HR_CTRL 15 8 s
  let s := match low with
    | some v => setFld Led.HR_STATUS 7 0 v s
    | none => s
  if qs.any (fun c => bit (Led.CH_STATUS c) 8 s) || low.any fun v => decide (v < target) then
    let code := hrMove true (max 1 (fld Led.HR_CTRL 31 24 s)) s
    let stuck := code = (if bit Led.HR_CTRL 1 s then fld Led.HR_LIMITS 11 0 s else fld Led.HR_LIMITS 27 16 s)
    let s := hrFlags (wr Led.HR_ADJ code s)
    if stuck then
      logPer 0x080B noInst oneMinute (p4 code ++ p2 (low.getD 0)) (orReg Led.INT_STATUS 4 s)
    else s
  else if low.any fun v => decide (target + 5 < v) then hrFlags (wr Led.HR_ADJ (hrMove false 1 s) s)
  else hrFlags s

/-- R359.  Channels that qualify and were not measured hold the code unless one is in DROPOUT (DESIGN
CHOICE, log entry 123). -/
def headroom (s : State) : State :=
  let qs := hrChannels s
  let low := minOf (qs.filterMap fun c => (ledCh c s).hrMin)
  let s := hrBegin s
  if bit Led.HR_STATUS 11 s then s
  else if qs.isEmpty then setBit Led.HR_STATUS 8 true s
  else hrAct qs low (setBit Led.HR_STATUS 8 false s)

/-- HEADROOM_UPDATE (R359): every INTERVAL ms while the loop is enabled. -/
def execHeadroomUpdate (s : State) : Host.Outcome State Fault Refusal :=
  if bit Led.HR_CTRL 0 s then
    timed (fun s => hopClk (s.led.headAt + realNs (1000000 * max 1 (fld Led.HR_CTRL 23 16 s))) s) headroom s
  else atOnce id s

end Sys2Proof.Machine
end

