-- ==== Sys2Proof/Machine/Adc.lean ====
section
/-! DEFINITION. The converters and the housekeeping scan (R361 to R364, R461). -/

namespace Sys2Proof.Machine

def convAt (u : Nat) (s : State) : Conv := kget {} u s.adc.conv
def setConv (u : Nat) (c : Conv) (s : State) : State :=
  { s with adc := { s.adc with conv := kset {} u c s.adc.conv } }

/-- R361: one conversion, and its acquisition, in 0.1 ns. -/
def convTime : Nat := 5000
def acqTime : Nat := 1250

/-! ### Trims (R371) -/

/-- R371: a raw code of converter u after its offset and gain (a gain of 0, not yet loaded, acts
as 1). -/
def trimCode (u raw : Nat) (s : State) : Nat :=
  let c := (clampI 0 65535 ((raw : Int) + sgn 16 (rd (Adc.ADC_OFF_TRIM u) s))).toNat
  let g := fld Adc.ADC1_GAIN_TRIM 15 0 s
  if u = 1 ∧ g ≠ 0 then min 65535 (c * g / 32768) else c

/-- R374: is converter u under calibration. -/
def underCal (u : Nat) (s : State) : Bool :=
  match s.cal.run with
  | some r => r.mode == 0 && (if r.step = 1 ∨ r.step = 4 then u == 1 else u == 0)
  | none => false

/-! ### Sequences (R362, R363) -/

def avgOf (u k : Nat) (s : State) : Nat := min 8 (fld (Adc.SLOT u k) 11 8 s)

/-- A slot's conversions begin at instant t. -/
def startSlot (u k t : Nat) (s : State) : State :=
  let c := convAt u s
  setConv u
    { c with
      slot := some k
      slotAt := t
      sampleCnt := s.cnt + incr s * (t + acqTime - s.clk) / timeClk } s

/-- R363, R364: a sequence starts; late, with DELAYED, while housekeeping converts.  An idle gap, if
there was one, ends here. -/
def startSeq (u : Nat) (idle : Bool) (s : State) : State :=
  let c := convAt u s
  let late := s.clk < c.hkUntil
  let s := setConv u { c with delayed := late, idleAt := if idle then s.clk else c.idleAt } s
  let s := setBit Adc.ADC_STATUS u true (setBit (Adc.CONV_STATUS u) 0 true s)
  startSlot u 0 (max s.clk c.hkUntil) s

def loseTrigger (u : Nat) (s : State) : State :=
  let s := orReg Adc.INT_STATUS (4 * 2 ^ u) (bump (Adc.TRIG_LOST u) s)
  logPer 0x0820 u oneSecond (p1 u ++ p4 (rd (Adc.TRIG_LOST u) s)) s

/-- R363: a trigger reaches converter u: it starts the sequence, waits, one deep, or is lost. -/
def trigger (u : Nat) (s : State) : State :=
  if !bit (Adc.CONV_CTRL u) 0 s then s
  else if underCal u s then loseTrigger u s
  else if (convAt u s).slot.isNone then startSeq u true s
  else if !bit (Adc.CONV_STATUS u) 1 s then setBit (Adc.CONV_STATUS u) 1 true s
  else loseTrigger u s

/-- CONV_GO (R363): a software trigger, of a converter whose TRIG selects it. -/
def convGo (u : Nat) (s : State) : State :=
  if fld (Adc.CONV_CTRL u) 2 1 s = 0 then trigger u s else s
def execConvGo (u : Fin 2) (who : Req) (s : State) : Host.Outcome State Fault Refusal :=
  atOnce (landing who false (convGo u.val)) s

/-- R363: the instant of the next PWM trigger of converter u, if there is one to come: one for each
match of AT. -/
def pwmTrigger (u : Nat) (s : State) : Option Nat :=
  let t := ledNorm s
  let at_ := fld (Adc.CONV_TRIG_CFG u) 29 12 s
  let ahead (x : Nat) : Bool := s.clk ≤ x && (convAt u s).trigFrom ≤ x
  if fld (Adc.CONV_TRIG_CFG u) 7 6 s = 1 then
    let c := fld (Adc.CONV_TRIG_CFG u) 5 0 s
    let h := ledCh c s
    let x := h.onAt + ledClk * at_
    if c < 48 ∧ at_ + 25 ≤ h.onClk ∧ ahead x then some x else none
  else if at_ < t.led.period + t.led.stretch then
    let x := t.led.zeroAt + ledClk * at_
    some (if ahead x then x else wrapAt t + ledClk * at_)
  else none

/-- The PWM trigger of instant x. -/
def pwmFires (u x : Nat) (s : State) : State :=
  trigger u (setConv u { convAt u s with trigFrom := x + 1 } s)

/-- ADC_TRIGGER (R363): a timed, PWM or continuous trigger reaches converter u. -/
def execAdcTrigger (u : Fin 2) (s : State) : Host.Outcome State Fault Refusal :=
  match fld (Adc.CONV_CTRL u.val) 2 1 s with
  | 1 =>
    if (convAt u.val s).fired then
      atOnce (fun s => trigger u.val (setConv u.val { convAt u.val s with fired := false } s)) s
    else atOnce id s
  | 2 =>
    match pwmTrigger u.val s with
    | some t => timed (hopClk t) (pwmFires u.val t) s
    | none => atOnce id s
  | 3 => atOnce (fun s => if (convAt u.val s).slot.isNone then trigger u.val s else s) s
  | _ => atOnce id s

/-- R362: a result goes to the FIFO, or is lost when it holds 64. -/
def pushFifo (u : Nat) (e : AdcEntry) (s : State) : State :=
  let c := convAt u s
  if c.fifo.length < 64 then setConv u { c with fifo := c.fifo ++ [e] } s
  else
    logPer 0x0821 u oneSecond [] (orReg Adc.INT_STATUS (16 * 2 ^ u) (bump (Adc.FIFO_LOST u) s))

/-- R374: a trigger that would start the next sequence at once; of a converter under calibration it is
discarded and counted. -/
def retrigger (u : Nat) (s : State) : State :=
  if underCal u s then loseTrigger u (setConv u { convAt u s with idleAt := s.clk } s)
  else startSeq u false s

/-- The sequence of converter u ends: it takes the pending trigger, retriggers, or goes idle. -/
def endSeq (u : Nat) (s : State) : State :=
  let s := orReg Adc.INT_STATUS (2 ^ u) s
  let s := setConv u { convAt u s with slot := none, delayed := false } s
  let s := setBit Adc.ADC_STATUS u false (setBit (Adc.CONV_STATUS u) 0 false s)
  if bit (Adc.CONV_STATUS u) 1 s then retrigger u (setBit (Adc.CONV_STATUS u) 1 false s)
  else if fld (Adc.CONV_CTRL u) 2 1 s = 3 then retrigger u s
  else setConv u { convAt u s with idleAt := s.clk } s

/-- R362: the slot's conversions are complete. -/
def slotDone (u k : Nat) (codes : List (BitVec 16)) (s : State) : State :=
  let c := convAt u s
  let avg := avgOf u k s
  let sum := (codes.map fun w => trimCode u w.toNat s).foldl (· + ·) 0
  let code := (sum + 2 ^ avg / 2) / 2 ^ avg
  let s := wr (Adc.RESULT u k) (code + 2 ^ 31) s
  let s := pushFifo u
    ⟨code, fld (Adc.SLOT u k) 4 0 s, k, c.delayed, c.sampleCnt / 2 ^ 32⟩ s
  if k = fld (Adc.CONV_CTRL u) 7 4 s then endSeq u s
  else startSlot u (k + 1) (max s.clk c.hkUntil) s

/-- CONVERSION_DONE (R362): the present slot's 2^AVG conversions complete, with these raw codes. -/
def execConversionDone (u : Fin 2) (codes : List (BitVec 16)) (s : State) :
    Host.Outcome State Fault Refusal :=
  let c := convAt u.val s
  match c.slot with
  | none => atOnce id s
  | some k =>
    if codes.length = 2 ^ avgOf u.val k s then
      timed (hopClk (c.slotAt + convTime * 2 ^ avgOf u.val k s)) (slotDone u.val k codes) s
    else atOnce id s

/-- FIFO_POP (R362). -/
def fifoPop (u : Nat) (s : State) : State :=
  setConv u { convAt u s with fifo := (convAt u s).fifo.drop 1 } s
def execFifoPop (u : Fin 2) (who : Req) (s : State) : Host.Outcome State Fault Refusal :=
  atOnce (landing who false (fifoPop u.val)) s

/-! ### Housekeeping (R364) and what it supervises (R360, R461, R483) -/

/-- R364: the input after i of the scan: 0 to 11 and 16 to 31 in turn. -/
def nextInput (i : Nat) : Nat := if i = 11 then 16 else if 31 ≤ i then 0 else i + 1

/-- R361: the mV of a code of an input scaled 1/40 (100 V full scale). -/
def codeMv (code : Nat) : Nat := code * 100000 / 65536

/-- VIN_NOW, VIN_MIN (R483). -/
def putVin (code : Nat) (s : State) : State :=
  let mv := codeMv code
  wr Sys.VIN_MIN (min (rd Sys.VIN_MIN s) mv) (wr Sys.VIN_NOW mv s)

/-- R360: VLED_SENSE against VLED_MAX. -/
def putVled (code : Nat) (s : State) : State :=
  let mv := codeMv code
  let s := setFld Led.HR_STATUS 31 16 (min 65535 mv) s
  if rd Led.VLED_MAX s < mv then
    if bit Led.HR_STATUS 11 s then s
    else logEv 0x080C noInst (p4 mv) (orReg Led.INT_STATUS 4 (setBit Led.HR_STATUS 11 true s))
  else if mv + 2000 ≤ rd Led.VLED_MAX s then setBit Led.HR_STATUS 11 false s
  else s

/-- The temperature a scan reading of input i gives, in 1/16 degC. -/
def hkTemp (i : Nat) (s : State) : Option Int :=
  let v := rd (Adc.HK_RESULT i) s
  if v.testBit 16 then some (temp16 (v % 65536)) else none

/-- R461: the warning limits (base 55, die 105), the trip limits (65, 115) and those at which the
module starts again (50, 90), by input, in 1/16 degC. -/
def warnLimit (i : Nat) : Int := if i = 29 then 55 * 16 else 105 * 16
def tripLimit (i : Nat) : Int := if i = 29 then 65 * 16 else 115 * 16
def coolLimit (i : Nat) : Int := if i = 29 then 50 * 16 else 90 * 16
def tempInputs : List Nat := [24, 25, 26, 27, 28, 29]

/-- Is a reading at its warning limit: above it for the base plate, at or above it for a die. -/
def tempWarns (i : Nat) (t : Int) : Bool := if i = 29 then warnLimit i < t else warnLimit i ≤ t

def allTemps (f : Nat → Int → Bool) (s : State) : Bool :=
  tempInputs.all fun i => match hkTemp i s with | some t => f i t | none => false
def noTemp (f : Nat → Int → Bool) (s : State) : Bool :=
  tempInputs.all fun i => match hkTemp i s with | some t => !f i t | none => true

/-- R461: THERM_WARN. -/
def thermWarn (i : Nat) (t : Int) (s : State) : State :=
  if tempWarns i t then
    logPer 0x0115 i oneMinute (p1 i ++ p2 (unsgn 16 t)) (setBit Sys.PWR_STATUS 5 true s)
  else if noTemp (fun j x => warnLimit j - 80 < x) s then setBit Sys.PWR_STATUS 5 false s
  else s

/-- R461: THERMAL_TRIP in the second of two consecutive scans that read over the trip limit. -/
def thermTrip (i : Nat) (t : Int) (s : State) : State :=
  if tripLimit i ≤ t then
    let s := { s with adc := { s.adc with scanHot := true } }
    if s.adc.lastHot ∧ !shed s then
      let s := setBit Sys.PWR_STATUS 6 true (logEv 0x0116 i (p1 i ++ p2 (unsgn 16 t)) s)
      powerSequence true s
    else s
  else s

/-- R461, R483: a temperature reading. -/
def putTemp (i code : Nat) (s : State) : State :=
  let t := temp16 code
  let s := if i < 29 then
      wr Sys.TEMP_PEAK (unsgn 16 (max t (sgn 16 (rd Sys.TEMP_PEAK s)))) s
    else s
  thermTrip i t (thermWarn i t s)

/-- R461: after a trip, all die at or below 90 degC and the base at or below 50 degC: warm reset
with cause 3. -/
def coolReset (s : State) : State :=
  if s.power.tripped ∧ s.power.warnAt.isSome ∧ allTemps (fun i t => decide (t ≤ coolLimit i)) s then
    warmReset 3 { s with power := { s.power with restored := none } }
  else s

/-- What a housekeeping result of input i does beside HK_RESULT. -/
def supervise (i code : Nat) (s : State) : State :=
  match i with
  | 0 => putVin code s
  | 1 => putVled code s
  | _ => if 24 ≤ i ∧ i ≤ 29 then coolReset (putTemp i code s) else s

/-- The instant at which the conversions of the present slot end. -/
def slotEnd (u k : Nat) (s : State) : Nat := (convAt u s).slotAt + convTime * 2 ^ avgOf u k s

/-- R364: a housekeeping conversion at a conversion boundary; the rest of a slot follows it. -/
def hkConvert (u raw : Nat) (s : State) : State :=
  let i := s.adc.hkNext
  let code := trimCode u raw s
  let c := convAt u s
  let amid := match c.slot with
    | some k => decide (s.clk < slotEnd u k s)
    | none => false
  let s := setConv u
    { c with
      hkAt := s.clk
      hkUntil := s.clk + convTime
      idleAt := s.clk
      slotAt := if amid then c.slotAt + convTime else c.slotAt } s
  let s := wr (Adc.HK_RESULT i) (code + 65536) s
  let wrap := i = 31
  let s :=
    { s with
      adc :=
        { s.adc with
          hkNext := nextInput i
          hkWhen := kset 0 i s.clk s.adc.hkWhen
          lastHot := if wrap then s.adc.scanHot else s.adc.lastHot
          scanHot := if wrap then false else s.adc.scanHot } }
  supervise i code s

/-- R364: 10 us after the last one, and at a conversion boundary of a converter that is busy. -/
def hkHop (u : Nat) (s : State) : State :=
  let c := convAt u s
  let t := max s.clk (c.hkAt + realNs 10000)
  match c.slot with
  | none => hopClk t s
  | some _ => hopClk (c.slotAt + ceilDiv (t - c.slotAt) convTime * convTime) s

/-- R364: may converter u make a housekeeping conversion now: idle, or busy for 1 ms. -/
def hkMay (u : Nat) (s : State) : Bool :=
  let c := convAt u s
  bit Adc.ADC_CTRL u s && !underCal u s && (c.slot.isNone || c.idleAt + realNs 1000000 ≤ s.clk)

/-- HK_CONVERSION (R364): converter u makes the scan's next conversion, with this raw code; at most
one per 10 us. -/
def execHkConversion (u : Fin 2) (raw : BitVec 16) (s : State) : Host.Outcome State Fault Refusal :=
  if hkMay u.val s then
    timed (hkHop u.val) (hkConvert u.val raw.toNat) s
  else atOnce id s

end Sys2Proof.Machine
end

