-- ==== Sys2Proof/Machine/Cal.lean ====
section
/-! DEFINITION. Calibration runs, trims and their storage (R369 to R380). -/

namespace Sys2Proof.Machine

/-! ### Numbers -/

/-- The quotient of two integers (d > 0), rounded half away from zero. -/
def roundDiv (n : Int) (d : Nat) : Int :=
  if 0 ≤ n then (2 * n + d) / (2 * d : Nat) else -((-(2 * n) + d) / (2 * d : Nat))

/-- R372: a DETAIL: signed 8 bits, saturating. -/
def detailOf (v : Int) : Nat := unsgn 8 (clampI (-128) 127 v)

/-! ### Preconditions (R372) -/

def basePlate (s : State) : Int := (hkTemp 29 s).getD 0

/-- R372 check 4. -/
def tempOk (s : State) : Bool :=
  match hkTemp 29 s with
  | some t => 15 * 16 ≤ t && t ≤ 50 * 16
  | none => false

/-- What a START observes: CAL_VREF (uV), the resistance (uOhm), an open resistor, the channels of
the mask that fail the pin test of their mode. -/
structure CalObs where
  vref : Nat
  iset : Nat
  open_ : Bool
  bad : Nat

/-- R372: the first check that fails: code and detail; and whether CAL_VREF and the resistance
were measured. -/
def calCheck (mode : Nat) (o : CalObs) (s : State) : Option (Nat × Nat) × Bool × Bool :=
  let mask := rd Adc.CAL_CHANNELS s
  if mode = 3 ∨ (mode ≠ 0 ∧ mask = 0) then (some (1, 0), false, false)
  else if mode ≠ 0 ∧ roleOf s ≠ rSolo then (some (2, roleOf s), false, false)
  else if rd Sys.VIN_NOW s < 36000 then (some (3, 0), false, false)
  else if !tempOk s then (some (4, detailOf (Int.tdiv (basePlate s) 16)), false, false)
  else if o.vref < 2450000 ∨ 2550000 < o.vref then
    (some (5, detailOf (Int.tdiv ((o.vref : Int) - 2500000) 2000)), true, false)
  else if mode = 0 then (none, true, false)
  else if o.open_ ∨ o.iset < 1900000 ∨ 2100000 < o.iset then
    (some (6, if o.open_ then 127 else detailOf (Int.tdiv ((o.iset : Int) - 2000000) 4000)), true, true)
  else match bitList 48 (mask &&& o.bad) with
    | c :: _ => (some (if mode = 1 then 7 else 8, c), true, true)
    | [] => (none, true, true)

/-- The lowest channel of a mask at or above c. -/
def nextCh (mask c : Nat) : Option Nat := (bitList 48 mask).find? fun x => c ≤ x

/-- CAL_STATUS of a run. -/
def calShow (s : State) : State :=
  match s.cal.run with
  | none => s
  | some r =>
    let s := setBit Adc.CAL_STATUS 0 true s
    if r.mode = 0 then s else setFld Adc.CAL_STATUS 21 16 r.ch (setFld Adc.CAL_STATUS 10 8 (r.ch / 8) s)

/-- R375: a group is held off from its first check: its channels go off. -/
def holdGroup (c : Nat) (s : State) : State :=
  forAll (fun x s => chOff x s) ((List.range 8).map (8 * (c / 8) + ·)) s

/-- R372: a START with a mode. -/
def calStart (mode : Nat) (o : CalObs) (s : State) : State :=
  if bit Adc.CAL_STATUS 0 s then orReg Adc.ADC_ERR 1 s
  else
    let seq := s.cal.runSeq + 1
    let s := setFld Adc.CAL_CTRL 1 0 mode { s with cal := { s.cal with runSeq := seq } }
    let (fail, v, i) := calCheck mode o s
    let s := if v then wr Adc.CAL_VREF_MEAS o.vref s else s
    let s := if i then wr Adc.CAL_ISET_MEAS (if o.open_ then 0xFFFFFFFF else o.iset) s else s
    match fail with
    | some (code, detail) => calAbort code detail s
    | none =>
      let mask := rd Adc.CAL_CHANNELS s
      let c := (nextCh mask 0).getD 0
      let s := logEv 0x0901 noInst (p1 mode ++ p8 mask) s
      let run : CalRun :=
        { mode := mode
          seq := seq
          mask := if mode = 0 then 0 else mask
          allowJump := bit Adc.CAL_CTRL 4 s
          store := bit Adc.CAL_CTRL 5 s
          vref0 := o.vref
          iset0 := o.iset
          ch := c
          pulseAt := s.clk
          temp := basePlate s }
      let s := calShow { s with cal := { s.cal with run := some run } }
      if mode = 0 then s else holdGroup c s

/-- CAL_START_REF (R374): the observed CAL_VREF in uV. -/
def execCalStartRef (who : Req) (vref : BitVec 32) (s : State) : Host.Outcome State Fault Refusal :=
  atOnce (landing who false (calStart 0 ⟨vref.toNat, 0, false, 0⟩)) s
/-- CAL_START_OPEN (R375): also the resistance in uOhm, an open resistor, and the channels that fail
check 7. -/
def execCalStartOpen (who : Req) (vref iset : BitVec 32) (open_ : Bool) (bad : BitVec 48) (s : State) :
    Host.Outcome State Fault Refusal :=
  atOnce (landing who false (calStart 1 ⟨vref.toNat, iset.toNat, open_, bad.toNat⟩)) s
/-- CAL_START_JIG (R375): as OPEN, with check 8. -/
def execCalStartJig (who : Req) (vref iset : BitVec 32) (open_ : Bool) (bad : BitVec 48) (s : State) :
    Host.Outcome State Fault Refusal :=
  atOnce (landing who false (calStart 2 ⟨vref.toNat, iset.toNat, open_, bad.toNat⟩)) s

/-! ### Plausibility (R377) -/

/-- R377: the run stops with code 10; the record names the channel, the quantity (in the order of
the table) and the failing value. -/
def calReject (ch quantity : Nat) (value : Int) (s : State) : State :=
  let s := logEv 0x0904 ch (p1 ch ++ p1 quantity ++ p4 (unsgn 32 value)) s
  bump Adc.CAL_ABORTS (calEnd 10 ch s)

def near (limit v : Int) : Bool := -limit ≤ v && v ≤ limit

/-- R377: a reference re-measured within 0.2 % of its value at the checks. -/
def refHolds (v0 v : Nat) : Bool := ((v : Int) - v0).natAbs * 500 ≤ v0

/-! ### A run's end (R379) -/

/-- R379: the bytes of a record that its CRC-32C covers, field by field as R379 lists them (DESIGN
CHOICE, log entry 124: the layout). -/
def CalRecord.bytes (r : CalRecord) : List Byte :=
  p4 r.seq ++ p1 r.mode
    ++ (r.trims.flatMap fun t => p1 t.1.1 ++ p1 t.1.2 ++ p4 t.2)
    ++ (r.residuals.flatMap fun q => p1 q.1 ++ q.2.flatMap fun x => p4 (unsgn 32 x))
    ++ r.certs.flatMap p8 ++ r.measured.flatMap p4 ++ p4 (unsgn 32 r.temp)
    ++ leBytes 6 r.sec ++ p4 r.ns ++ p1 r.flags
/-- R379, R380: a record's CRC-32C passes. -/
def CalRecord.ok (r : CalRecord) : Bool := r.crc == crc32c r.bytes

def calRecordOf (r : CalRun) (trims : List ((Nat × Nat) × Nat)) (s : State) : CalRecord :=
  let x : CalRecord :=
    { seq := r.seq
      mode := r.mode
      trims := trims
      residuals := r.done.map fun t => (t.1, t.2.2.2)
      certs := [rd Adc.CAL_VREF_CERT s, rd Adc.CAL_ISET_CERT s, rd Adc.CAL_REF_ID s, rd Adc.CAL_ISET_ID s,
        rd Adc.CAL_OPERATOR s]
      measured := [rd Adc.CAL_VREF_MEAS s, rd Adc.CAL_ISET_MEAS s]
      temp := r.temp
      sec := nowSec s
      ns := nowNsec s
      flags := fld Time.TIME_STATUS 4 3 s
      crc := 0 }
  { x with crc := crc32c x.bytes }

/-- R379: the factory record, if there is one (sequence 0), and the 16 newest field records. -/
def keepRecords (l : List CalRecord) : List CalRecord :=
  l.filter (·.seq = 0) ++ ((l.filter (·.seq ≠ 0)).reverse.take 16).reverse

def storeRecord (r : CalRun) (trims : List ((Nat × Nat) × Nat)) (s : State) : State :=
  if !r.store then s
  else
    let cur := s.upd.cur
    let x := calRecordOf r trims s
    let s := { s with upd := { s.upd with
      cur := { cur with cal := keepRecords (cur.cal ++ [x]) }, urgent := true } }
    logRenro 0x0906 noInst (p4 r.seq) (renroCrc x.bytes s)

/-- The run is complete. -/
def calFinish (r : CalRun) (trims : List ((Nat × Nat) × Nat)) (s : State) : State :=
  let s := bump Adc.CAL_RUNS (logEv 0x0902 noInst (p1 r.mode ++ p4 r.groups) s)
  storeRecord r trims (calEnd 0 0 s)

/-! ### REF (R374) -/

def vrefInUse (s : State) : Int := sgn 8 (fld Adc.VREF_TRIM 7 0 s)
def vrefTarget (s : State) : Int := sgn 8 (fld Adc.VREF_TRIM 23 16 s)

/-- R374 step 3: the VREF_TRIM target that makes code equal CAL_VREF_CERT / 2 in 2.500 V full
scale: one step is 0.01 % of the reference. -/
def vrefGoal (code : Int) (s : State) : Int :=
  let ideal := rd Adc.CAL_VREF_CERT s * 65536
  vrefInUse s + roundDiv ((code * 5000000 - ideal) * 10000) (max 1 ideal)

/-- R374: the measurement of the present step: of ground (offset), or of input 10, by the raw code
(the mean of its conversions). -/
def refStep (r : CalRun) (raw : Nat) (vref : Nat) (s : State) : State :=
  let next (t : List Int) (s : State) : State :=
    { s with cal := { s.cal with run := some { r with step := r.step + 1, refTrims := r.refTrims ++ t } } }
  match r.step with
  | 1 | 2 =>
    let off : Int := -raw
    if !near 64 off then calReject 0xFF 0 off s else next [off] s
  | 3 =>
    let goal := vrefGoal ((raw : Int) + r.refTrims.getD 1 0) s
    if !near 100 goal then calReject 0xFF 1 goal s
    else if !r.allowJump ∧ !near 20 (goal - vrefTarget s) then calReject 0xFF 4 (goal - vrefTarget s) s
    else next [goal, (raw : Int) + r.refTrims.getD 1 0] s
  | _ =>
    let c1 := (raw : Int) + r.refTrims.getD 0 0
    let c0 := r.refTrims.getD 3 0
    let gain := if c1 ≤ 0 then 0 else roundDiv (c0 * 32768) c1.toNat
    if gain * 10000 < 9950 * 32768 ∨ 10050 * 32768 < gain * 10000 then calReject 0xFF 2 gain s
    else if !refHolds r.vref0 vref then calReject 0xFF 6 vref s
    else
      let o1 := unsgn 16 (r.refTrims.getD 0 0)
      let o0 := unsgn 16 (r.refTrims.getD 1 0)
      let goal := r.refTrims.getD 2 0
      let s := wr (Adc.ADC_OFF_TRIM 0) o0 (wr (Adc.ADC_OFF_TRIM 1) o1 s)
      let s := setFld Adc.VREF_TRIM 23 16 (unsgn 8 goal) (wr Adc.ADC1_GAIN_TRIM gain.toNat s)
      let s := setBit Adc.CAL_STATUS 1 (vrefInUse s ≠ goal) { s with cal := { s.cal with rampAt := s.clk } }
      calFinish r [((0, 0), o0), ((0, 1), o1), ((1, 0), gain.toNat), ((2, 0), unsgn 8 goal)] s

/-! ### OPEN and JIG (R375, R376) -/

/-- The current points of a mode, in mA. -/
def calPoints (mode : Nat) : List Nat := if mode = 1 then [35, 350] else [35, 350, 700]

/-- The mean current, in uA, of 16 pulses whose codes sum to n: the voltage across the resistor
divided by CAL_ISET_CERT (R370). -/
def meanUa (n cert : Nat) : Int := roundDiv (n * 2500000000000) (1048576 * max 1 cert)

/-- R376: GAIN and OFFSET from the summed codes at 35 and at 350 mA; none where I2 does not exceed
I1. -/
def chTrims (s1 s2 cert : Nat) : Option (Int × Int) :=
  if s2 ≤ s1 then none
  else
    let d := (s2 - s1) * 2500000000
    let gain := roundDiv (2000 * ((315 * 1048576 * cert : Nat) - (d : Int))) d
    let offset := roundDiv (-350 * (10 * (s1 : Int) - s2)) (s2 - s1)
    some (gain, offset)

/-- The residual of largest magnitude. -/
def largest (l : List Int) : Int := l.foldl (fun a x => if a.natAbs < x.natAbs then x else a) 0

/-- R371: a channel trim word. -/
def trimWord (g o : Int) : Nat := unsgn 8 g + 256 * unsgn 6 o
def trimGain (w : Nat) : Int := sgn 8 (bitsOf w 7 0)
def trimOffset (w : Nat) : Int := sgn 6 (bitsOf w 13 8)

/-- R371: the sink DAC's input I_dac of channel c for the current in use, in 0.5 uA. -/
def sinkDac (c : Nat) (s : State) : Int :=
  let w := rd (Adc.CH_TRIM c) s
  (ledCh c s).curr * (2000 + trimGain w) + 200 * trimOffset w
/-- R371: the current that channel c sinks while it conducts, in 50 pA: VREF_TRIM moves the internal
reference by 0.01 % a step, and with it every sink current. -/
def sinkCurrent (c : Nat) (s : State) : Int :=
  if !conductingAt c s.clk s then 0 else sinkDac c s * (10000 + vrefInUse s)

/-- R377, R378: the group's trims are committed; its channels resume. -/
def commitGroup (r : CalRun) (s : State) : State :=
  let s := forAll (fun t s =>
    wr (Adc.CH_CAL_ERR t.1) (unsgn 16 (largest t.2.2.2)) (wr (Adc.CH_TRIM t.1) (trimWord t.2.1 t.2.2.1) s)) r.newTrims s
  forAll (fun c s => updLedCh c LedCh.restart s) ((List.range 8).map (8 * (r.ch / 8) + ·)) s

/-- The channel is done: the next of the group, of the next group, or the run's end. -/
def nextChannel (r : CalRun) (s : State) : State :=
  let r := { r with phase := .measure, point := 0, pulse := 0, sum := 0, meas := [], resid := [] }
  match nextCh r.mask (r.ch + 1) with
  | some c =>
    if c / 8 = r.ch / 8 then calShow { s with cal := { s.cal with run := some { r with ch := c } } }
    else
      let s := commitGroup r s
      let r' := { r with ch := c, done := r.done ++ r.newTrims, newTrims := [], groups := r.groups + 1 }
      holdGroup c (calShow { s with cal := { s.cal with run := some r' } })
  | none =>
    let s := commitGroup r s
    let r := { r with done := r.done ++ r.newTrims, newTrims := [], groups := r.groups + 1 }
    calFinish r (r.done.map fun t => ((3, t.1), trimWord t.2.1 t.2.2.1)) s

/-- R376, R377: the trims of the channel from its zero-trim measurements. -/
def chTrimsCheck (r : CalRun) (s : State) : State :=
  match chTrims (r.meas.getD 0 0) (r.meas.getD 1 0) (rd Adc.CAL_ISET_CERT s) with
  | none => calReject r.ch 3 0 s
  | some (g, o) =>
    let old := rd (Adc.CH_TRIM r.ch) s
    if !near 60 g then calReject r.ch 3 g s
    else if !near 20 o then calReject r.ch 3 o s
    else if !r.allowJump ∧ !near 10 (g - trimGain old) then calReject r.ch 4 (g - trimGain old) s
    else if !r.allowJump ∧ !near 5 (o - trimOffset old) then calReject r.ch 4 (o - trimOffset old) s
    else
      let r := { r with
                        phase := .verify, point := 0, pulse := 0, sum := 0,
                        newTrims := r.newTrims ++ [(r.ch, g, o, [])] }
      { s with cal := { s.cal with run := some r } }

/-- R377: the channel's verify is complete: the references, then the residuals it leaves. -/
def chVerified (r : CalRun) (vref iset : Nat) (s : State) : State :=
  if !refHolds r.vref0 vref then calReject r.ch 6 vref s
  else if !refHolds r.iset0 iset then calReject r.ch 6 iset s
  else
    nextChannel
      { r with
        newTrims := r.newTrims.map fun t =>
          if t.1 = r.ch then (t.1, t.2.1, t.2.2.1, r.resid) else t } s

/-- The point's 16 pulses are complete. -/
def pointDone (r : CalRun) (vref iset : Nat) (s : State) : State :=
  let points := calPoints r.mode
  let r' := { r with pulse := 0, sum := 0, point := r.point + 1 }
  match r.phase with
  | .measure =>
    let r' := { r' with meas := r.meas ++ [r.sum] }
    if r.point + 1 < points.length then { s with cal := { s.cal with run := some r' } }
    else chTrimsCheck r' s
  | .verify =>
    let set : Int := points.getD r.point 0 * 1000
    let res := meanUa r.sum (rd Adc.CAL_ISET_CERT s) - set
    if set / 200 + 500 < res.natAbs then calReject r.ch 5 res s
    else
      let r' := { r' with resid := r.resid ++ [res] }
      if r.point + 1 < points.length then { s with cal := { s.cal with run := some r' } }
      else chVerified r' vref iset s

/-- R375: one pulse, 1 ms after the last, gives the code of its sample. -/
def calPulse (code vref iset : Nat) (s : State) : State :=
  match s.cal.run with
  | none => s
  | some r =>
    if r.mode = 0 then refStep r code vref s
    else
      let r := { r with pulse := r.pulse + 1, sum := r.sum + code, pulseAt := s.clk }
      if r.pulse < 16 then { s with cal := { s.cal with run := some r } } else pointDone r vref iset s

/-- CAL_PULSE (R374 to R377): the run's next measurement, with the observed code and, where the
references are re-measured, CAL_VREF (uV) and the resistance (uOhm).  A REF step takes at most 12 ms,
a pulse 1 ms. -/
def execCalPulse (code : BitVec 32) (vref iset : BitVec 32) (s : State) : Host.Outcome State Fault Refusal :=
  match s.cal.run with
  | none => atOnce id s
  | some r =>
    if r.mode = 0 then atOnce (calPulse code.toNat vref.toNat iset.toNat) s
    else timed (hopClk (r.pulseAt + realNs 1000000)) (calPulse code.toNat vref.toNat iset.toNat) s

/-- CAL_ABORT (R373): CAL_CTRL.ABORT aborts a run in progress with code 9. -/
def execCalAbort (who : Req) (s : State) : Host.Outcome State Fault Refusal :=
  atOnce (landing who false (calInterrupt 0)) s

/-- VREF_RAMP_STEP (R378): every 100 ms VREF_TRIM moves one step towards its target. -/
def vrefRamp (s : State) : State :=
  let cur := vrefInUse s
  let goal := vrefTarget s
  let next := if cur < goal then cur + 1 else if goal < cur then cur - 1 else cur
  let s := setFld Adc.VREF_TRIM 7 0 (unsgn 8 next) { s with cal := { s.cal with rampAt := s.clk } }
  setBit Adc.CAL_STATUS 1 (next ≠ goal) s
def execVrefRampStep (s : State) : Host.Outcome State Fault Refusal :=
  if bit Adc.CAL_STATUS 1 s then
    timed (fun s => hopClk (s.cal.rampAt + realNs 100000000) s) vrefRamp s
  else atOnce id s

/-! ### Start-up (R380) -/

/-- R380: the newest record whose CRC passes and which holds a trim; the factory record (sequence 0)
where no field record does. -/
def trimFrom (kind idx : Nat) (l : List CalRecord) : Option Nat :=
  let good := l.filter fun r => r.ok && r.trims.any fun t => t.1 = (kind, idx)
  let best := good.foldl (fun (a : Option CalRecord) r =>
    match a with | none => some r | some b => if b.seq ≤ r.seq then some r else a) none
  best.bind fun r => (r.trims.find? fun t => t.1 = (kind, idx)).map Prod.snd

/-- One trim is loaded; CAL_MISSING names it (1 byte: 0, 1 offsets; 2 gain; 3 reference; 4 + c a
channel). -/
def loadTrim (kind idx name dflt : Nat) (put : Nat → State → State) (s : State) : State :=
  match trimFrom kind idx s.upd.cur.cal with
  | some v => put v s
  | none => logRenro 0x0905 noInst (p1 name) (put dflt s)

/-- R380: at start-up Renro builds each trim. -/
def loadTrims (s : State) : State :=
  let s := upTo 2 (fun u s => loadTrim 0 u u 0 (wr (Adc.ADC_OFF_TRIM u)) s) s
  let s := loadTrim 1 0 2 0x8000 (wr Adc.ADC1_GAIN_TRIM) s
  let s := loadTrim 2 0 3 0 (fun v => wr Adc.VREF_TRIM (v + 65536 * v)) s
  let s := upTo 48 (fun c s => loadTrim 3 c (4 + c) 0 (wr (Adc.CH_TRIM c)) s) s
  { s with cal := { s.cal with runSeq := (s.upd.cur.cal.map (·.seq)).foldl max 0 } }

end Sys2Proof.Machine
end

