-- ==== Sys2Proof/Machine/Gpi.lean ====
section
/-! DEFINITION. General-purpose inputs (R428 to R430). -/

namespace Sys2Proof.Machine

def gpiAt (i : Nat) (s : State) : Gpi := kget {} i s.gpi
def setGpi (i : Nat) (g : Gpi) (s : State) : State := { s with gpi := kset {} i g s.gpi }

def gpiActive (i : Nat) (s : State) : Bool := bit (Sys.GPI_STATUS i) 1 s
def gpiIsStuck (i : Nat) (s : State) : Bool := bit (Sys.GPI_STATUS i) 2 s
def gpiFilter (i : Nat) (s : State) : Nat := max 1 (fld (Sys.GPI_CFG i) 31 16 s)

/-- R428: one sample period of the counter. -/
def gpiTick : Nat := nsUnits 1000

/-- The next sample instant of input i: the first whole us of the counter after its last. -/
def gpiHop (i : Nat) (s : State) : State :=
  let t := s.cnt / gpiTick
  hopCnt ((if (gpiAt i s).lastTick = t + 1 then t + 2 else t + 1) * gpiTick) s

/-- GPI_LAST (R428, R438): the first sample's time with the STEP_SEQ it was taken under (R268). -/
def gpiStamp (ns : Nat) (s : State) : Nat :=
  ns % 1000000000 + 2 ^ 30 * stepSeq s + 2 ^ 34 * (ns / 1000000000 % 2 ^ 30)

/-- R428: the filtered state changes. -/
def gpiAccept (i : Nat) (act : Bool) (stamp : Nat) (s : State) : State :=
  let s := setBit (Sys.GPI_STATUS i) 1 act s
  if act then
    let s := setGpi i { gpiAt i s with activeAt := s.clk } s
    let s := wr (Sys.GPI_LAST i) stamp (bump (Sys.GPI_ACTS i) s)
    if bit (Sys.GPI_CFG i) 2 s then orReg (Sys.GPI_INT i) 1 s else s
  else setBit (Sys.GPI_STATUS i) 2 false s

/-- R429: a change that reverts before it is accepted. -/
def gpiOverspeed (i : Nat) (s : State) : State :=
  let s := bump (Sys.GPI_OVERSPEED i) s
  if gpiIsStuck i s then s
  else logPer 0x0107 i oneMinute (p1 i ++ p4 (rd (Sys.GPI_OVERSPEED i) s)) s

/-- R428: one sample: a change is accepted when the level still differs after it has differed on
FILTER consecutive samples. -/
def gpiSample (i : Nat) (level : Bool) (s : State) : State :=
  let g := gpiAt i s
  let s := setBit (Sys.GPI_STATUS i) 0 level s
  let act := level != bit (Sys.GPI_CFG i) 1 s
  let tick := s.cnt / gpiTick
  if act = gpiActive i s then
    let s := setGpi i { g with lastTick := tick, count := 0 } s
    if 0 < g.count then gpiOverspeed i s else s
  else
    let stamp := if g.count = 0 then gpiStamp (nowNs s) s else g.stamp
    if gpiFilter i s ≤ g.count then
      gpiAccept i act stamp (setGpi i { g with lastTick := tick, count := 0 } s)
    else setGpi i { g with lastTick := tick, count := g.count + 1, stamp := stamp } s

/-- GPI_SAMPLE (R428, R429): input i is sampled at the next whole us, with this pin level. -/
def execGpiSample (i : Fin 8) (level : Bool) (s : State) : Host.Outcome State Fault Refusal :=
  if bit (Sys.GPI_CFG i.val) 0 s ∧ !shed s then timed (gpiHop i.val) (gpiSample i.val level) s
  else atOnce id s

/-- GPI_STUCK (R430): the input has stayed active for STUCK_TIME ms. -/
def gpiStuck (i : Nat) (s : State) : State :=
  logEv 0x0106 i (p1 i) (orReg (Sys.GPI_INT i) 2 (setBit (Sys.GPI_STATUS i) 2 true s))
def execGpiStuck (i : Fin 8) (s : State) : Host.Outcome State Fault Refusal :=
  let t := fld (Sys.GPI_STUCK i.val) 15 0 s
  if gpiActive i.val s ∧ !gpiIsStuck i.val s ∧ t ≠ 0 then
    timed (hopClk ((gpiAt i.val s).activeAt + realNs (1000000 * t))) (gpiStuck i.val) s
  else atOnce id s

end Sys2Proof.Machine
end

