-- ==== Sys2Proof/Machine/Raster.lean ====
section
/-! DEFINITION. Rasters (R45 to R49), the Bezel and where a raster stands. -/

namespace Sys2Proof.Machine

/-! ### Widths (R45, R69) -/

def rSync (r : Nat) : Nat := bitsOf r 31 28
def rBp (r : Nat) : Nat := bitsOf r 27 22
def rFp (r : Nat) : Nat := bitsOf r 21 14
def rAct (r : Nat) : Nat := bitsOf r 13 0

/-- R45: slots of the active part of a line, of a line; lines of a raster. -/
def hSlots (h w : Nat) : Nat := ceilDiv (rAct h * w) 48
def hTotal (h w : Nat) : Nat := rSync h + rBp h + hSlots h w + rFp h
def vTotal (v : Nat) : Nat := rSync v + rBp v + rAct v + rFp v
/-- L and D, in 0.1 ns. -/
def lineLen (h w : Nat) : Nat := hTotal h w * slotLen
def rasterLen (h v w : Nat) : Nat := vTotal v * lineLen h w
/-- The line at which vertical blanking begins. -/
def blankLine (v : Nat) : Nat := rSync v + rBp v + rAct v

/-- R225: the wire bits of an OUT_FMT value. -/
def wireBits (fmt : Nat) : Nat := if fmt % 2 = 1 then 64 else 48

/-- Global port p is local port p mod 8 of slice p / 8. -/
def pSl (p : Nat) : Nat := p / 8
def pPl (p : Nat) : Nat := p % 8

/-- The applied raster of a port. -/
def rasterH (p : Nat) (s : State) : Nat := rd (Scan.RASTER_H (pSl p) (pPl p)) s
def rasterV (p : Nat) (s : State) : Nat := rd (Scan.RASTER_V (pSl p) (pPl p)) s
def portW (p : Nat) (s : State) : Nat := wireBits (rd (Layer.OUT_FMT (pSl p) (pPl p)) s)
/-- The raster of the period in progress (as of its S_n). -/
def rasNow (p : Nat) (s : State) : Nat × Nat × Nat :=
  (portAt p s).ras.getD (rasterH p s, rasterV p s, portW p s)

def refPort (sl : Nat) (s : State) : Nat := 8 * sl + fld (Slc.SLC_COMMIT_CFG sl) 2 0 s
def bezelLines (sl : Nat) (s : State) : Nat := fld (Slc.SLC_COMMIT_CFG sl) 15 8 s

/-! ### Fit rules (R46, R240) -/

/-- R46 rule 1 with R240: D + 2.4576 us ≤ period, no width of 0, H_TOTAL ≥ 16 and V_BP ≥ 1. -/
def fitsPeriod (h v w : Nat) (s : State) : Bool :=
  (rasterLen h v w + 24576) * periodDen s ≤ 10 * periodNum s
def noZeroWidth (r : Nat) : Bool := rSync r ≠ 0 && rFp r ≠ 0 && rAct r ≠ 0
def rasterMin (h v w : Nat) : Bool := 16 ≤ hTotal h w && 1 ≤ rBp v
/-- The SCAN_ERR bits a raster sets: RASTER_FIT, ACTIVE_OVER, BEZEL_OVER. -/
def fitErrs (p h v w : Nat) (s : State) : Nat :=
  let one := fitsPeriod h v w s && noZeroWidth h && noZeroWidth v && rasterMin h v w
  let two := hSlots h w * rAct v ≤ 262144
  let three := refPort (pSl p) s ≠ p || bezelLines (pSl p) s ≤ rAct v
  b2n (!one) + 2 * b2n (!two) + 4 * b2n (!three)

/-! ### The computed raster of the reference port (R47, R48) -/

/-- The first TIME clock at or after a real instant. -/
def timeEdge (t : Nat) : Nat := ceilDiv t timeClk * timeClk
/-- The instant at which a line of the raster in progress of port p begins. -/
def lineAt (p line : Nat) (s : State) : Nat :=
  let (h, _, w) := rasNow p s
  (sliceAt (pSl p) s).startAt + line * lineLen h w

/-- R48: CP_n and the first TIME clock of the Bezel that precedes it. -/
def cpInstant (sl : Nat) (s : State) : Nat :=
  let p := refPort sl s
  timeEdge (lineAt p (blankLine (rasNow p s).2.1) s)
def bezelInstant (sl : Nat) (s : State) : Nat :=
  let p := refPort sl s
  timeEdge (lineAt p (blankLine (rasNow p s).2.1 - bezelLines sl s) s)

/-- A raster is in progress whose commit point is still to come. -/
def cpAhead (sl : Nat) (s : State) : Bool :=
  !(sliceAt sl s).cpDone && (sliceAt sl s).frame.isSome

/-! ### Live positions (R30, R69) -/

/-- LINE_POS of a port; LINE has 14 bits. -/
def linePos (p : Nat) (s : State) : Nat :=
  match (portAt p s).ras with
  | none => 0
  | some (h, v, w) =>
    let e := s.clk - (sliceAt (pSl p) s).startAt
    if rasterLen h v w ≤ e then vTotal v % 0x4000 + 0x4000
    else
      let line := e / lineLen h w
      let blank := blankLine v ≤ line || line < rSync v + rBp v
      let bez := blankLine v ≤ line + bezelLines (pSl p) s && line < blankLine v
      line % 0x4000 + 0x4000 * b2n blank + 0x8000 * b2n bez + 65536 * (e % lineLen h w / slotLen)

/-- SLC_COMMIT_STATUS: the position relative to the Bezel and the blanking of the reference port. -/
def commitStatus (sl : Nat) (s : State) : Nat :=
  let p := refPort sl s
  match (portAt p s).ras with
  | none => 0
  | some (h, v, w) =>
    let e := s.clk - (sliceAt sl s).startAt
    let line := e / lineLen h w
    let cp := cpInstant sl s
    let bz := bezelInstant sl s
    if rasterLen h v w ≤ e ∨ cp < s.clk ∨ line < rSync v + rBp v then 2
    else if bz ≤ s.clk then 1
    else 65536 * ((bz - s.clk) / lineLen h w)

end Sys2Proof.Machine
end

