-- ==== Sys2Proof/Machine/Timeline.lean ====
section
/-! DEFINITION. The frame timeline (R38 to R42): arming, stopping, and what a time step does to it. -/

namespace Sys2Proof.Machine

def ftState (s : State) : Nat := fld Time.FT_STATUS 1 0 s
def setFtState (v : Nat) (s : State) : State := setFld Time.FT_STATUS 1 0 v s
def ftStopped : Nat := 0
def ftArmed : Nat := 1
def ftRunning : Nat := 2
def ftSuspended : Nat := 3

/-- R39: is the period in its range. -/
def periodOk (s : State) : Bool :=
  periodDen s ≠ 0 && 12500000 * periodDen s ≤ 3 * periodNum s
    && 3 * periodNum s ≤ 125125000 * periodDen s

/-- The smallest n ≥ n0 with T_n ≥ lim (2^-32 ns). -/
def firstFrom (n0 lim : Nat) (s : State) : Nat :=
  let k := ceilDiv lim (2 ^ 16) - (rd Time.FT_EPOCH_SEC s * 1000000000 + rd Time.FT_EPOCH_NS s) * 2 ^ 16
  max n0 (ceilDiv (k * periodDen s) (periodNum s * 2 ^ 16))

/-- R40, R42: 100 us from now, on the counter. -/
def soon (s : State) : Nat := s.cnt + nsUnits 100000

/-- The frame a slice starts next. -/
def frameNext (sl : Nat) (s : State) : Nat :=
  match s.tl.last with
  | some m => if (sliceAt sl s).frame = some m then s.tl.next else m
  | none => s.tl.next

/-- The real instant S_n: the same edge for every slice (R41). -/
def startOf (n : Nat) (s : State) : Nat :=
  match (List.range 4).find? fun sl => (sliceAt sl s).frame = some n with
  | some sl => (sliceAt sl s).startAt
  | none => edgeAt trkClk (frameT n s) s

/-- The next start of a slice has come, and its FRAME_START is still to be commanded: what lands
now lands on S_n or after it (R57, R215). -/
def startDue (sl : Nat) (s : State) : Bool :=
  ftState s ≠ ftStopped && decide (startOf (frameNext sl s) s ≤ s.clk)

/-- R29: the frame of a slice's next commit point. -/
def putNextCp (sl : Nat) (s : State) : State :=
  let n := (if cpAhead sl s then (sliceAt sl s).frame.getD 0 else frameNext sl s) + 1
  wr (Slc.SLC_NEXT_CP_FRAME sl) (n % 2 ^ 32) s

/-- R44: the next frame start, as FT_NEXT_T and SLC_NEXT_CP_FRAME show it. -/
def putNext (s : State) : State :=
  let t := frameT s.tl.next s / 2 ^ 32
  let s := wr Time.FT_NEXT_T_NS (t % 1000000000) (wr Time.FT_NEXT_T_SEC (t / 1000000000) s)
  upTo 4 putNextCp s

/-- R46: a port whose raster no longer fits the period is held in STOP.  A MODE write armed before
stays armed, and is checked and applied at the first commit point (DESIGN CHOICE, log entry 108:
R46 speaks of a later write). -/
def holdUnfit (p : Nat) (s : State) : State :=
  let w := portW p s
  if fitsPeriod (rasterH p s) (rasterV p s) w s then s
  else
    orReg (Scan.SCAN_ERR (pSl p) (pPl p)) 1 (setFld (Scan.SCAN_CTRL (pSl p) (pPl p)) 1 0 0 s)

/-- TIMELINE_ARM (R39, R40, R46): RUN goes from 0 to 1.  With the period itself out of range no port
is held in STOP (DESIGN CHOICE, log entry 108).  A change applied for a frame that never started
stays noted for the first start of this run (DESIGN CHOICE, log entry 108: R60 says when it
applied, not what becomes of it). -/
def timelineArm (s : State) : State :=
  if bit Time.FT_CTRL 0 s then s
  else
    let s := setBit Time.FT_CTRL 0 true s
    if !periodOk s then orReg Time.FT_ERR 2 s
    else
      let n := firstFrom 0 (soon s) s
      let s := setFtState ftArmed { s with tl := { next := n } }
      let s := upTo 4 (fun sl s => updSlice sl (fun c => { c with frame := none, cpDone := true }) s) s
      putNext (upTo 32 holdUnfit s)

/-- A late write whose commit point will not come waits for the next one that does. -/
def lateOnTime (o : Option Armed) : Option Armed := o.map fun a => { a with late := false }

/-- TIMELINE_STOP (R40): RUN goes from 1 to 0.  FT_NEXT_T_SEC and FT_NEXT_T_NS keep what they show
(DESIGN CHOICE, log entry 108: R44 names no T_n while STOPPED). -/
def timelineStop (s : State) : State :=
  if !bit Time.FT_CTRL 0 s then s
  else
    let s := setBit Time.FT_CTRL 0 false s
    if ftState s = ftStopped then s
    else
      let n := match s.tl.last with | some n => n | none => 2 ^ 64 - 1
      let s := setFtState ftStopped { s with
        armed := s.armed.map fun p => (p.1, lateOnTime p.2)
        tl := { s.tl with credit := none } }
      let s := upTo 4 (fun sl s => updSlice sl (fun c => { c with cpDone := true }) s) s
      logEv 0x0308 noInst (p8 n) s

/-- R40, R42, R279: a forward step of the counter. -/
def timelineForward (s : State) : State :=
  match s.tl.last with
  | none =>
    if ftState s = ftArmed then
      putNext { s with tl := { s.tl with next := firstFrom s.tl.next (soon s) s } }
    else s
  | some last =>
    if ftState s = ftRunning ∨ ftState s = ftSuspended then
      let m := max s.tl.next (firstFrom (last + 1) (soon s) s)
      let k := m - s.tl.next
      let s := bumpBy Time.FT_SKIPPED k s
      let s := { s with tl := { s.tl with next := m, credit := some (last + 1, m) } }
      logEv 0x0309 noInst (p4 k) (putNext s)
    else s

/-- R42: a backward step of d ns. -/
def timelineBackward (d : Nat) (s : State) : State :=
  if ftState s = ftArmed then putNext s
  else if ftState s = ftRunning ∨ ftState s = ftSuspended then
    logEv 0x030A noInst (p8 d) (putNext (setFtState ftSuspended s))
  else s

/-- The commands are writes of FT_CTRL.RUN. -/
def execTimelineArm (who : Req) (s : State) : Host.Outcome State Fault Refusal :=
  atOnce (landing who false timelineArm) s
def execTimelineStop (who : Req) (s : State) : Host.Outcome State Fault Refusal :=
  atOnce (landing who false timelineStop) s

end Sys2Proof.Machine
end

