-- ==== Sys2Proof/Machine/Layers.lean ====
section
/-! DEFINITION. Layers: latch, leases, tile requests, read-ahead, delivery (R197, R198, R205 to
R213). -/

namespace Sys2Proof.Machine

/-- Fetchers are numbered 16 * slice + L. -/
def fetcherAt (f : Nat) (s : State) : Fetcher := kget {} f s.fetchers
def setFetcher (f : Nat) (q : Fetcher) (s : State) : State :=
  { s with fetchers := kset {} f q s.fetchers }
def updFetcher (f : Nat) (g : Fetcher → Fetcher) (s : State) : State :=
  setFetcher f (g (fetcherAt f s)) s
/-- R183: the IOMMU stream of a fetcher. -/
def layerStream (f : Nat) : Nat := 0xC0 + f

/-! ### Formats (R206) -/

def fmtBytes : Nat → Nat
  | 0 => 8 | 1 => 6 | 2 => 4 | 3 => 3 | 4 => 4 | 5 => 8 | 6 => 2 | 7 => 1 | _ => 0

def u8Fx (b : Nat) : Nat := (b * 32768 + 127) / 255
def u10Fx (v : Nat) : Nat := (v * 32768 + 511) / 1023
def u16Fx (v : Nat) : Nat := (v + 1) / 2
def a2Fx : Nat → Nat
  | 0 => 0 | 1 => 0x2AAB | 2 => 0x5555 | _ => 0x8000

/-- The four channels of a pixel from its bytes. -/
def pixelOf (fmt : Nat) (b : List Byte) : List Nat :=
  let byte (i : Nat) := ((b.drop i).headD 0).toNat
  let half (i : Nat) := leNat ((b.drop (2 * i)).take 2)
  match fmt with
  | 0 => [half 0, half 1, half 2, half 3]
  | 1 => [half 0, half 1, half 2, 0x8000]
  | 2 => [u8Fx (byte 0), u8Fx (byte 1), u8Fx (byte 2), u8Fx (byte 3)]
  | 3 => [u8Fx (byte 0), u8Fx (byte 1), u8Fx (byte 2), 0x8000]
  | 4 =>
    let w := leNat (b.take 4)
    [u10Fx (bitsOf w 9 0), u10Fx (bitsOf w 19 10), u10Fx (bitsOf w 29 20), a2Fx (bitsOf w 31 30)]
  | 5 => [(halfToFx (half 0)).1, (halfToFx (half 1)).1, (halfToFx (half 2)).1, (halfToFx (half 3)).1]
  | 6 => let v := u16Fx (half 0); [v, v, v, 0x8000]
  | _ => let v := u8Fx (byte 0); [v, v, v, 0x8000]

/-! ### Configuration and latch (R197, R205, R207) -/

def layWidth (fmt : Nat) : Nat := bitsOf fmt 17 4
def layHeight (fmt : Nat) : Nat := bitsOf fmt 31 18

/-- R207: the failing field of an enabled layer's configuration: FMT, WIDTH, HEIGHT, stride. -/
def layerFault (stride fmt : Nat) : Option Nat :=
  if 8 ≤ fmt % 16 then some 0
  else if layWidth fmt = 0 then some 1
  else if layHeight fmt = 0 then some 2
  else if stride % 64 ≠ 0 ∨ stride < layWidth fmt * fmtBytes (fmt % 16) then some 3
  else none

/-- R205, R207, R197: the four shadows of layer l are copied at CP_n. -/
def latchLayer (sl n l : Nat) (s : State) : State :=
  let f := 16 * sl + l
  let oldBase := rd (Layer.LY_ACT_BASE sl l) s
  let was := bit (Layer.LY_ACT_CTRL sl l) 0 s && !(fetcherAt f s).bad
  let base := rd (Layer.LY_BASE sl l) s
  let stride := rd (Layer.LY_STRIDE sl l) s
  let fmt := rd (Layer.LY_FMT sl l) s
  let ctrl := rd (Layer.LY_CTRL sl l) s
  let fault := if ctrl.testBit 0 then layerFault stride fmt else none
  let s := wr (Layer.LY_ACT_STRIDE sl l) stride (wr (Layer.LY_ACT_BASE sl l) base s)
  let s := wr (Layer.LY_ACT_CTRL sl l) ctrl (wr (Layer.LY_ACT_FMT sl l) fmt s)
  let s := wr (Layer.LY_LATCH_FRAME sl l) (n % 2 ^ 32) s
  let s := updFetcher f (fun q => { q with bad := fault.isSome }) s
  let s := match fault with
    | some k => logEv 0x0311 f (p1 f ++ p1 k) (orReg (Layer.LAYER_ERR sl) (2 ^ l) s)
    | none => s
  if was ∧ (base ≠ oldBase ∨ ¬ ctrl.testBit 0 ∨ fault.isSome) then
    wr (Mc.LY_PREV_LAST sl l) ((n + (2 ^ 64 - 1)) % 2 ^ 64) (wr (Mc.LY_PREV_BASE sl l) oldBase s)
  else s

/-- R52: the layers whose commit bits stand. -/
def latchLayers (sl n : Nat) (s : State) : State :=
  let m := fld (Layer.LY_COMMIT sl) 15 0 s
  updSlice sl (fun c => { c with latchedLy := m })
    (wr (Layer.LY_COMMIT sl) 0 (forAll (latchLayer sl n) (bitList 16 m) s))

/-- R205, R211: the layer switch clock: requests taken from now on use the new values, and every
read-ahead buffer is empty. -/
def layerSwitch (sl : Nat) (s : State) : State :=
  upTo 16 (fun l s =>
    updFetcher (16 * sl + l) (fun q =>
      { q with
        epoch := q.epoch + 1
        ahead := []
        nextAhead := none }) s) s

/-! ### Reading a tile (R208, R209, R212) -/

def Taken.enabled (t : Taken) : Bool := t.ctrl.testBit 0 && !t.bad
/-- Pixels of a row of tile column x inside the extent; rows of tile row y. -/
def Taken.cols (t : Taken) (x : Nat) : Nat := min 32 (layWidth t.fmt - 32 * x)
def Taken.rows (t : Taken) (y : Nat) : Nat := min 8 (layHeight t.fmt - 8 * y)
/-- The tile has a pixel inside the extent. -/
def Taken.inside (t : Taken) (x y : Nat) : Bool := t.enabled && 0 < t.cols x && 0 < t.rows y

/-- A read for a layer: its bytes, or the kind of its fault and the address.  An ECC observation of
the command is met at the first byte, flipped bits in the lines they stand in. -/
def layerRead (st va n : Nat) (e : Ecc) (s : State) : Except (Nat × Nat) (List Byte) × State :=
  (pagePieces va (n / 4096 + 2) n).foldl (fun (acc : Except (Nat × Nat) (List Byte) × State) p =>
    match acc.1 with
    | .error _ => acc
    | .ok bs =>
      match ioTranslate st p.1 .read acc.2 with
      | (.fault k, s) => (.error (k, p.1), s)
      | (.pa a, s) =>
        let s := meet ⟨2, st⟩ a p.2 (if p.1 = va then eccEvent e a ⟨2, st⟩ s else s)
        if poisoned a p.2 s then (.error (kEcc, p.1), s)
        else (.ok (bs ++ memBytes a p.2 s), s)) (.ok [], s)

/-- The pixels of one row: those inside the extent, then transparent ones. -/
def rowPixels (fmt n : Nat) (bs : List Byte) : List (List Nat) :=
  let w := fmtBytes fmt
  (List.range 32).map fun i =>
    if i < n then pixelOf fmt ((bs.drop (w * i)).take w) else [0, 0, 0, 0]

/-- The rows of tile (x, y), top to bottom, to the first read that fails. -/
def tileRows (st x y : Nat) (t : Taken) (e : Ecc) (s : State) :
    Except (Nat × Nat) (List (List (List Nat))) × State :=
  let w := fmtBytes (t.fmt % 16)
  (List.range (if t.inside x y then t.rows y else 0)).foldl
    (fun (acc : Except (Nat × Nat) (List (List (List Nat))) × State) r =>
      match acc.1 with
      | .error _ => acc
      | .ok rows =>
        let va := (t.base + (8 * y + r) * t.stride + 32 * x * w) % 2 ^ 64
        match layerRead st va (t.cols x * w) (if r = 0 then e else .clean) acc.2 with
        | (.error k, s) => (.error k, s)
        | (.ok bs, s) => (.ok (rows ++ [rowPixels (t.fmt % 16) (t.cols x) bs]), s)) (.ok [], s)

/-- R208: the 2,048 bytes of a tile: plane by plane, row by row. -/
def tileBytes (rows : List (List (List Nat))) : List Byte :=
  (List.range 4).flatMap fun c =>
    (List.range 8).flatMap fun r =>
      (List.range 32).flatMap fun i => p2 (((rows.getD r []).getD i []).getD c 0)

/-! ### Requests (R210, R211, R213) -/

def takenOf (sl l : Nat) (r : TldReq) (s : State) : Taken :=
  let q := fetcherAt (16 * sl + l) s
  { req := r
    epoch := q.epoch
    base := rd (Layer.LY_ACT_BASE sl l) s
    stride := rd (Layer.LY_ACT_STRIDE sl l) s
    fmt := rd (Layer.LY_ACT_FMT sl l) s
    ctrl := rd (Layer.LY_ACT_CTRL sl l) s
    bad := q.bad
    withdrawn := false }

/-- FETCH_REQUEST_TAKEN (R210): the oldest request is taken; at most 4 are in flight. -/
def fetchTaken (sl l : Nat) (s : State) : State :=
  let f := 16 * sl + l
  let q := fetcherAt f s
  match q.queue with
  | [] => s
  | r :: rest =>
    if 4 ≤ q.taken.length then s
    else
      let t := takenOf sl l r s
      let next := if t.ctrl.testBit 2 ∧ t.inside (r.col + 1) r.row then some (r.col + 1, r.row) else none
      setFetcher f
        { q with
          queue := rest
          taken := q.taken ++ [t]
          nextAhead := next } s

/-- READAHEAD (R211): the next tile is read, unless a request waits or BP_FETCH stops it; one that
faults is dropped and raises nothing: but for an error its reads met, it is as if it had not been
made. -/
def readAhead (sl l : Nat) (s : State) : State :=
  let f := 16 * sl + l
  let q := fetcherAt f s
  match q.nextAhead with
  | none => s
  | some (x, y) =>
    let s := setFetcher f { q with nextAhead := none } s
    if ¬ q.queue.isEmpty then s
    else if bpFetch sl s then bump (Layer.READAHEAD_STOPS sl) s
    else
      match tileRows (layerStream f) x y (takenOf sl l ⟨0, l, 0, x, y⟩ s) .clean s with
      | (.error (kind, _), t) => if kind = kEcc then t else s
      | (.ok rows, s) =>
        updFetcher f (fun q => { q with
          ahead := (q.ahead.drop (q.ahead.length - 3)) ++ [(x, y, tileBytes rows)] }) s

/-- R81: a delivery to a context ends: the interlock releases. -/
def endDelivery (r : TldReq) (s : State) : State :=
  updCtx r.ctx (fun c => { c with tlds := c.tlds.erase r }) s

/-- R212: a tile whose fetch failed: the record, the counts, the log. -/
def fetchFailed (sl l kind va : Nat) (s : State) : State :=
  let f := 16 * sl + l
  let s := abortFault (layerStream f) va kind false s
  let s := orReg (Layer.INT_STATUS sl) (2 ^ l) (bump (Layer.LY_FAULTS sl l) s)
  logPerCounted 0x0310 f oneSecond (fun k => p1 f ++ p4 k ++ p1 kind) s

/-- A tile read, or found in a read-ahead buffer. -/
def fetchTile (sl l : Nat) (t : Taken) (e : Ecc) (s : State) :
    Except (Nat × Nat) (List Byte) × State :=
  let f := 16 * sl + l
  let hit := fun (b : Nat × Nat × List Byte) => b.1 == t.req.col && b.2.1 == t.req.row
  match (fetcherAt f s).ahead.find? hit with
  | some b =>
    if t.epoch = (fetcherAt f s).epoch then
      (.ok b.2.2, updFetcher f (fun q => { q with ahead := q.ahead.filter fun b => !hit b }) s)
    else
      match tileRows (layerStream f) t.req.col t.req.row t e s with
      | (.error k, s) => (.error k, s)
      | (.ok rows, s) => (.ok (tileBytes rows), s)
  | none =>
    match tileRows (layerStream f) t.req.col t.req.row t e s with
    | (.error k, s) => (.error k, s)
    | (.ok rows, s) => (.ok (tileBytes rows), s)

/-- TILE_DELIVERY (R208 to R213): the oldest taken request is delivered: data, or the layer's
fallback (TRANSPARENT writes zeros, HOLD nothing).  A withdrawn one writes nothing. -/
def tileDelivery (sl l : Nat) (e : Ecc) (s : State) : State :=
  let f := 16 * sl + l
  match (fetcherAt f s).taken with
  | [] => s
  | t :: rest =>
    let s := updFetcher f (fun q => { q with taken := rest }) s
    let (r, s) := fetchTile sl l t e s
    let (data, s) := match r with
      | .ok bs => (some bs, s)
      | .error (kind, va) =>
        (if t.ctrl.testBit 1 then none else some (List.replicate 2048 (0 : Byte)),
          fetchFailed sl l kind va s)
    if t.withdrawn then s
    else
      let s := match data with
        | some bs => putTlm t.req.ctx t.req.dst bs s
        | none => s
      endDelivery t.req (bump (Layer.LY_TILES sl l) s)

/-! ### Retirement (R198) -/

/-- The frame of the newest commit point all of whose earlier requests have been delivered. -/
def retiredCp (sl : Nat) (s : State) : Option Nat :=
  let behind := fun l =>
    let q := fetcherAt (16 * sl + l) s
    (q.taken.map fun t => q.epoch - t.epoch).foldl max 0
  let k := ((List.range 16).map behind).foldl max 0
  ((sliceAt sl s).cpTimes[k]?).map Prod.fst

/-- FRAME_RETIRED (R198); CP_0 retires no frame. -/
def frameRetired (sl : Nat) (s : State) : State :=
  match retiredCp sl s with
  | none => s
  | some m =>
    if m = 0 ∨ rd (Mc.FRAME_RETIRED sl) s = m - 1 then s
    else orReg (Mmu.INT_STATUS sl) 2 (wr (Mc.FRAME_RETIRED sl) (m - 1) s)

/-- While everything is shed (R467) nothing is fetched. -/
def unlessShed (f : State → State) (s : State) : State := if shed s then s else f s

def execFetchRequestTaken (slice : Fin 4) (layer : Fin 16) (s : State) :
    Host.Outcome State Fault Refusal :=
  atOnce (unlessShed (fetchTaken slice.val layer.val)) s
def execReadahead (slice : Fin 4) (layer : Fin 16) (s : State) : Host.Outcome State Fault Refusal :=
  atOnce (unlessShed (readAhead slice.val layer.val)) s
def execTileDelivery (slice : Fin 4) (layer : Fin 16) (e : Ecc) (s : State) :
    Host.Outcome State Fault Refusal :=
  atOnce (unlessShed (tileDelivery slice.val layer.val e)) s
def execFrameRetired (slice : Fin 4) (s : State) : Host.Outcome State Fault Refusal :=
  atOnce (unlessShed (frameRetired slice.val)) s

end Sys2Proof.Machine
end

