-- ==== Sys2Proof/Machine/Depkt.lean ====
section
/-! DEFINITION. The ST 2110-20 depacketiser (R303 to R305): packets, slots, flows. -/

namespace Sys2Proof.Machine

def flowAt (f : Nat) (s : State) : FlowSt := kget {} f s.net.flows
def setFlow (f : Nat) (x : FlowSt) (s : State) : State :=
  { s with net := { s.net with flows := kset {} f x s.net.flows } }
def updFlow (f : Nat) (g : FlowSt → FlowSt) (s : State) : State := setFlow f (g (flowAt f s)) s

/-- The number big-endian bytes spell. -/
def beNat (bs : List Byte) : Nat := bs.foldl (fun a b => 256 * a + b.toNat) 0
/-- Bytes i .. i+n-1, big-endian. -/
def beAt (i n : Nat) (bs : List Byte) : Nat := beNat ((bs.drop i).take n)

/-! ### A packet -/

/-- A sample row data header and its data. -/
structure Srd where
  row : Nat
  off : Nat
  data : List Byte

/-- An RTP packet with the ST 2110-20 payload header. -/
structure VideoPacket where
  marker : Bool
  seq : Nat
  rtp : Nat
  field : Bool
  srds : List Srd

/-- Headers from byte i on, n more at most: length, field bit, row, offset; and where they end. -/
def srdHeads (bs : List Byte) : Nat → Nat → Option (List (Nat × Bool × Nat × Nat) × Nat)
  | 0, _ => none
  | n + 1, i =>
    if bs.length < i + 6 then none
    else
      let row := beAt (i + 2) 2 bs
      let off := beAt (i + 4) 2 bs
      let h := (beAt i 2 bs, decide (32768 ≤ row), row % 32768, off % 32768)
      if 32768 ≤ off then
        match srdHeads bs n (i + 6) with
        | some (t, e) => some (h :: t, e)
        | none => none
      else some ([h], i + 6)

/-- The data of each header, in order, from byte i on. -/
def srdData (bs : List Byte) : List (Nat × Bool × Nat × Nat) → Nat → List Srd
  | [], _ => []
  | (n, _, row, off) :: t, i => ⟨row, off, (bs.drop i).take n⟩ :: srdData bs t (i + n)

/-- Where the RTP header ends: after the CSRC list and a header extension. -/
def rtpEnd (bs : List Byte) : Nat :=
  let b0 := beAt 0 1 bs
  let e := 12 + 4 * (b0 % 16)
  if b0.testBit 4 then e + 4 + 4 * beAt (e + 2) 2 bs else e

/-- R303: a UDP payload read as a packet of a flow. -/
def parseVideo (bs : List Byte) : Option VideoPacket :=
  if bs.length < 12 ∨ beAt 0 1 bs / 64 ≠ 2 then none
  else
    let e := rtpEnd bs
    match srdHeads bs 3 (e + 2) with
    | none => none
    | some (hs, d) => some {
        marker := 128 ≤ beAt 1 1 bs
        seq := 65536 * beAt e 2 bs + beAt 2 2 bs
        rtp := beAt 4 4 bs
        field := hs.any fun h => h.2.1
        srds := srdData bs hs d }

/-! ### Pixels (R303) -/

def flowEnabled (f : Nat) (s : State) : Bool := bit (Net.FLOW_CTRL f) 0 s
def flowRaw (f : Nat) (s : State) : Bool := bit (Net.FLOW_CTRL f) 3 s
def flowDepth (f : Nat) (s : State) : Nat := fld (Net.FLOW_CTRL f) 6 4 s
def flowWidth (f : Nat) (s : State) : Nat := fld (Net.FLOW_GEOM f) 13 0 s
def flowHeight (f : Nat) (s : State) : Nat := fld (Net.FLOW_GEOM f) 29 16 s

/-- Bits of a sample, and bytes of a written pixel. -/
def depthBits : Nat → Nat
  | 0 => 8 | 1 => 10 | 2 => 12 | _ => 16
def depthBpp : Nat → Nat
  | 0 => 3 | 1 => 4 | 2 => 6 | 3 => 6 | _ => 8
/-- Bytes and pixels of a pgroup. -/
def pgroup (f : Nat) (s : State) : Nat × Nat :=
  if flowRaw f s then (fld (Net.FLOW_CTRL f) 27 20 s, fld (Net.FLOW_CTRL f) 19 16 s)
  else match flowDepth f s with
    | 0 => (3, 1) | 1 => (15, 4) | 2 => (9, 2) | 3 => (6, 1) | 4 => (6, 1) | _ => (0, 0)

/-- Sample k of a pgroup of w-bit samples, big-endian. -/
def sampleAt (w k : Nat) (g : List Byte) : Nat :=
  beNat g / 2 ^ (8 * g.length - w * (k + 1)) % 2 ^ w

/-- Pixel i of a pgroup, as written. -/
def pixelBytes (depth i : Nat) (g : List Byte) : List Byte :=
  let c (k : Nat) := sampleAt (depthBits depth) (3 * i + k) g
  match depth with
  | 0 => [0, 1, 2].flatMap fun k => p1 (c k)
  | 1 => p4 (c 0 + 2 ^ 10 * c 1 + 2 ^ 20 * c 2 + 3 * 2 ^ 30)
  | 2 => [0, 1, 2].flatMap fun k => p2 ((c k * 32768 + 2047) / 4095)
  | 3 => [0, 1, 2].flatMap fun k => p2 ((c k + 1) / 2)
  | _ => ([0, 1, 2].flatMap fun k => p2 (c k)) ++ p2 0x3C00

/-- The pgroups of a segment's data, whole ones alone. -/
def pgroups (n : Nat) : Nat → List Byte → List (List Byte)
  | 0, _ => []
  | k + 1, bs => if bs.length < n then [] else bs.take n :: pgroups n k (bs.drop n)

/-- What a segment writes: offset within the buffer and bytes; and the pixels out of range. -/
structure RowOut where
  writes : List (Nat × List Byte)
  outside : Nat

/-- The pixels x .. x+n-1 of a row that are out of range. -/
def outsideOf (x n row w h : Nat) : Nat :=
  if h ≤ row then n else n - (min w (x + n) - min w x)

def rowOut (f : Nat) (r : Srd) (s : State) : RowOut :=
  let (nb, np) := pgroup f s
  let w := flowWidth f s
  let h := flowHeight f s
  let line := r.row * rd (Net.FLOW_STRIDE f) s
  let gs := if nb = 0 ∨ np = 0 then [] else pgroups nb r.data.length r.data
  let outside := outsideOf r.off (gs.length * np) r.row w h
  let inside (x : Nat) : Bool := decide (r.row < h) && decide (x < w)
  if flowRaw f s then
    ⟨(gs.zipIdx).filterMap fun (g, k) =>
      if inside (r.off + k * np) then some (line + (r.off / np + k) * nb, g) else none, outside⟩
  else
    let d := flowDepth f s
    ⟨(gs.zipIdx).flatMap fun (g, k) => (List.range np).filterMap fun i =>
      let x := r.off + k * np + i
      if inside x then some (line + x * depthBpp d, pixelBytes d i g) else none, outside⟩

/-- R305: writes through stream 0x48 + f, until one faults. -/
def flowWrites (f base : Nat) : List (Nat × List Byte) → State → Bool × State
  | [], s => (true, s)
  | (o, bs) :: t, s =>
    match ioWrite (0x48 + f) (base + o) bs s with
    | (false, s) => (false, s)
    | (true, s) => flowWrites f base t s

/-! ### Slots (R304) -/

def slotFree : Nat := 0
def slotFilling : Nat := 1
def slotReady : Nat := 2
def slotSt (f b : Nat) (s : State) : Nat := fld (Net.FLOW_SLOTS f) (2 * b + 1) (2 * b) s
def setSlotSt (f b v : Nat) (s : State) : State := setFld (Net.FLOW_SLOTS f) (2 * b + 1) (2 * b) v s

/-- The next FREE slot after the last slot used. -/
def nextFree (f : Nat) (s : State) : Option Nat :=
  ([1, 2, 3, 4].map fun k => ((flowAt f s).lastSlot + k) % 4).find? fun b => slotSt f b s == slotFree

/-- The FILLING slot becomes READY: its report is written and software is told. -/
def flowSlotDone (f : Nat) (incomplete : Bool) (s : State) : State :=
  let q := flowAt f s
  match q.filling with
  | none => s
  | some b =>
    let inc := incomplete || q.fault
    let flags := b2n inc + 2 * b2n q.fault
    let s := wr (Net.SLOT_INFO f b) (q.missing + 65536 * flags) (wr (Net.SLOT_RTP f b) q.rtp s)
    let s := wr (Net.SLOT_LAST f b) q.last (wr (Net.SLOT_FIRST f b) q.first s)
    let s := setSlotSt f b slotReady s
    let s := updFlow f (fun q => { q with filling := none, ended := some q.rtp }) s
    let s := orReg Net.DEPKT_INT_STATUS (2 ^ f) s
    let s := if bit (Net.FLOW_CTRL f) 7 s then
        lineEdgeMask (fld (Net.FLOW_CTRL f) 13 10 s) (40 + fld (Net.FLOW_CTRL f) 9 8 s) s
      else s
    if inc then logPer 0x070C f oneSecond (p1 f ++ p4 q.missing ++ p1 flags) s else s

/-- A new frame takes a slot, or is dropped whole. -/
def newFrame (f rtp : Nat) (s : State) : State :=
  match nextFree f s with
  | none =>
    let s := updFlow f (fun q => { q with dropping := some rtp }) s
    logPer 0x070B f oneSecond [] (bump (Net.FLOW_DROPPED f) s)
  | some b =>
    updFlow f (fun q =>
      { q with
        filling := some b
        lastSlot := b
        rtp := rtp
        dropping := none
        missing := 0
        fault := false
        first := srTime s
        last := srTime s }) (setSlotSt f b slotFilling s)

/-! ### Packets (R305) -/

/-- The payload of a packet of the FILLING frame is written; the marker ends the frame. -/
def flowTake (f : Nat) (k : VideoPacket) (s : State) : State :=
  match (flowAt f s).filling with
  | none => s
  | some b =>
    let outs := k.srds.map fun r => rowOut f r s
    let s := bumpBy (Net.FLOW_RANGE_ERRS f) ((outs.map RowOut.outside).sum) s
    let s := updFlow f (fun q => { q with last := srTime s, lastAt := s.clk }) s
    let s := match flowWrites f (rd (Net.FLOW_BUF f b) s) (outs.flatMap RowOut.writes) s with
      | (true, s) => bump (Net.FLOW_PKTS f) s
      | (false, s) => updFlow f (fun q => { q with fault := true }) (bump (Net.FLOW_FAULTS f) s)
    if k.marker then flowSlotDone f false s else s

/-- The sequence numbers seen, 4,096 of them (R305). -/
def noteSeen (f seq : Nat) (s : State) : State :=
  updFlow f (fun q => { q with seen := (seq :: q.seen).take 4096 }) s

def addMissing (f : Nat) (d : Int) (s : State) : State :=
  updFlow f (fun q => { q with missing := min 65535 ((q.missing : Int) + d).toNat }) s

/-- A packet ahead of all before it, or the first: the gap counts, frames end and begin. -/
def packetAhead (f gap : Nat) (k : VideoPacket) (s : State) : State :=
  let s := bumpBy (Net.FLOW_MISSING f) gap (updFlow f (fun q => { q with high := some k.seq }) s)
  let q := flowAt f s
  if q.filling.isNone ∧ q.ended = some k.rtp then bump (Net.FLOW_LATE f) s
  else if q.filling.isNone ∧ q.dropping = some k.rtp then s
  else
    let s := if q.filling.isSome ∧ q.rtp = k.rtp then s
      else newFrame f k.rtp (flowSlotDone f true s)
    if (flowAt f s).filling.isSome then flowTake f k (addMissing f gap s) else s

/-- A packet behind the highest sequence number. -/
def packetBehind (f : Nat) (k : VideoPacket) (s : State) : State :=
  let q := flowAt f s
  if q.filling.isSome ∧ q.rtp = k.rtp then flowTake f k (addMissing f (-1) s)
  else bump (Net.FLOW_LATE f) s

/-- R303, R305: a packet of flow f. -/
def flowPacket (f : Nat) (k : VideoPacket) (s : State) : State :=
  let q := flowAt f s
  let both := fld (Net.FLOW_CTRL f) 2 1 s = 3
  if k.field then bump (Net.FLOW_RANGE_ERRS f) s
  else if both ∧ q.seen.contains k.seq then bump (Net.FLOW_DUPES f) s
  else
    let s := if both then noteSeen f k.seq s else s
    match q.high with
    | none => packetAhead f 0 k s
    | some h =>
      let d := (k.seq + 2 ^ 32 - h) % 2 ^ 32
      if d ≠ 0 ∧ d < 2 ^ 31 then packetAhead f (d - 1) k s
      else if d = 0 ∧ q.filling.isSome ∧ q.rtp = k.rtp then flowTake f k s
      else packetBehind f k s

/-- R303: does a port (0 U0, 1 U1) feed a flow. -/
def flowFed (f p : Nat) (s : State) : Bool :=
  flowEnabled f s && decide (p < 2) && (fld (Net.FLOW_CTRL f) 2 1 s).testBit p

/-- DEPKT_PACKET: a UDP payload that port p's filters send to flow f.  One that is no ST 2110-20
packet writes nothing (DEDUCED, log entry 70). -/
def depkt (f p : Nat) (udp : List Byte) (s : State) : State :=
  if flowFed f p s ∧ ¬ activationPaused s then
    match parseVideo udp with
    | none => s
    | some k => flowPacket f k s
  else s
def execDepktPacket (f : Fin 32) (p : Fin 2) (udp : List Byte) (s : State) :
    Host.Outcome State Fault Refusal :=
  atOnce (unlessShed (depkt f.val p.val udp)) s

/-- FLOW_TIMEOUT (R304): no packet for FLOW_TMO us. -/
def execFlowTimeout (f : Fin 32) (s : State) : Host.Outcome State Fault Refusal :=
  let tmo := fld (Net.FLOW_TMO f.val) 15 0 s
  if shed s ∨ tmo = 0 ∨ (flowAt f.val s).filling.isNone then atOnce id s
  else timed (fun s => hopClk ((flowAt f.val s).lastAt + realNs (tmo * 1000)) s) (flowSlotDone f.val true) s

/-- FLOW_RELEASE_WRITE (R304): READY slots become FREE. -/
def flowRelease (f v : Nat) (s : State) : State :=
  forAll (fun b s => if slotSt f b s = slotReady then setSlotSt f b slotFree s else s) (bitList 4 v) s
def execFlowReleaseWrite (f : Fin 32) (who : Req) (v : BitVec 4) (s : State) :
    Host.Outcome State Fault Refusal :=
  atOnce (landing who false (flowRelease f.val v.toNat)) s

/-- R304: a write of FLOW_CTRL; disabling ends the FILLING slot. -/
def flowCtrlWrite (f v : Nat) (s : State) : State :=
  let was := flowEnabled f s
  let s := wr (Net.FLOW_CTRL f) v s
  if was && !v.testBit 0 then flowSlotDone f true s else s

end Sys2Proof.Machine
end

