-- ==== Sys2Proof/Machine/Store.lean ====
section
/-! DEFINITION. The port frame store (R214 to R218), the segment map (R220 to R222), the colour
stage (R223, R224). -/

namespace Sys2Proof.Machine

/-! ### The store (R20, R214, R218) -/

/-- Words of 8 bytes: bank b of global port p starts at this word; the windows follow one another. -/
def bankWord (p b : Nat) : Nat := pSl p * 0x400000 + (b * 0xC00000 + pPl p * 0x180000) / 8

def storeWord (a : Nat) (s : State) : Nat := (kget 0 a s.store).toNat
def storeIsBad (a : Nat) (s : State) : Bool := kget false a s.storeBad
def putStoreWord (a v : Nat) (s : State) : State :=
  { s with store := kset 0 a (BitVec.ofNat 64 v) s.store }
/-- R218: n bytes are written at byte o of word a; in an uncorrectable word the others become 0. -/
def putStore (a o n v : Nat) (s : State) : State :=
  let old := if storeIsBad a s then 0 else storeWord a s
  let s := { s with storeBad := kset false a false s.storeBad }
  putStoreWord a (putBits old (8 * (o + n) - 1) (8 * o) v) s
/-- A halfword at byte offset `off` of a bank. -/
def putHalf (p b off v : Nat) (s : State) : State := putStore (bankWord p b + off / 8) (off % 8) 2 v s
def storeHalf (p b off : Nat) (s : State) : Nat :=
  bitsOf (storeWord (bankWord p b + off / 8) s) (8 * (off % 8) + 15) (8 * (off % 8))

def frontBank (p : Nat) (s : State) : Nat := fld (Scan.SCAN_STATUS (pSl p) (pPl p)) 4 4 s
def backBank (p : Nat) (s : State) : Nat := 1 - frontBank p s
def markOf (p : Nat) (s : State) : Option Nat := kget none p s.marks
def setMark (p : Nat) (m : Option Nat) (s : State) : State :=
  { s with marks := kset none p m s.marks }

/-! ### Segments (R220, R221) -/

structure Segment where
  valid : Bool
  c4 : Bool
  port : Nat
  node : Nat
  start : Nat
  length : Nat
  matrix : Nat
  curve : Nat
  curveEn : Bool
  dither : Nat
  order : Nat
  lustreEn : Bool
  reserved : Bool

def segmentOf (sl e : Nat) (s : State) : Segment :=
  let w0 := rd (Seg.SEGMAP sl e 0) s
  let w1 := rd (Seg.SEGMAP sl e 1) s
  let w2 := rd (Seg.SEGMAP sl e 2) s
  let w3 := rd (Seg.SEGMAP sl e 3) s
  { valid := w0.testBit 0
    c4 := w0.testBit 1
    port := bitsOf w0 4 2
    node := bitsOf w0 10 5
    start := bitsOf w1 17 0
    length := bitsOf w2 18 0
    matrix := bitsOf w3 9 0
    curve := bitsOf w3 13 10
    curveEn := w3.testBit 14
    dither := bitsOf w3 16 15
    order := bitsOf w3 19 17
    lustreEn := w3.testBit 20
    reserved := bitsOf w0 31 11 ≠ 0 || bitsOf w1 31 18 ≠ 0 || bitsOf w2 31 19 ≠ 0
      || bitsOf w3 31 21 ≠ 0 }

/-- R221: an entry is usable. -/
def segUsable (sl : Nat) (g : Segment) (s : State) : Bool :=
  let w := portW (8 * sl + g.port) s
  g.valid && !g.reserved && g.length ≠ 0 && g.start + g.length ≤ 1572864 / (w / 8)
    && g.order ≤ 5 && (!g.c4 || w = 64)

/-! ### tst and marks (R127, R128, R215, R216, R221) -/

def halfLane (v : BitVec 512) (i : Nat) : Nat := v.toNat / 2 ^ (16 * i) % 65536

/-- A tst write reaches the store. -/
def tstArrive (sl : Nat) (w : TstWrite) (s : State) : State :=
  let g := segmentOf sl w.seg s
  if !segUsable sl g s then
    orReg (Layer.INT_STATUS sl) 0x10000 (bump (Layer.TST_INVALID_COUNT sl) s)
  else
    let p := 8 * sl + g.port
    let bytes := portW p s / 8
    let b := backBank p s
    let lanes := bitList 32 w.lanes
    let s := forAll (fun i s =>
      if w.off + i < g.length then
        upTo (if g.c4 then 4 else 3) (fun c s =>
          putHalf p b ((g.start + w.off + i) * bytes + 2 * c) (halfLane (w.ch.getD c 0) i) s) s
      else s) lanes s
    if lanes.any fun i => g.length ≤ w.off + i then
      orReg (Layer.INT_STATUS sl) 0x10000 (bump (Layer.TST_CLIP_COUNT sl) s)
    else s

/-- The first item of a path that satisfies a test, given the items before it, and the path without
it. -/
def takeItem (ok : List PathEntry → PathEntry → Bool) :
    List PathEntry → List PathEntry → Option (PathEntry × List PathEntry)
  | _, [] => none
  | seen, e :: t =>
    if ok seen e then some (e, seen ++ t) else takeItem ok (seen ++ [e]) t

def isTst (e : PathEntry) : Bool := match e.item with | .tst _ => true | .commit .. => false

/-- TST_WRITE_ARRIVE (R127, R215): the first tst on the slice's path arrives: the writes of one
context in program order; those of different contexts in the order of their issue (DESIGN CHOICE,
log entry 103: R127 orders only the writes of one context). -/
def tstWriteArrive (sl : Nat) (s : State) : State :=
  match takeItem (fun _ e => isTst e) [] (schedAt sl s).path with
  | some (⟨_, _, _, .tst w⟩, rest) => tstArrive sl w (updSched sl (fun c => { c with path := rest }) s)
  | _ => s

/-- COMPLETION_MARK_WRITE (R128): the first tcommit whose earlier tst writes, its context's and its
flow's, have all arrived places its mark on the back banks of its ports. -/
def completionMark (sl : Nat) (s : State) : State :=
  let ready := fun (seen : List PathEntry) (e : PathEntry) =>
    !isTst e && seen.all fun x => x.owner ≠ e.owner && x.ctx ≠ e.ctx
  match takeItem ready [] (schedAt sl s).path with
  | some (⟨_, _, _, .commit ports val⟩, rest) =>
    forAll (fun pl s => setMark (8 * sl + pl) (some val) s) (bitList 8 ports)
      (updSched sl (fun c => { c with path := rest }) s)
  | _ => s

/-- R57, R215: what lands on S_n or later goes to the banks as they stand after that start. -/
def beforeStart (sl : Nat) (f : State → State) (s : State) : State :=
  if shed s || startDue sl s then s else f s

def execTstWriteArrive (slice : Fin 4) (s : State) : Host.Outcome State Fault Refusal :=
  atOnce (beforeStart slice.val (tstWriteArrive slice.val)) s
def execCompletionMarkWrite (slice : Fin 4) (s : State) : Host.Outcome State Fault Refusal :=
  atOnce (beforeStart slice.val (completionMark slice.val)) s

/-- R217: 4 or 8 aligned bytes at an offset of a slice's window; a front bank is not written; the
reserved offsets take nothing (R21). -/
def storeMgmtWrite (sl off : Nat) (wide : Bool) (v : Nat) (s : State) : State :=
  if 0x1800000 ≤ off then s
  else
    let n := if wide then 8 else 4
    let off := off / n * n
    let p := 8 * sl + off % 0xC00000 / 0x180000
    let b := off / 0xC00000
    if b = frontBank p s then orReg (Layer.LAYER_ERR sl) 0x10000 s
    else putStore (sl * 0x400000 + off / 8) (off % 8) n v s

/-- R217, R218: a MGMT read returns the stored bytes, of an uncorrectable word too; a single-bit
error (`ce`) is corrected and counted.  The reserved offsets read as 0 (R21). -/
def storeMgmtRead (sl off : Nat) (wide ce : Bool) (s : State) : State :=
  let n := if wide then 8 else 4
  if 0x1800000 ≤ off then putRead .renro (List.replicate n 0) s
  else
    let off := off / n * n
    let a := sl * 0x400000 + off / 8
    let s := if ce && !storeIsBad a s then bump (Layer.STORE_CE_COUNT sl) s else s
    putRead .renro (leBytes n (storeWord a s / 256 ^ (off % 8))) s

/-- STORE_MGMT_WRITE (R20, R217, R218): a MGMT access to the window. -/
def execStoreMgmtWrite (slice : Fin 4) (off : BitVec 25) (wide : Bool) (v : StoreAcc) (s : State) :
    Host.Outcome State Fault Refusal :=
  match v with
  | .write v => atOnce (storeMgmtWrite slice.val off.toNat wide v.toNat) s
  | .read ce => atOnce (storeMgmtRead slice.val off.toNat wide ce) s

/-- R218: a word is found uncorrectable: the bytes that stand in it then are a free value. -/
def upsetWord (a : Nat) (s : State) : State :=
  let (v, s) := fresh s
  putStoreWord a v.toNat { s with storeBad := kset false a true s.storeBad }

/-! ### The walk of scan-out (R222) -/

structure WalkAcc where
  kept : List Nat := []
  stop : Nat := 0
  skipped : Nat := 0
  first : Option Nat := none

/-- One entry of the walk of local port pl: kept or skipped. -/
def walkEntry (sl pl : Nat) (s : State) (a : WalkAcc) (e : Nat) : WalkAcc :=
  let g := segmentOf sl e s
  if 16383 < e ∨ ¬ segUsable sl g s ∨ g.port ≠ pl ∨ g.start < a.stop then
    { a with
      skipped := a.skipped + 1
      first := a.first.or (some e) }
  else
    { a with
      kept := a.kept ++ [e]
      stop := g.start + g.length }

def walkFirst (p : Nat) (s : State) : Nat := fld (Layer.PORT_SEG (pSl p) (pPl p)) 13 0 s
def walkCount (p : Nat) (s : State) : Nat := fld (Layer.PORT_SEG (pSl p) (pPl p)) 30 16 s
def segWalk (p : Nat) (s : State) : WalkAcc :=
  ((List.range (walkCount p s)).map (walkFirst p s + ·)).foldl (walkEntry (pSl p) (pPl p) s) {}

/-- R222: the walk is checked at CP_n. -/
def checkWalk (p : Nat) (s : State) : State :=
  let sl := pSl p
  let a := segWalk p s
  let s := wr (Layer.PORT_SKIPPED sl (pPl p)) a.skipped
    (updPort p (fun x => { x with kept := a.kept }) s)
  match a.first with
  | none => s
  | some e =>
    let s := orReg (Layer.INT_STATUS sl) 0x20000 (orReg (Layer.PORT_ERR sl (pPl p)) 1 s)
    logPer 0x0312 p oneSecond (p1 p ++ p2 (e % 65536)) s

/-! ### Colour stage (R223, R224) -/

/-- Coefficient of a matrix: halfword at byte offset o. -/
def matrixCoef (sl m o : Nat) (s : State) : Int :=
  sgn 16 (if o = 0x18 then rd (Seg.MATRIX_WGAIN sl m) s
    else rd (Seg.MATRIX sl m (o / 4)) s / 2 ^ (8 * (o % 4)))
def curveAt (sl t i : Nat) (s : State) : Int :=
  (rd (Seg.CURVE sl t (i / 2)) s / 2 ^ (16 * (i % 2)) % 65536 : Nat)
def clampCode (x : Int) : Int := clampI 0 65535 x

def ditherSeq : List Nat := [0, 8, 2, 10, 12, 4, 14, 6, 3, 11, 1, 9, 15, 7, 13, 5]
/-- Depths 12, 10 and 8 bits. -/
def ditherKeep : Nat → Nat
  | 1 => 4 | 2 => 6 | _ => 8

/-- The wire order of R, G, B (R220). -/
def wireOrder : Nat → List Nat
  | 0 => [0, 1, 2] | 1 => [0, 2, 1] | 2 => [1, 0, 2] | 3 => [1, 2, 0] | 4 => [2, 0, 1] | _ => [2, 1, 0]

/-- Lustre applies to a node of a port (R223, R226). -/
def lustreNode (p node : Nat) (s : State) : Nat :=
  rd (Layer.LUSTRE_NODE (pSl p) (pPl p) (node / 4)) s / 2 ^ (8 * (node % 4)) % 256
def lustreOn (sl : Nat) (s : State) : Bool := bit (Layer.LUSTRE_CTRL sl) 0 s
def lustreApplies (p : Nat) (g : Segment) (s : State) : Bool :=
  g.lustreEn && lustreOn (pSl p) s && (lustreNode p g.node s).testBit 7
def nodeGains (p node : Nat) (s : State) : Nat := rd (Layer.LUSTRE_GAIN (pSl p) (pPl p) node) s
/-- R228: the gains the frame in transmission uses. -/
def sentGains (p node : Nat) (s : State) : Nat :=
  let now := BitVec.ofNat 64 (nodeGains p node s)
  match (portAt p s).tx with
  | some x => (kget now node x.oldGains).toNat
  | none => now.toNat
def gainPart (g c : Nat) : Nat := g / 2 ^ (16 * c) % 65536

/-- R223: after the matrix: R, G, B, and W of a 64-bit port. -/
def matrixStage (p : Nat) (g : Segment) (inn : List Nat) (s : State) : List Int :=
  let sl := pSl p
  let i (c : Nat) : Int := (inn.getD c 0 : Nat)
  let v (r : Nat) : Int :=
    let m (c : Nat) := matrixCoef sl g.matrix (8 * r + 2 * c) s
    clampCode (Int.fdiv (m 0 * i 0 + m 1 * i 1 + m 2 * i 2 + m 3 * 0x8000 + 0x1000) 8192)
  if portW p s = 64 then
    let least := min (v 0) (min (v 1) (v 2))
    let (w, off) := if g.c4 then (i 3, 0) else (least, least)
    let gain := matrixCoef sl g.matrix 0x18 s
    [v 0 - off, v 1 - off, v 2 - off, clampCode (Int.fdiv (w * gain + 0x1000) 8192)]
  else [v 0, v 1, v 2]

/-- R223: one channel through Lustre, the curve and the dither. -/
def channelStage (p : Nat) (g : Segment) (k n c : Nat) (v : Int) (s : State) : Nat :=
  let v := if lustreApplies p g s then
      clampCode (Int.fdiv (v * (gainPart (sentGains p g.node s) c : Nat) + 0x4000) 32768) else v
  let q := if g.curveEn then
      let i := (v / 16).toNat
      let t0 := curveAt (pSl p) g.curve i s
      let t1 := curveAt (pSl p) g.curve (min 4095 (i + 1)) s
      t0 + Int.fdiv ((t1 - t0) * (v % 16) + 8) 16
    else min 65535 (2 * v - v / 32768)
  let q := q.toNat
  if g.dither = 0 then q
  else
    let kk := ditherKeep g.dither
    let t := ditherSeq.getD ((k + 5 * c + n) % 16) 0
    min 65535 (q + t * 2 ^ kk / 16) / 2 ^ kk * 2 ^ kk

/-- R223: the wire codes of pixel k of a kept segment in frame n, W last. -/
def wireCodes (p : Nat) (g : Segment) (k n : Nat) (inn : List Nat) (s : State) : List Nat :=
  let vs := matrixStage p g inn s
  let q := fun c => channelStage p g k n c (vs.getD c 0) s
  (wireOrder g.order).map q ++ (if portW p s = 64 then [q 3] else [])

/-- R218, R222, R223: what pixel k of the frame a port sends carries on the wire: 0 where no kept
entry covers it or an uncorrectable word touches it. -/
def sentPixel (p b k n : Nat) (bad : List Nat) (s : State) : List Nat :=
  let w := portW p s
  let chans := if w = 64 then 4 else 3
  let hit := (portAt p s).kept.find? fun e =>
    let g := segmentOf (pSl p) e s
    g.start ≤ k && k < g.start + g.length
  match hit with
  | none => List.replicate chans 0
  | some e =>
    let off := k * (w / 8)
    let a := bankWord p b
    let broken := bad.contains (a + off / 8) || bad.contains (a + (off + w / 8 - 1) / 8)
    if broken then List.replicate chans 0
    else
      let inn := (List.range chans).map fun c => storeHalf p b (off + 2 * c) s
      wireCodes p (segmentOf (pSl p) e s) k n inn s

end Sys2Proof.Machine
end

