-- ==== Sys2Proof/Machine/Wire.lean ====
section
/-! DEFINITION. The symbols of the trunk link (R231, R232, R234): the 8b/10b code groups and running
disparity of IEEE 802.3 Clause 36, which R231 names and does not print (PRESUMED, log entry 109). -/

namespace Sys2Proof.Machine

/-- A symbol of the link: a data byte, the HOP byte that follows K28.0, or a control symbol by the
byte of its name (K x.y is 32 y + x). -/
inductive Sym
  | d (b : Byte) | hop (b : Byte) | k (b : Byte)
  deriving DecidableEq, Repr

def k28_5 : Sym := .k 0xBC
def k27_7 : Sym := .k 0xFB
def k29_7 : Sym := .k 0xFD
def k28_0 : Sym := .k 0x1C
def k30_7 : Sym := .k 0xFE
/-- R232: the control symbols in use. -/
def controls : List Byte := [0xBC, 0xFB, 0xFD, 0x1C, 0xFE]

def dataSyms (bs : List Byte) : List Sym := bs.map .d
/-- R239: the data bytes of a stretch of symbols, HOP and control symbols left out. -/
def dataBytes (l : List Sym) : List Byte := l.filterMap fun
  | .d b => some b
  | _ => none

/-! ### Code groups (R231) -/

/-- abcdei of D.x sent at negative running disparity, by x. -/
def dataSix : List Nat :=
  [39, 29, 45, 49, 53, 41, 25, 56, 57, 37, 21, 52, 13, 44, 28, 23]
  ++ [27, 35, 19, 50, 11, 42, 26, 58, 51, 38, 22, 54, 14, 46, 30, 43]
/-- fghj of D.x.y and of K.x.y sent at negative running disparity, by y. -/
def dataFour : List Nat := [11, 9, 5, 12, 13, 10, 6, 14]
def ctrlFour : List Nat := [11, 6, 10, 12, 13, 5, 9, 7]

def onesOf (n v : Nat) : Nat := ((List.range n).filter v.testBit).length

/-- The running disparity (true: positive) after a block of n bits. -/
def dispAfter (n v : Nat) (rd : Bool) : Bool :=
  let c := onesOf n v
  if 2 * c > n ∨ (2 * c = n ∧ v = 2 ^ (n / 2) - 1) then true
  else if 2 * c < n ∨ (2 * c = n ∧ v = 2 ^ n - 2 ^ (n / 2)) then false
  else rd

/-- The block to send at a running disparity: `v` at the negative one, its complement at the
positive one where the two differ. -/
def pick (n v : Nat) (alt rd : Bool) : Nat := if rd && alt then 2 ^ n - 1 - v else v

/-- The code group of a symbol (a the highest bit, sent first) and the running disparity after it. -/
def encodeSym (rd : Bool) (y : Sym) : BitVec 10 × Bool :=
  let (ctrl, b) := match y with
    | .d b => (false, b.toNat)
    | .hop b => (false, b.toNat)
    | .k b => (true, b.toNat)
  let x := b % 32
  let h := b / 32
  let six := if ctrl && x == 28 then 15 else dataSix.getD x 0
  let v6 := pick 6 six (onesOf 6 six ≠ 3 || x == 7) rd
  let rd := dispAfter 6 v6 rd
  let alt7 := if rd then [11, 13, 14].contains x else [17, 18, 20].contains x
  let four := if ctrl then ctrlFour.getD h 0 else if h == 7 && alt7 then 7 else dataFour.getD h 0
  let v4 := pick 4 four (ctrl || onesOf 4 four ≠ 2 || h == 3) rd
  (BitVec.ofNat 10 (16 * v6 + v4), dispAfter 4 v4 rd)

/-- The code groups of consecutive symbols, and the running disparity after the last. -/
def encodeSyms (rd : Bool) : List Sym → List (BitVec 10) × Bool
  | [] => ([], rd)
  | y :: ys =>
    let (g, rd) := encodeSym rd y
    let (gs, rd) := encodeSyms rd ys
    (g :: gs, rd)

/-! ### Code errors (R232) -/

/-- Does a received code group stand for a symbol in use at a running disparity. -/
def goodGroup (rd : Bool) (g : BitVec 10) : Bool :=
  ((List.range 256).any fun b => (encodeSym rd (.d (BitVec.ofNat 8 b))).1 == g)
    || controls.any fun b => (encodeSym rd (.k b)).1 == g

/-- The running disparity after a received code group. -/
def rxDisp (rd : Bool) (g : BitVec 10) : Bool :=
  dispAfter 4 (g.toNat % 16) (dispAfter 6 (g.toNat / 16) rd)

/-- The places, from `i`, of the code errors in consecutive received code groups. -/
def codeErrors (rd : Bool) (i : Nat) : List (BitVec 10) → List Nat
  | [] => []
  | g :: gs =>
    let rest := codeErrors (rxDisp rd g) (i + 1) gs
    if goodGroup rd g then rest else i :: rest

/-- R235: 4 code errors within 64 received symbols. -/
def fourClose (es : List Nat) : Bool := (es.zip (es.drop 3)).any fun p => p.2 < p.1 + 64

/-! ### What stands between lines (R232, R234) -/

/-- Keep-alive: the idle pair K28.5 D16.2, repeated. -/
def idlePair : List Sym := [k28_5, .d 0x50]
/-- R234: the training sets TP1 and TP2. -/
def tp1 : List Sym := [k28_5, .d 0x4A, .d 0x4A, .d 0xB5, .d 0xB5, .d 0x00]
def tp2 : List Sym := [k28_5, .d 0x4A, .d 0x4A, .d 0xB5, .d 0xB5, .d 0x01]

end Sys2Proof.Machine
end

