-- ==== Sys2Proof/Machine/Trunk.lean ====
section
/-! DEFINITION. Trunk ports: link states (R234, R235, R26), telemetry (R257 to R260), latency probes
(R251 to R254), node configuration and commands (R247 to R250). -/

namespace Sys2Proof.Machine

def trunkAt (p : Nat) (s : State) : TrunkSt := kget {} p s.trunk
def setTrunk (p : Nat) (t : TrunkSt) (s : State) : State := { s with trunk := kset {} p t s.trunk }
def updTrunk (p : Nat) (f : TrunkSt → TrunkSt) (s : State) : State := setTrunk p (f (trunkAt p s)) s

def trkCtrl (p : Nat) : Reg := Trunk.TRK_CTRL (pSl p) (pPl p)
def trkStatus (p : Nat) : Reg := Trunk.TRK_STATUS (pSl p) (pPl p)
def trkErr (p : Nat) : Reg := Trunk.TRK_ERR (pSl p) (pPl p)
def trkInt (p : Nat) : Reg := Trunk.INT_STATUS (pSl p) (pPl p)

def linkState (p : Nat) (s : State) : Nat := fld (trkStatus p) 2 0 s
def setLink (p v : Nat) (s : State) : State := setFld (trkStatus p) 2 0 v s
def linkTrained (p : Nat) (s : State) : Bool := 2 ≤ linkState p s
def rxClock (p : Nat) (s : State) : Bool := bit (trkStatus p) 3 s

/-- TRK_STATUS.PROBE_BUSY (R251), live: a probe has left and no echo has come. -/
def probeBusy (p : Nat) (s : State) : Bool :=
  match (trunkAt p s).probe with
  | some b => b.leftAt ≤ s.clk
  | none => false

/-! ### Latency table (R254) -/

def nodeLat (p k : Nat) (s : State) : Nat := rd (Trunk.NODE_LAT (pSl p) (pPl p) k) s
def latValid (v : Nat) : Bool := v.testBit 31
def latTicks (v : Nat) : Nat := v % 2 ^ 24
/-- R254: FARTHEST_LAT holds the largest valid entry. -/
def putFarthest (p : Nat) (s : State) : State :=
  let far := upTo 64 (fun k m =>
    let v := nodeLat p k s
    if latValid v then max m (latTicks v) else m) 0
  wr (Trunk.FARTHEST_LAT (pSl p) (pPl p)) far s

/-- Bytes of a packet of the porch (R245, R246). -/
def PorchItem.size : PorchItem → Nat
  | .probe _ => 4
  | .noProbe => 4
  | .cmd bs => bs.length
  | .cfg .. => 19

/-- The raster line that porch line i is: the V_BP lines, then the V_FP lines (R247). -/
def porchRow (v i : Nat) : Nat := if i < rBp v then rSync v + i else blankLine v + (i - rBp v)

/-- The packets of a porch line from an instant on, one symbol per byte: each that has left by now
holds the latency it took with it (R248). -/
def markLeft (lat : Nat → Nat) (now : Nat) : Nat → List PorchItem → List PorchItem
  | _, [] => []
  | at_, i :: is =>
    (match i with
      | .cfg k c ch none => .cfg k c ch (if at_ ≤ now then some (lat k) else none)
      | _ => i) :: markLeft lat now (at_ + i.size * trkClk) is

/-- R248: what has left of the frame a port sends keeps the latencies it was sent with. -/
def keepLeft (p : Nat) (s : State) : State :=
  let (h, v, w) := rasNow p s
  updPort p (fun x => { x with tx := x.tx.map fun t =>
    { t with porch := t.porch.mapIdx fun i l =>
        markLeft (fun k => nodeLat p k s) s.clk (t.startAt + porchRow v i * lineLen h w + slotLen) l } }) s

/-- An entry of the latency table takes a value. -/
def setLat (p k v : Nat) (s : State) : State :=
  putFarthest p (wr (Trunk.NODE_LAT (pSl p) (pPl p) k) v (keepLeft p s))
def dropLat (p k : Nat) (s : State) : State :=
  wr (Trunk.NODE_LAT (pSl p) (pPl p) k) (nodeLat p k s % 2 ^ 31)
    (updTrunk p (fun t => { t with outliers := kset 0 k 0 t.outliers }) s)
/-- R254: VALID is cleared in every entry of the port. -/
def dropLats (p : Nat) (s : State) : State := putFarthest p (upTo 64 (dropLat p) (keepLeft p s))

/-! ### Link states (R235) -/

/-- What a trained link reports for a mode of SCAN_CTRL. -/
def linkOfMode : Nat → Nat
  | 1 => 2 | 2 => 3 | _ => 4
def appliedMode (p : Nat) (s : State) : Nat := fld (Scan.SCAN_CTRL (pSl p) (pPl p)) 1 0 s
/-- R450: a port of a trial leaves its recorded mode: the present second is no healthy one. -/
def noteTrial (s : State) : State :=
  if s.upd.trialModes.all fun m => appliedMode m.1 s == m.2 then s
  else { s with upd := { s.upd with broken := true } }
/-- A trained link follows the applied mode. -/
def followMode (p : Nat) (s : State) : State :=
  if linkTrained p s then setLink p (linkOfMode (appliedMode p s)) s else s

/-- TRAINING starts: TP1 is sent (R234). -/
def startTraining (p : Nat) (s : State) : State :=
  updTrunk p (fun t =>
    { t with
      trainAt := s.clk
      retryAt := none
      goodSets := 0
      sawTp2 := false }) (setLink p 1 s)

/-- TRUNK_ENABLE (R235). -/
def trunkEnable (p : Nat) (s : State) : State :=
  if bit (trkCtrl p) 0 s then s
  else
    let s := setBit (trkCtrl p) 0 true s
    if linkState p s = 0 then startTraining p s else s

/-- The changed nodes whose CFG packets stand in porch lines of a frame that an instant cuts. -/
def unsentCfg (p now : Nat) (t : TxFrame) (s : State) : List Nat :=
  let (h, v, w) := rasNow p s
  (t.porch.mapIdx fun i l =>
    if now < t.startAt + (porchRow v i + 1) * lineLen h w then l.filterMap fun
      | .cfg k _ true _ => some k
      | _ => none
    else []).flatten

/-- The transmitter stops sending frames.  Of a frame cut short, the changed entries not sent wait for
the next frame (R247), and a probe that has not left was never outstanding (R251).  The cut frame is
one of the three of each command it was to carry (DESIGN CHOICE, log entry 110). -/
def cutFrame (p : Nat) (s : State) : State :=
  match (portAt p s).tx with
  | none => s
  | some x =>
    let back := unsentCfg p s.clk x s
    updPort p (fun y => { y with tx := none }) (updTrunk p (fun t =>
      let unsent : Bool := match t.probe with
        | some b => s.clk < b.leftAt
        | none => false
      { t with
        cfgPend := (List.range 64).filter fun k => back.contains k || t.cfgPend.contains k
        cfgDoneAt := if back.isEmpty then t.cfgDoneAt else none
        lastProbed := if unsent then (t.lastProbed + 63) % 64 else t.lastProbed
        probe := if unsent then none else t.probe }) s)

/-- R26: RX_SYNC is a receive status field: it keeps its value while the recovered clock is away. -/
def setSync (p : Nat) (v : Bool) (s : State) : State :=
  if rxClock p s then setBit (trkStatus p) 4 v s else s

/-- TRUNK_DISABLE (R235, R254): the transmitter goes idle and every latency loses VALID.  A probe that
has left stays outstanding until it is lost (R251). -/
def trunkDisable (p : Nat) (s : State) : State :=
  let s := setSync p false (setLink p 0 (setBit (trkCtrl p) 0 false s))
  dropLats p (cutFrame p (updTrunk p (fun t => { t with retryAt := none }) s))

def tenMs : Nat := realNs 10000000

/-- R234: training sets are received; the port's hop is trained after 64 consecutive good ones, with
TP2 seen. -/
def TrunkSt.trained (t : TrunkSt) : Bool := 64 ≤ t.goodSets && t.sawTp2
def TrunkSt.hears (t : TrunkSt) : List TrainSet → TrunkSt
  | [] => t
  | x :: xs =>
    if t.trained then t
    else match x with
    | .bad => TrunkSt.hears { t with goodSets := 0 } xs
    | .tp1 => TrunkSt.hears { t with goodSets := t.goodSets + 1 } xs
    | .tp2 =>
      TrunkSt.hears
        { t with
          goodSets := t.goodSets + 1
          sawTp2 := true } xs

/-- Sets arrive: the recovered clock is there, and a good set shows the receiver aligned. -/
def hearSets (p : Nat) (sets : List TrainSet) (s : State) : State :=
  if sets.isEmpty then s
  else
    let s := updTrunk p (fun t => t.hears sets) (setBit (trkStatus p) 3 true s)
    if (trunkAt p s).goodSets = 0 then s else setBit (trkStatus p) 4 true s

/-- R234: 64 TP2 sets as sent. -/
def tp2Time : Nat := 64 * tp2.length * trkClk

/-- LINK_UP (R235): R234 completes. -/
def linkUp (p : Nat) (s : State) : State :=
  let s := setLink p (linkOfMode (appliedMode p s)) s
  let s := setBit (trkStatus p) 3 true (setBit (trkStatus p) 4 true s)
  let s := orReg (trkInt p) 1 (bump (Trunk.TRAIN_COUNT (pSl p) (pPl p)) s)
  logEv 0x0601 p [] s

/-- TRAIN_FAIL (R235): 10 ms without completing. -/
def trainFail (p : Nat) (s : State) : State :=
  let s := orReg (trkErr p) 1 (setLink p 0 s)
  let s := updTrunk p (fun t => { t with retryAt := some (s.clk + 10 * tenMs) }) s
  logPer 0x0603 p oneMinute [] s

/-- TRAIN_RETRY (R235). -/
def trainRetry (p : Nat) (s : State) : State :=
  if bit (trkCtrl p) 0 s ∧ linkState p s = 0 then startTraining p s
  else updTrunk p (fun t => { t with retryAt := none }) s

/-- R235: a trained link drops to TRAINING; causes: 0 code errors, which are a loss of sync (R263),
1 RX_CLK_PRESENT, which holds every receive status field (R26). -/
def linkDrop (p cause : Nat) (s : State) : State :=
  let s := setSync p false (startTraining p s)
  let s := orReg (trkInt p) 2 (orReg (trkErr p) 2 s)
  let s := bump (Trunk.LINK_DOWN_COUNT (pSl p) (pPl p)) s
  logEv 0x0602 p (p1 cause) (dropLats p (cutFrame p s))

/-- LINK_DOWN (R232, R235): consecutive code groups are received; the code errors among them count,
and 4 of them within 64 symbols drop a trained link.  Without the recovered clock none are (R26). -/
def linkDown (p : Nat) (disp : Bool) (groups : List (BitVec 10)) (s : State) : State :=
  if !rxClock p s then s
  else
    let es := codeErrors disp 0 groups
    let s := bumpBy (Trunk.RX_CODE_ERRS (pSl p) (pPl p)) es.length s
    if linkTrained p s ∧ fourClose es then linkDrop p 0 s else s

/-- RX_CLK_LOSS (R26): detected 1.0 us after the recovered clock went away. -/
def rxClkLoss (p : Nat) (s : State) : State :=
  if !rxClock p s then s
  else
    let s := setBit (trkStatus p) 3 false s
    if linkTrained p s then linkDrop p 1 s else s

/-- RX_CLK_RETURN (R26): receive status changes again; a receiver in training has yet to align. -/
def rxClkReturn (p : Nat) (s : State) : State :=
  if rxClock p s then s
  else
    let s := setBit (trkStatus p) 3 true s
    if linkState p s = 1 then setSync p false s else s

def execTrunkEnable (p : Fin 32) (who : Req) (s : State) : Host.Outcome State Fault Refusal :=
  atOnce (landing who true (trunkEnable p.val)) s
def execTrunkDisable (p : Fin 32) (who : Req) (s : State) : Host.Outcome State Fault Refusal :=
  atOnce (landing who true (trunkDisable p.val)) s
/-- R234: with the sets that complete training the port sends its 64 TP2 and is trained, within 10 ms
of the start or not at all; sets that do not complete it are counted. -/
def execLinkUp (x : RxSets) (s : State) : Host.Outcome State Fault Refusal :=
  let p := x.port.val
  if linkState p s = 1 ∧ !shed s then
    if ((trunkAt p s).hears x.sets).trained ∧ s.clk + tp2Time ≤ (trunkAt p s).trainAt + tenMs then
      timed (fun s => hopClk (s.clk + tp2Time) (hearSets p x.sets s)) (linkUp p) s
    else atOnce (hearSets p x.sets) s
  else atOnce id s
def execTrainFail (p : Fin 32) (s : State) : Host.Outcome State Fault Refusal :=
  if linkState p.val s = 1 ∧ !shed s then
    timed (hopClk ((trunkAt p.val s).trainAt + tenMs)) (trainFail p.val) s
  else atOnce id s
def execTrainRetry (p : Fin 32) (s : State) : Host.Outcome State Fault Refusal :=
  match (trunkAt p.val s).retryAt with
  | some t => timed (hopClk t) (trainRetry p.val) s
  | none => atOnce id s
def execLinkDown (p : Fin 32) (x : RxGroups) (s : State) : Host.Outcome State Fault Refusal :=
  atOnce (unlessShed (linkDown p.val x.disp x.groups)) s
def execRxClkLoss (p : Fin 32) (s : State) : Host.Outcome State Fault Refusal :=
  atOnce (unlessShed (rxClkLoss p.val)) s
def execRxClkReturn (p : Fin 32) (s : State) : Host.Outcome State Fault Refusal :=
  atOnce (unlessShed (rxClkReturn p.val)) s

/-! ### Telemetry (R258, R259) -/

def telOf (p k : Nat) (s : State) : TelEntry := kget {} k (trunkAt p s).tel
def TelEntry.valid (e : TelEntry) : Bool := !e.bytes.isEmpty
/-- A little-endian field of a packet. -/
def TelEntry.field (e : TelEntry) (o n : Nat) : Nat := leNat ((e.bytes.drop o).take n)
def nodeSeen (p k : Nat) (s : State) : Bool := bit (Trunk.NODE_SEEN (pSl p) (pPl p)) k s
/-- R251: a node's telemetry is good. -/
def telGood (p k : Nat) (s : State) : Bool := (telOf p k s).valid && nodeSeen p k s

/-- The number of consecutive positions from 0 that satisfy a test. -/
def runFrom (f : Nat → Bool) : Nat → Nat → Nat
  | 0, k => k
  | n + 1, k => if f k then runFrom f n (k + 1) else k

/-- R259: NODE_COUNT follows NODE_SEEN; a change is logged. -/
def putNodeCount (p : Nat) (s : State) : State :=
  let old := fld (trkStatus p) 14 8 s
  let new := runFrom (fun k => nodeSeen p k s) 64 0
  if old = new then s
  else
    let s := orReg (trkInt p) 4 (setFld (trkStatus p) 14 8 new s)
    logEv 0x0604 p (p4 old ++ p4 new)
      { s with boot := { s.boot with countsAt := s.clk } }

/-- A good packet from position k is stored. -/
def storeTel (p k : Nat) (bytes : List Byte) (s : State) : State :=
  let old := telOf p k s
  let (frame, s) := match (sliceAt (pSl p) s).cpFrame with
    | some n => (n % 2 ^ 32, s)
    | none => let (f, s) := fresh s; (f.toNat % 2 ^ 32, s)
  let new : TelEntry := ⟨bytes, frame, true, s.clk⟩
  let s := updTrunk p (fun t => { t with tel := kset {} k new t.tel }) s
  let s := if old.valid ∧ old.field 0x28 8 ≠ new.field 0x28 8 then putFarthest p (dropLat p k (keepLeft p s)) else s
  let rose := fun i => (new.field 2 2).testBit i && !(old.field 2 2).testBit i
  let s := if rose 2 then logPerNode 0x0608 p k oneSecond (p1 k) s else s
  let s := if rose 1 then logPer 0x0609 p oneSecond [] s else s
  putNodeCount p (setBit (Trunk.NODE_SEEN (pSl p) (pPl p)) k true s)

/-- TELEMETRY_PACKET (R257 to R259): a 64-byte packet of TYPE 0x10; other TYPEs are ignored.  The
record of a bad CHECK carries the count of those suppressed (R488). -/
def telemetryPacket (p : Nat) (bytes : List Byte) (s : State) : State :=
  if !linkTrained p s ∨ !rxClock p s ∨ bytes.length ≠ 64 ∨ (bytes.headD 0).toNat ≠ 0x10 then s
  else if leNat (bytes.drop 60) ≠ crc32c (bytes.take 60) then
    logPerCounted 0x0606 p oneSecond (fun k => p4 (k - 1)) (bump (Trunk.TEL_CRC_ERRS (pSl p) (pPl p)) s)
  else
    let k := ((bytes.drop 1).headD 0).toNat
    if 64 ≤ k then s else storeTel p k bytes s
def execTelemetryPacket (p : Fin 32) (bytes : List Byte) (s : State) :
    Host.Outcome State Fault Refusal :=
  atOnce (unlessShed (telemetryPacket p.val bytes)) s

/-- R259: 16 frame periods, in 0.1 ns. -/
def sixteenPeriods (s : State) : Nat := 160 * periodNum s / periodDen s
/-- NODE_SEEN_EXPIRY (R259); no receive status changes without the recovered clock (R26). -/
def nodeSeenExpiry (p k : Nat) (s : State) : State :=
  putNodeCount p (setBit (Trunk.NODE_SEEN (pSl p) (pPl p)) k false s)
def execNodeSeenExpiry (p : Fin 32) (k : Fin 64) (s : State) : Host.Outcome State Fault Refusal :=
  if nodeSeen p.val k.val s ∧ rxClock p.val s ∧ !shed s then
    timed (fun s => hopClk ((telOf p.val k.val s).at_ + sixteenPeriods s + 1) s)
      (nodeSeenExpiry p.val k.val) s
  else atOnce id s

/-! ### The telemetry copy (R260) -/

/-- The 4,608 bytes of a copy. -/
def telSnapshot (p : Nat) (s : State) : List Byte :=
  ((List.range 64).flatMap fun k =>
    let e := telOf p k s
    if e.valid then e.bytes else List.replicate 64 0)
  ++ (List.range 64).flatMap fun k =>
    let e := telOf p k s
    p8 (e.frame + 2 ^ 32 * b2n e.valid + 2 ^ 33 * b2n e.fresh)

/-- The entries that a copy made stale. -/
def unfresh (m : KMap TelEntry) : KMap TelEntry := m.map fun p => (p.1, { p.2 with fresh := false })

/-- At CP_n a port with TEL_EN takes its snapshot. -/
def startTelCopy (p : Nat) (s : State) : State :=
  if bit (trkCtrl p) 2 s then
    let bytes := telSnapshot p s
    updTrunk p (fun t => { t with copy := some bytes, tel := unfresh t.tel }) s
  else s

def finishTelCopy (p : Nat) (s : State) : State :=
  match (trunkAt p s).copy with
  | none => s
  | some bytes =>
    let s := updTrunk p (fun t => { t with copy := none }) s
    let (ok, s) := ioWrite (0x80 + p) (rd (Trunk.TEL_BASE (pSl p) (pPl p)) s) bytes s
    if ok then s else logPer 0x0607 p oneSecond [] (bump (Trunk.TEL_DROPS (pSl p) (pPl p)) s)

/-- TELEMETRY_COPY_DONE (R260): the copies of the slice complete or drop, and line 45 pulses. -/
def telemetryCopyDone (sl : Nat) (s : State) : State :=
  let busy := (List.range 8).any fun pl => (trunkAt (8 * sl + pl) s).copy.isSome
  let s := upTo 8 (fun pl s => finishTelCopy (8 * sl + pl) s) s
  if busy then lineEdge sl 45 s else s
def execTelemetryCopyDone (slice : Fin 4) (s : State) : Host.Outcome State Fault Refusal :=
  atOnce (unlessShed (telemetryCopyDone slice.val)) s

/-! ### Probes (R251 to R254) -/

/-- The next node to probe: ascending from the last, wrapping, among the leading run of good ones. -/
def nextProbe (p : Nat) (s : State) : Option Nat :=
  let n := runFrom (fun k => telGood p k s) 64 0
  if n = 0 then none
  else
    let k := (trunkAt p s).lastProbed + 1
    some (if k < n then k else 0)

/-- R251: the probe outstanding is lost. -/
def loseProbe (p : Nat) (s : State) : State :=
  let s := updTrunk p (fun t => { t with probe := none }) s
  logPer 0x060A p oneMinute [] (bump (Trunk.PROBES_LOST (pSl p) (pPl p)) s)

/-- R253: L_k in ticks; none: the sample is discarded. -/
def latencyOf (p k rtt : Nat) (s : State) : Option Nat :=
  if (List.range (k + 1)).all fun j => (telOf p j s).valid then
    let before (o : Nat) : Int := (((List.range k).map fun j => (telOf p j s).field o 2).sum : Nat)
    let v : Int := rtt - ((telOf p k s).field 0x20 2 : Nat) - before 0x1E + before 0x1C
    if v < 0 then none else some (v / 2).toNat
  else none

/-- R254: a sample updates an entry. -/
def updateLat (p k x : Nat) (s : State) : State :=
  let old := nodeLat p k s
  let e := latTicks old
  let count (n : Nat) (s : State) := updTrunk p (fun t => { t with outliers := kset 0 k n t.outliers }) s
  let tol := fld (Trunk.PROBE_CFG (pSl p) (pPl p)) 7 0 s
  if !latValid old then count 0 (setLat p k (x % 2 ^ 24 + 2 ^ 31) s)
  else if ((x : Int) - e).natAbs ≤ tol then
    count 0 (setLat p k (((e : Int) + Int.tdiv ((x : Int) - e) 4).toNat + 2 ^ 31) s)
  else
    let n := kget 0 k (trunkAt p s).outliers + 1
    if n < 3 then count n s
    else
      let s := count 0 (setLat p k (x % 2 ^ 24 + 2 ^ 30 + 2 ^ 31) s)
      logEv 0x0605 p (p1 k ++ p4 e ++ p4 x) (orReg (trkInt p) 8 s)

/-- R335: after a planned switch, the first NODE_LAT[0] a twin-wired port measures: its difference
from the value loaded is added to HOP_SKEW, which the settings store keeps. -/
def hopSkewUpdate (p k x : Nat) (s : State) : State :=
  match k, kget 0 p s.red.skewWait with
  | 0, w + 1 =>
    let v := unsgn 24 (sgn 24 (rd (Red.HOP_SKEW p) s) + ((x : Int) - w))
    let s := wr (Red.HOP_SKEW p) v s
    { s with
      red := { s.red with skewWait := kset 0 p 0 s.red.skewWait }
      upd := { s.upd with cur := { s.upd.cur with stored := kset 0 (Red.HOP_SKEW p).addr (v + 1) s.upd.cur.stored }, urgent := true } }
  | _, _ => s

/-- ECHO_ARRIVAL (R251, R253): an echo with the measured round trip in 0.2 ns ticks. -/
def echoArrival (p rtt : Nat) (s : State) : State :=
  match (trunkAt p s).probe with
  | none => orReg (trkErr p) 0x10 s
  | some b =>
    let s := updTrunk p (fun t => { t with probe := none }) s
    match latencyOf p b.node rtt s with
    | none => s
    | some x => hopSkewUpdate p b.node x (updateLat p b.node x s)

def echoLimit : Nat := realNs 200000
def execEchoArrival (p : Fin 32) (rtt : BitVec 20) (s : State) : Host.Outcome State Fault Refusal :=
  if !rxClock p.val s ∨ shed s then atOnce id s
  else match (trunkAt p.val s).probe with
    | some b => timed (hopClk (b.leftAt + 2 * rtt.toNat)) (fun s =>
        if echoLimit < 2 * rtt.toNat then orReg (trkErr p.val) 0x10 (loseProbe p.val s)
        else echoArrival p.val rtt.toNat s) s
    | none => atOnce (echoArrival p.val rtt.toNat) s

/-- PROBE_LOST (R251): 200 us after departure. -/
def execProbeLost (p : Fin 32) (s : State) : Host.Outcome State Fault Refusal :=
  match (trunkAt p.val s).probe with
  | some b => timed (hopClk (b.leftAt + echoLimit)) (loseProbe p.val) s
  | none => atOnce id s

/-! ### Commands (R249) -/

/-- CMD_PUSH: CMD_DATA joins the queue with the next SEQ. -/
def cmdPush (p : Nat) (s : State) : State :=
  let sl := pSl p
  let pl := pPl p
  let q := (trunkAt p s).cmds
  if 16 ≤ q.length then orReg (trkErr p) 4 s
  else
    let d := (List.range 8).flatMap fun i => p4 (rd (Trunk.CMD_DATA sl pl i) s)
    let seq := fld (Trunk.CMD_STATUS sl pl) 31 16 s
    let pkt := p1 2 ++ d.take 1 ++ p1 31 ++ (d.drop 1).take 1 ++ p2 seq ++ d.drop 4
    wr (Trunk.CMD_STATUS sl pl) (q.length + 1 + 65536 * ((seq + 1) % 65536))
      (updTrunk p (fun t => { t with cmds := q ++ [(3, pkt)] }) s)
def execCmdPush (p : Fin 32) (who : Req) (s : State) : Host.Outcome State Fault Refusal :=
  atOnce (landing who true (cmdPush p.val)) s

/-! ### The porch (R247, R248) -/

def nodeCfg (p k : Nat) (s : State) : Nat := rd (Trunk.NODE_CFG (pSl p) (pPl p) k) s
def cfgEnabled (p k : Nat) (s : State) : Bool := (nodeCfg p k s).testBit 31

/-- R246, R248: the CFG packet of a node, of its NODE_CFG and NODE_LAT values. -/
def cfgPacket (k c l : Nat) : List Byte :=
  p1 1 ++ p1 k ++ p1 16 ++ p4 (bitsOf c 17 0) ++ p4 (bitsOf c 50 32) ++ p4 (latTicks l)
    ++ p4 (b2n (c.testBit 31) + 2 * b2n (latValid l))

/-- R246, R247: the symbols of a packet as it leaves: CORR is the latency at that moment (R248), and
the probe's K30.7 follows it at once. -/
def PorchItem.syms (p : Nat) (s : State) : PorchItem → List Sym
  | .probe k => dataSyms (p1 4 ++ p1 k ++ p1 0) ++ [k30_7]
  | .noProbe => dataSyms (List.replicate 4 0)
  | .cmd bs => dataSyms bs
  | .cfg k c _ l => dataSyms (cfgPacket k c (l.getD (nodeLat p k s)))

/-- A porch being filled: the full lines, the line in progress and its bytes, the lines that follow,
the bytes of a line. -/
structure Porch where
  lines : List (List PorchItem)
  cur : List PorchItem
  used : Nat
  more : Nat
  cap : Nat

/-- R245: a packet goes whole into the rest of an area, or into the next one. -/
def Porch.put (i : PorchItem) (q : Porch) : Option Porch :=
  if q.used + i.size ≤ q.cap then some { q with cur := q.cur ++ [i], used := q.used + i.size }
  else if q.more = 0 ∨ q.cap < i.size then none
  else some { q with
    lines := q.lines ++ [q.cur]
    cur := [i]
    used := i.size
    more := q.more - 1 }

/-- Packets by key, in order: the porch and the keys placed. -/
def Porch.putAll (pkt : Nat → PorchItem) (keys : List Nat) (q : Porch) : Porch × List Nat :=
  keys.foldl (fun a k =>
    match a.1.put (pkt k) with
    | some q => (q, a.2 ++ [k])
    | none => a) (q, [])

/-- The enabled nodes in ascending order from after `last`, wrapping, but for those served. -/
def cfgRotation (p last : Nat) (served : List Nat) (s : State) : List Nat :=
  ((List.range 64).map fun i => (last + 1 + i) % 64).filter fun k =>
    cfgEnabled p k s && !served.contains k

/-- R247: the porch of the frame a port starts; `vfp` says whether the frame has V_FP lines.  Its
NODE_CFG values are those of CP_n (R248). -/
def fillPorch (p : Nat) (vfp : Bool) (startAt : Nat) (probe : Option Nat) (s : State) :
    List (List PorchItem) × State :=
  let (h, v, w) := rasNow p s
  let t := trunkAt p s
  let mark : PorchItem := match probe with
    | some k => .probe k
    | none => .noProbe
  let lines := rBp v + (if vfp then rFp v else 0)
  let q : Porch := ⟨[], [mark], mark.size, lines - 1, 6 * (hTotal h w - 2)⟩
  let (q, sent) := q.putAll (fun i => .cmd (t.cmds.getD i (0, [])).2) (List.range t.cmds.length)
  let (q, changed) := q.putAll (fun k => .cfg k (nodeCfg p k s) true none) t.cfgPend
  let closing := startAt + (porchRow v q.lines.length + 1) * lineLen h w
  let (q, turn) := q.putAll (fun k => .cfg k (nodeCfg p k s) false none) (cfgRotation p t.cfgNext changed s)
  let cmds := (t.cmds.mapIdx fun i c => if sent.contains i then (c.1 - 1, c.2) else c).filter fun c =>
    0 < c.1
  let rest := t.cfgPend.filter fun k => !changed.contains k
  let t' := { t with
    cmds := cmds
    cfgPend := rest
    cfgDoneAt := if rest.isEmpty ∧ ¬ t.cfgPend.isEmpty then some closing else t.cfgDoneAt
    cfgNext := turn.getLast?.getD t.cfgNext }
  let s := setFld (Trunk.CMD_STATUS (pSl p) (pPl p)) 4 0 cmds.length (setTrunk p t' s)
  (q.lines ++ [q.cur], s)

/-- TRK_STATUS.CFG_PENDING (R247), live. -/
def cfgPending (p : Nat) (s : State) : Bool :=
  !(trunkAt p s).cfgPend.isEmpty ||
    (match (trunkAt p s).cfgDoneAt with | some t => s.clk < t | none => false)

/-- R247: an applied NODE_CFG write is a change to send. -/
def cfgChanged (p k : Nat) (s : State) : State :=
  updTrunk p (fun t => { t with
    cfgPend := (List.range 64).filter fun j => j == k || t.cfgPend.contains j }) s

/-- R250: do the ATTR packets of the enabled nodes fit the packet channels of the active lines. -/
def attrOver (p : Nat) (s : State) : Bool :=
  let (h, v, _) := rasNow p s
  let n := ((List.range 64).filter fun k => cfgEnabled p k s).length
  6 * (rFp h - 1) / 11 * rAct v < n

end Sys2Proof.Machine
end

