-- ==== Sys2Proof/Machine/Lustre.lean ====
section
/-! DEFINITION. Lustre (R226 to R228): telemetry into per-node gains, at each commit point. -/

namespace Sys2Proof.Machine

/-- R227: the instant after which telemetry counts at CP_n; none: any telemetry does. -/
def staleBound (sl n : Nat) (s : State) : Option Nat :=
  let k := max 1 (fld (Layer.LUSTRE_CTRL sl) 11 8 s)
  ((sliceAt sl s).cpTimes.find? fun p => p.1 + k ≤ n).map Prod.snd

/-- R227: the packet a node is evaluated from. -/
def lustrePacket (p k n : Nat) (s : State) : Option TelEntry :=
  let e := telOf p k s
  if !e.valid then none
  else match staleBound (pSl p) n s with
    | none => some e
    | some t => if t < e.at_ then some e else none

/-- The slope of channel c of a profile. -/
def profSlope (sl f c : Nat) (s : State) : Int :=
  sgn 16 (if c < 2 then rd (Layer.PROF_SLOPE_RG sl f) s / 2 ^ (16 * c)
    else rd (Layer.PROF_SLOPE_BW sl f) s / 2 ^ (16 * (c - 2)))

/-- R227: the new gain of a channel. -/
def newGain (sl f c : Nat) (x : Int) (g : Nat) (s : State) : Nat :=
  let gmin : Int := fld (Layer.PROF_LIMIT sl f) 15 0 s
  let gmax : Int := fld (Layer.PROF_LIMIT sl f) 31 16 s
  let step : Int := fld (Layer.PROF_STEP sl f) 15 0 s
  let t := 0x8000 + Int.fdiv (profSlope sl f c s * (x - sgn 16 (rd (Layer.PROF_XREF sl f) s)) + 256) 512
  let t := min (max t gmin) gmax
  ((g : Int) + min (max (t - g) (-step)) step).toNat

/-- One word of four gains. -/
def packGains (f : Nat → Nat) : Nat := f 0 + 2 ^ 16 * f 1 + 2 ^ 32 * f 2 + 2 ^ 48 * f 3

/-- The selected field of a packet (R226). -/
def lustreInput (sl f : Nat) (e : TelEntry) (s : State) : Int :=
  sgn 16 (e.field (if bit (Layer.PROF_SOURCE sl f) 0 s then 0x0E else 0x0C) 2)

def putGains (p k g : Nat) (s : State) : State := wr (Layer.LUSTRE_GAIN (pSl p) (pPl p) k) g s
def staleReg (p : Nat) : Reg := Layer.LUSTRE_STALE (pSl p) (pPl p)

/-- R227: the gains of a node with a packet. -/
def lustreStep (p k : Nat) (e : TelEntry) (s : State) : State :=
  let sl := pSl p
  let f := lustreNode p k s % 64
  let x := lustreInput sl f e s
  let old := nodeGains p k s
  let new := packGains fun c => newGain sl f c x (gainPart old c) s
  let s := setBit (staleReg p) k false (putGains p k new s)
  let lim := fld (Layer.PROF_LIMIT sl f) 15 0 s
  let top := fld (Layer.PROF_LIMIT sl f) 31 16 s
  if (List.range 4).any fun c => gainPart new c == lim || gainPart new c == top then
    logPerNode 0x0315 p k oneMinute (p1 p ++ p1 k ++ p8 new) s
  else s

/-- R226, R227: a node at CP_n: disabled, stale, or evaluated. -/
def lustreOne (p n k : Nat) (s : State) : State :=
  if !(lustreNode p k s).testBit 7 then
    setBit (staleReg p) k false (putGains p k 0x8000800080008000 s)
  else if !lustreOn (pSl p) s then s
  else match lustrePacket p k n s with
    | none => setBit (staleReg p) k true s
    | some e => lustreStep p k e s

/-- A port's nodes; what is stale is logged. -/
def lustrePort (p n : Nat) (s : State) : State :=
  let s := upTo 64 (lustreOne p n) s
  let m := rd (staleReg p) s
  if lustreOn (pSl p) s ∧ m ≠ 0 then
    logPer 0x0314 p oneSecond (p1 p ++ p8 m) (orReg (Layer.INT_STATUS (pSl p)) 0x80000 s)
  else s

/-- Nodes of a port whose gains differ between two states. -/
def gainsChanged (p : Nat) (o s : State) : List Nat :=
  (List.range 64).filter fun k => nodeGains p k o ≠ nodeGains p k s

/-- R228: 8 ns for each enabled node. -/
def evalTime (sl : Nat) (s : State) : Nat :=
  80 * ((List.range 512).filter fun i => (lustreNode (8 * sl + i / 64) (i % 64) s).testBit 7).length

/-- R228: S_n comes before the evaluation ends. -/
def evalLate (sl : Nat) (s : State) : Bool :=
  edgeAt trkClk (frameT s.tl.next s) s < s.clk + evalTime sl s

/-- Gains of a port's nodes as they were in state o, where they have changed since; an older value
that a frame still uses stays. -/
def keepGains (p : Nat) (o s : State) (kept : KMap Word) : KMap Word :=
  (List.range 64).filterMap fun k =>
    match kept.find? fun q => q.1 == k with
    | some q => some q
    | none => if nodeGains p k o ≠ nodeGains p k s then some (k, BitVec.ofNat 64 (nodeGains p k o)) else none

/-- R227, R228: the evaluation at CP_n.  New gains apply from the first pixel of frame n: a frame
still being sent keeps the gains it has; with an evaluation that ends too late frame n does. -/
def lustre (sl n : Nat) (o : State) : State :=
  let s := upTo 8 (fun pl s => lustrePort (8 * sl + pl) n s) o
  let late := lustreOn sl s && evalLate sl s
  let s := upTo 8 (fun pl s =>
    let p := 8 * sl + pl
    updPort p (fun x => { x with
      oldGains := if late then keepGains p o s [] else []
      tx := x.tx.map fun t => { t with oldGains := keepGains p o s t.oldGains } }) s) s
  if !lustreOn sl s then s
  else
    let stale := ((List.range 512).filter fun i => bit (staleReg (8 * sl + i / 64)) (i % 64) s).length
    let s := wr (Layer.LUSTRE_STATUS sl) (stale % 1024 + 65536 * b2n late) s
    if (List.range 8).any fun pl => !(gainsChanged (8 * sl + pl) o s).isEmpty then
      bump (Layer.LUSTRE_UPDATES sl) s
    else s

end Sys2Proof.Machine
end

