-- ==== Sys2Proof/Machine/Commit.lean ====
section
/-! DEFINITION. WIN writes and the commit point (R33 to R35, R46 to R56, R66, R490). -/

namespace Sys2Proof.Machine

/-! ### Arming (R33, R51) -/

/-- R51: a write that lands now waits for the commit point after the next; it is late up to
and including the commit point's own clock. -/
def inBezelNow (sl : Nat) (s : State) : Bool := cpAhead sl s && bezelInstant sl s ≤ s.clk
def countsLate (sl : Nat) (s : State) : Bool :=
  let c := sliceAt sl s
  bezelInstant sl s ≤ s.clk && s.clk ≤ cpInstant sl s
    && (cpAhead sl s || (c.frame.isSome && c.cpFrame == c.frame.map (· + 1)))

/-- R32, R230: the LATE_COUNT, the APPLIED_FRAME and the LATE_COMMIT flag of a WIN register's
block. -/
structure WinBlock where
  late : Reg
  applied : Reg
  int : Reg
  flag : Nat

def winBlock (f : Found) : WinBlock :=
  let sl := f.inst.headD 0
  let pl := f.inst.getD 1 0
  match f.blk with
  | .scan => ⟨Scan.LATE_COUNT sl pl, Scan.APPLIED_FRAME sl pl, Scan.INT_STATUS sl pl, 0x10⟩
  | .trunk => ⟨Trunk.LATE_COUNT sl pl, Trunk.APPLIED_FRAME sl pl, Trunk.INT_STATUS sl pl, 0x10⟩
  | _ => ⟨Layer.LATE_COUNT sl, Layer.APPLIED_FRAME sl, Layer.INT_STATUS sl, 0x100000⟩

/-- R32, R51, R67, R68: a late write is counted, flagged and logged; line 33 rises. -/
def noteLate (f : Found) (a : Nat) (s : State) : State :=
  let sl := f.inst.headD 0
  let b := winBlock f
  let off := a - winBase sl
  let s := orReg b.int b.flag (bump b.late (bump (Slc.SLC_LATE_TOTAL sl) s))
  let s := wr (Slc.SLC_LATE_LAST sl) (off + 2 ^ 31) s
  let s := logPerCounted 0x0303 sl oneSecond (fun k => p4 k ++ p4 off) s
  lineEdge sl 33 s

def armedAt (a : Nat) (s : State) : Option Armed := kget none a s.armed
def arm (a : Nat) (v : Option Armed) (s : State) : State := { s with armed := kset none a v s.armed }

/-- R33: the register at an address holds one armed value. -/
def armWin (f : Found) (a v : Nat) (s : State) : State :=
  arm a (some ⟨BitVec.ofNat 64 v, inBezelNow (f.inst.headD 0) s⟩) s

/-- A WIN write of one register lands. -/
def winLand (f : Found) (a v : Nat) (s : State) : State :=
  let t := armWin f a v s
  if countsLate (f.inst.headD 0) s then noteLate f a t else t

/-! ### The fit check (R46, R240) -/

/-- The value a register takes for the next frame: an armed value in time, else the one it holds. -/
def nextVal (r : Reg) (s : State) : Nat :=
  match armedAt r.addr s with
  | some a => if a.late then rd r s else a.val.toNat
  | none => rd r s
def armedInTime (r : Reg) (s : State) : Bool :=
  match armedAt r.addr s with
  | some a => !a.late
  | none => false

def fitRegs (p : Nat) : List Reg :=
  [Scan.RASTER_H (pSl p) (pPl p), Scan.RASTER_V (pSl p) (pPl p), Scan.SCAN_CTRL (pSl p) (pPl p),
   Layer.OUT_FMT (pSl p) (pPl p)]

/-- R46: an armed SCAN_CTRL write with LOW_DIV = 3 is discarded on its own. -/
def ctrlCheck (p : Nat) (s : State) : State :=
  let r := Scan.SCAN_CTRL (pSl p) (pPl p)
  if armedInTime r s ∧ bitsOf (nextVal r s) 5 4 = 3 then
    orReg (Scan.SCAN_ERR (pSl p) (pPl p)) 8 (arm r.addr none s)
  else s

/-- R46, R240: the fit rules on the values that would apply; a failure discards the port's writes. -/
def fitCheck (p : Nat) (s : State) : State :=
  let s := ctrlCheck p s
  if !(fitRegs p).any fun r => armedInTime r s then s
  else
    let h := nextVal (Scan.RASTER_H (pSl p) (pPl p)) s
    let v := nextVal (Scan.RASTER_V (pSl p) (pPl p)) s
    let w := wireBits (nextVal (Layer.OUT_FMT (pSl p) (pPl p)) s)
    let e := fitErrs p h v w s
    if e = 0 then s
    else
      let s := forAll (fun r s => arm r.addr none s) (fitRegs p) s
      let s := orReg (Scan.INT_STATUS (pSl p) (pPl p)) 0x40 (orReg (Scan.SCAN_ERR (pSl p) (pPl p)) e s)
      let s := if rasterMin h v w then s else orReg (trkErr p) 0x40 s
      logEv 0x0304 p [] s

/-! ### Applying (R34) -/

def inSlice (sl a : Nat) : Bool := winBase sl ≤ a && a < winBase sl + 0x100000

/-- The armed writes of a slice that apply now, by address. -/
def dueWrites (sl : Nat) (s : State) : List (Nat × Nat) :=
  s.armed.filterMap fun p => match p.2 with
    | some a => if inSlice sl p.1 && !a.late then some (p.1, a.val.toNat) else none
    | none => none

/-- One write applies to frame n. -/
def applyWin (n : Nat) (w : Nat × Nat) (s : State) : State :=
  match findReg w.1 with
  | none => s
  | some f =>
    let s := wr (f.reg w.1) w.2 (arm w.1 none s)
    let s := wr (winBlock f).applied (n % 2 ^ 32) s
    if f.blk = .trunk ∧ f.row.off = 0x100 then
      cfgChanged (8 * f.inst.headD 0 + f.inst.getD 1 0) (f.idx.headD 0) s
    else s

/-- The writes that landed late wait no longer than the next commit point. -/
def lateTurns (sl : Nat) (s : State) : State :=
  { s with armed := s.armed.map fun p => if inSlice sl p.1 then (p.1, lateOnTime p.2) else p }

/-! ### Checks at CP_n -/

/-- R54: the slice's PRESENT_DELAY is latched, or refused. -/
def latchDelay (sl : Nat) (s : State) : State :=
  let s := updSlice sl (fun c => { c with latchedPd := bit Time.FT_PD_COMMIT sl s }) s
  if !bit Time.FT_PD_COMMIT sl s then s
  else
    let s := setBit Time.FT_PD_COMMIT sl false s
    let v := rd (Time.FT_PD_SHADOW sl) s
    if 1 ≤ v ∧ v * periodDen s < 2 * periodNum s then wr (Time.FT_PD_ACTIVE sl) v s
    else logEv 0x0306 sl [] (orReg Time.FT_ERR (0x10 * 2 ^ sl) s)

/-- R56: the Facet of a port is too short. -/
def facetShort (p : Nat) (s : State) : Bool :=
  let d := rasterLen (rasterH p s) (rasterV p s) (portW p s)
  let far := fld (Trunk.FARTHEST_LAT (pSl p) (pPl p)) 23 0 s
  appliedMode p s ≠ 0 &&
    10 * rd (Time.FT_PD_ACTIVE (pSl p)) s < d + 2 * far + 10 * rd Time.FT_FACET_MARGIN s
def facetCheck (sl : Nat) (s : State) : State :=
  if (List.range 8).any fun pl => facetShort (8 * sl + pl) s then
    logPer 0x0305 sl oneSecond [] (orReg Time.FT_ERR (0x100 * 2 ^ sl) s)
  else s

/-- R69: RASTER_TIME. -/
def putRasterTime (p : Nat) (s : State) : State :=
  wr (Scan.RASTER_TIME (pSl p) (pPl p)) (ceilDiv (rasterLen (rasterH p s) (rasterV p s) (portW p s)) 10 % 2 ^ 32) s

/-- R490: does an applied write, by block, offset and indices, count as a change for a port. -/
def writeCounts (p : Nat) (s : State) (w : Nat × Nat) : Bool :=
  match findReg w.1 with
  | none => false
  | some f =>
    let kept := (portAt p s).kept.map fun e => segmentOf (pSl p) e s
    let pl := pPl p
    let i := f.idx.headD 0
    match f.blk with
    | .layer => (f.row.off == 0x4000 || f.row.off == 0x4004) && i == pl
    | .trunk => f.row.off == 0x400 && f.inst.getD 1 0 == pl
    | .seg =>
      if f.row.off = 0x80000 then
        walkFirst p s ≤ i && i < walkFirst p s + walkCount p s
      else if f.row.off = 0xE0000 then kept.any fun g => g.curveEn && g.curve == i
      else kept.any fun g => g.matrix == i
    | _ => false

/-- R490: a change that makes port p send REFRESH was applied at this commit point. -/
def portChanged (p : Nat) (ws : List (Nat × Nat)) (o s : State) : Bool :=
  ws.any (writeCounts p s)
    || (gainsChanged p o s).any fun k =>
      (portAt p s).kept.any fun e =>
        let g := segmentOf (pSl p) e s
        g.lustreEn && g.node == k

/-- R60, R62: the change is noted; with a change of mode to LOW_RATE the count starts here. -/
def noteChange (p : Nat) (ws : List (Nat × Nat)) (was : Nat) (o s : State) : State :=
  let c := portChanged p ws o s
  let enters := appliedMode p s = 1 ∧ was ≠ 1
  updPort p (fun x =>
    { x with
      changed := c
      changedLow := if enters then c else x.changedLow || c }) s

/-! ### The commit point (R48) -/

/-- R75: what sr.frame, sr.tn and sr.facet read from CP_n on. -/
def putCp (sl n : Nat) (s : State) : State :=
  let tn := frameT n s / 2 ^ 32
  updSlice sl (fun c =>
    { c with
      cpDone := true
      cpFrame := some n
      cpCnt := s.cnt
      cpTn := tn % 2 ^ 64
      cpFacet := (tn + rd (Time.FT_PD_ACTIVE sl) s) % 2 ^ 64
      cpTimes := (n, s.clk) :: c.cpTimes.take 63 }) s

/-- Everything that comes about at CP_n of a slice. -/
def commitAt (sl n : Nat) (s : State) : State :=
  let ports := (List.range 8).map (8 * sl + ·)
  let was := fun p => appliedMode p s
  let s := forAll fitCheck ports s
  let ws := dueWrites sl s
  let s := lateTurns sl (forAll (applyWin n) ws s)
  let s := layerSwitch sl (latchLayers sl n (latchDelay sl s))
  let s := forAll putRasterTime ports (forAll followMode ports s)
  let s := forAll checkWalk ports (facetCheck sl s)
  let o := s
  let s := lustre sl n s
  let s := forAll (fun p s => noteChange p ws (was p) o s) ports s
  let s := forAll startTelCopy ports s
  let s := putNextCp sl (putCp sl n s)
  lineEdge sl 32 (noteTrial s)

/-- COMMIT_POINT (R48). -/
def commitPoint (sl : Nat) (s : State) : State :=
  match (sliceAt sl s).frame with
  | none => s
  | some n => if cpAhead sl s then commitAt sl (n + 1) s else s

/-- The commit point is due: a write that lands now comes after it (R51, R52). -/
def commitIfDue (sl : Nat) (s : State) : State :=
  if cpAhead sl s && cpInstant sl s ≤ s.clk then commitPoint sl s else s

def execCommitPoint (slice : Fin 4) (s : State) : Host.Outcome State Fault Refusal :=
  if cpAhead slice.val s ∧ !shed s then
    timed (hopClk (cpInstant slice.val s)) (commitPoint slice.val) s
  else atOnce id s

/-! ### Raster events (R66, R67) -/

/-- An event of a port: its INT_STATUS bit and its scheduler line. -/
def scanEvent (p i : Nat) (s : State) : State :=
  let s := orReg (Scan.INT_STATUS (pSl p) (pPl p)) (2 ^ i) s
  if i < 4 ∧ bit (Scan.EV_ENABLE (pSl p) (pPl p)) i s then lineEdge (pSl p) (4 * pPl p + i) s else s

/-- A raster of the port is in progress. -/
def rastering (p : Nat) (s : State) : Bool :=
  (portAt p s).ras.isSome && !shed s

def vblank (p : Nat) (s : State) : State :=
  scanEvent p 0 (updPort p (fun x => { x with vblankDone := true }) s)
/-- VBLANK_START. -/
def execVblankStart (p : Fin 32) (s : State) : Host.Outcome State Fault Refusal :=
  if rastering p.val s ∧ !(portAt p.val s).vblankDone then
    timed (fun s => hopClk (lineAt p.val (blankLine (rasNow p.val s).2.1) s) s) (vblank p.val) s
  else atOnce id s

def matchLine (p : Nat) (s : State) : Nat := fld (Scan.LINE_CMP (pSl p) (pPl p)) 13 0 s
def lineMatch (p : Nat) (s : State) : State :=
  scanEvent p 1 (updPort p (fun x => { x with matchDone := true }) s)
/-- LINE_MATCH: never for a line the raster has not. -/
def execLineMatch (p : Fin 32) (s : State) : Host.Outcome State Fault Refusal :=
  if rastering p.val s ∧ !(portAt p.val s).matchDone ∧ matchLine p.val s < vTotal (rasNow p.val s).2.1 then
    timed (fun s => hopClk (lineAt p.val (matchLine p.val s) s) s) (lineMatch p.val) s
  else atOnce id s

end Sys2Proof.Machine
end

