-- ==== Sys2Proof/Machine/Gates.lean ====
section
/-! DEFINITION. Ethernet ports and their IEEE 802.1Qbv gate lists (R299): where a list stands, and
what a time step does to it (R279). -/

namespace Sys2Proof.Machine

def netPort (p : Nat) (s : State) : NetPort := kget {} p s.net.ports
def setNetPort (p : Nat) (x : NetPort) (s : State) : State :=
  { s with net := { s.net with ports := kset {} p x s.net.ports } }
def updNetPort (p : Nat) (f : NetPort → NetPort) (s : State) : State := setNetPort p (f (netPort p s)) s

def operBank (p : Nat) (s : State) : Nat := fld (Net.GCL_STATUS p) 0 0 s
/-- OPER_BASE and OPER_CYCLE, in 2^-32 ns; the number of entries. -/
def operBase (p : Nat) (s : State) : Nat :=
  nsUnits (rd (Net.OPER_BASE_SEC p) s * 1000000000 + rd (Net.OPER_BASE_NS p) s)
def operCycle (p : Nat) (s : State) : Nat := nsUnits (rd (Net.OPER_CYCLE p) s)
def operLen (p : Nat) (s : State) : Nat := rd (Net.OPER_LEN p) s
def gclEntry (p i : Nat) (s : State) : Nat := rd (Net.GCL_ENTRY p (operBank p s) i) s
def gclGates (e : Nat) : Nat := e % 16
/-- An interval, in 2^-32 ns. -/
def gclInterval (e : Nat) : Nat := nsUnits (8 * (e / 16))

/-- R299: a list is running: ENABLE is 1 and a list has become operational since. -/
def gclRuns (p : Nat) (s : State) : Bool :=
  bit (Net.GCL_CTRL p) 0 s && (netPort p s).listed && rd (Net.OPER_CYCLE p) s ≠ 0 && operLen p s ≠ 0

/-- R299: the entries of a list of `len` entries in bank b, cut at the cycle's end: the gates and how long
they stand; the last holds to the end. -/
def gclWindows (p b cyc len : Nat) (s : State) : List (Nat × Nat) :=
  let e (i : Nat) := rd (Net.GCL_ENTRY p b i) s
  let start (i : Nat) := min cyc ((List.range i).map fun k => gclInterval (e k)).sum
  (List.range len).map fun i => (gclGates (e i), (if i + 1 = len then cyc else start (i + 1)) - start i)
/-- The operational list's. -/
def operWindows (p : Nat) (s : State) : List (Nat × Nat) :=
  gclWindows p (operBank p s) (operCycle p s) (operLen p s) s

/-- How long gate t stays open from the front of some windows; none: to their end.  A window cut away
whole closes nothing. -/
def openRun (t : Nat) : Nat → List (Nat × Nat) → Option Nat
  | _, [] => none
  | acc, (g, l) :: r => if g.testBit t ∨ l = 0 then openRun t (acc + l) r else some acc
/-- From window i on, round the cycle; none: the gate never closes. -/
def openFrom (t i : Nat) (ws : List (Nat × Nat)) : Option Nat := openRun t 0 (ws.drop i ++ ws.take i)

/-- An entry in force: its index and where in the cycle it ends. -/
structure GatePos where
  entry : Nat
  stop : Nat

/-- The entry at an offset of the cycle, from entry i on; n entries are left. -/
def posFrom (p off : Nat) (s : State) : Nat → Nat → Nat → GatePos
  | 0, i, _ => ⟨i, operCycle p s⟩
  | n + 1, i, acc =>
    let stop := min (acc + gclInterval (gclEntry p i s)) (operCycle p s)
    if n = 0 then ⟨i, operCycle p s⟩
    else if off < stop then ⟨i, stop⟩
    else posFrom p off s n (i + 1) stop

/-- The offset of a counter value in its cycle: base + k cycles, k any integer. -/
def cycleOff (p c : Nat) (s : State) : Nat :=
  (((c : Int) - operBase p s) % (operCycle p s : Int)).toNat
def gatePos (p c : Nat) (s : State) : GatePos := posFrom p (cycleOff p c s) s (operLen p s) 0 0
/-- The counter value of the first cycle boundary at or after c. -/
def cycleStart (p c : Nat) (s : State) : Nat :=
  let o := cycleOff p c s
  if o = 0 then c else c + (operCycle p s - o)

/-- The gates and the current entry, as the port and GCL_STATUS hold them. -/
def putGates (p entry : Nat) (s : State) : State :=
  setFld (Net.GCL_STATUS p) 13 8 entry
    (updNetPort p (fun x => { x with gates := gclGates (gclEntry p entry s) }) s)

/-- R279: at a time step the cycle is abandoned; the last entry's gates hold to the next boundary. -/
def gatesStep (p : Nat) (s : State) : State :=
  if !gclRuns p s then s
  else
    updNetPort p (fun x => { x with holdTo := some (cycleStart p s.cnt s) })
      (putGates p (operLen p s - 1) s)

end Sys2Proof.Machine
end

