-- ==== Sys2Proof/Machine/Time.lean ====
section
/-! DEFINITION. The time unit: snapshots, the servo, steps (R268 to R279), timed triggers (R280 to
R283), LTC and FRAME_IN (R284, R285), timestamp queues (R272, R273). -/

namespace Sys2Proof.Machine

def setTime (t : TimeSt) (s : State) : State := { s with time := t }
def updTime (f : TimeSt → TimeSt) (s : State) : State := setTime (f s.time) s

/-! ### Snapshot (R268) -/

/-- TIME_SNAP. -/
def timeSnap (s : State) : State :=
  wr Time.SNAP_SUB (nowSub s + 65536 * stepSeq s)
    (wr Time.SNAP_NS (nowNsec s) (wr Time.SNAP_SEC (nowSec s % 2 ^ 48) s))
def execTimeSnap (who : Req) (s : State) : Host.Outcome State Fault Refusal :=
  atOnce (landing who false timeSnap) s

/-! ### Servo states (R276) -/

def sUnset : Nat := 0
def sFreeRun : Nat := 1
def sAcquiring : Nat := 2
def sLocked : Nat := 3
def sHoldover : Nat := 4

def servoState (s : State) : Nat := fld Time.TIME_STATUS 2 0 s
def timeValid (s : State) : Bool := bit Time.TIME_STATUS 3 s
def servoEn (s : State) : Bool := bit Time.TIME_CTRL 0 s
def servoSrc (s : State) : Nat := fld Time.TIME_CTRL 2 1 s

/-- TIME_TRACEABLE, and FT_STATUS.FREE_RUN, as the state gives them. -/
def putDerived (s : State) : State :=
  let st := servoState s
  setBit Time.FT_STATUS 2 (st ≠ sAcquiring && st ≠ sLocked)
    (setBit Time.TIME_STATUS 4 (st == sLocked && bit Time.TIME_CTRL 4 s) s)

def setServo (st : Nat) (s : State) : State :=
  let old := servoState s
  let s := putDerived (setFld Time.TIME_STATUS 2 0 st s)
  let s := updTime (fun t => { t with lockRun := 0 }) s
  if old = st then s else orReg Time.INT_STATUS 1 s

/-- A LOCKED servo goes back to ACQUIRING. -/
def unlock (s : State) : State :=
  logEv 0x0203 noInst (p4 (rd Time.LAST_OFFSET s)) (setServo sAcquiring s)

/-! ### Triggers: what a step passes over (R279, R283) -/

def trigAt (j : Nat) (s : State) : TrigSt := kget {} j s.time.trig
/-- The instants of a trigger; ARMED reads 1 while an enabled trigger has instants to come. -/
def setTrig (j : Nat) (l : List Nat) (s : State) : State :=
  updTime (fun t => { t with trig := kset {} j ⟨l⟩ t.trig }) s
def trigEnabled (j : Nat) (s : State) : Bool := bit (Time.TRIG_CTRL j) 0 s
def trigMode (j : Nat) (s : State) : Nat := fld (Time.TRIG_CTRL j) 1 1 s
def trigPeriod (j : Nat) (s : State) : Nat := rd (Time.TRIG_PERIOD j) s
def syncArmed (j : Nat) (s : State) : State :=
  setBit (Time.TRIG_STATUS j) 0
    (trigEnabled j s && (trigMode j s = 1 || !(trigAt j s).next.isEmpty)) s

def trigStart (j : Nat) (s : State) : Nat :=
  rd (Time.TRIG_START_SEC j) s * 1000000000 + rd (Time.TRIG_START_NS j) s

/-- Instants missed are counted and logged. -/
def trigMissed (j k : Nat) (s : State) : State :=
  if k = 0 then s
  else
    let m := min 65535 (fld (Time.TRIG_STATUS j) 31 16 s + k)
    logPer 0x0208 j oneSecond (p1 j ++ p4 m) (setFld (Time.TRIG_STATUS j) 31 16 m s)

/-- R279: the instants of a trigger that a forward step passes over. -/
def trigForward (j : Nat) (s : State) : State :=
  if !trigEnabled j s then s
  else
    let l := (trigAt j s).next
    if trigMode j s = 0 ∧ trigPeriod j s ≠ 0 then
      match l with
      | [] => s
      | t :: _ =>
        if s.cnt < t then s
        else
          let p := nsUnits (trigPeriod j s)
          let k := (s.cnt - t) / p + 1
          syncArmed j (trigMissed j k (setTrig j [t + k * p] s))
    else
      let k := (l.filter (· ≤ s.cnt)).length
      syncArmed j (trigMissed j k (setTrig j (l.filter (s.cnt < ·)) s))

/-! ### Steps (R278, R279) -/

/-- R279: what stood before a step is kept, for values taken then. -/
def noteStep (cmd : Bool) (s : State) : State :=
  updTime (fun t => { t with steps := ⟨s.clk, s.cnt, stepSeq s, cmd⟩ :: t.steps.take 15 }) s

/-- A step to the counter value `new`; the source (0, 1: a command) and the ORIGIN of its writer. -/
def stepTo (new source origin : Nat) (s : State) : State :=
  let old := s.cnt
  let s := { noteStep (source < 2) s with cnt := new }
  let s := setFld Time.TIME_STATUS 11 8 ((stepSeq s + 1) % 16) s
  let s := orReg Time.INT_STATUS 2 (bump Time.STEP_COUNT s)
  let s := logBy origin 0x0201 noInst (p8 (old / 2 ^ 32) ++ p8 (new / 2 ^ 32) ++ p1 source) s
  let s := if old < new then upTo 8 trigForward (timelineForward s)
    else if new < old then timelineBackward ((old - new) / 2 ^ 32) s
    else s
  upTo 4 gatesStep s

/-- A step by d (2^-32 ns); one that would make the counter negative is ignored. -/
def stepBy (d : Int) (source origin : Nat) (s : State) : State :=
  let new := (s.cnt : Int) + d
  if new < 0 then orReg Time.TIME_ERR 2 s else stepTo new.toNat source origin s

def originOf : Req → Nat
  | .host => 2
  | .renro => 1

/-- R276: a step from LOCKED goes to ACQUIRING. -/
def afterStep (s : State) : State := if servoState s = sLocked then unlock s else s

/-- STEP_CMD_STEP (R278). -/
def stepCmdStep (who : Req) (s : State) : State :=
  let d := sgn 64 (rd Time.STEP_OFF s) * 2 ^ 32
  if (s.cnt : Int) + d < 0 then orReg Time.TIME_ERR 2 s
  else afterStep (stepBy d 0 (originOf who) s)
def execStepCmdStep (who : Req) (s : State) : Host.Outcome State Fault Refusal :=
  atOnce (landing who false (stepCmdStep who)) s

/-- STEP_CMD_SET (R276, R278): the time is set; UNSET is left. -/
def stepCmdSet (who : Req) (s : State) : State :=
  let ns := rd Time.SET_NS s
  if 1000000000 ≤ ns then orReg Time.TIME_ERR 2 s
  else
    let new := nsUnits (rd Time.SET_SEC s % 2 ^ 48 * 1000000000 + ns)
    let s := setBit Time.TIME_STATUS 3 true (stepTo new 1 (originOf who) s)
    if servoState s = sUnset then
      let s := updTime (fun t => { t with sampleAt := s.clk }) s
      setServo (if servoEn s && servoSrc s ≠ 0 then sAcquiring else sFreeRun) s
    else afterStep s
def execStepCmdSet (who : Req) (s : State) : Host.Outcome State Fault Refusal :=
  atOnce (landing who false (stepCmdSet who)) s

/-! ### The servo (R274 to R276) -/

def rateLimit (s : State) : Int := rd Time.RATE_LIMIT s
/-- A rate in 2^-32 ppb, floored to 1/16 ppb, as RATE_ACT and RATE_HOLD show it. -/
def rateReg (r : Int) : Nat := unsgn 32 (Int.fdiv r (2 ^ 28))
def lockThresh (s : State) : Nat := fld Time.LOCK_CFG 23 0 s * 2 ^ 16
def lockCount (s : State) : Nat := max 1 (fld Time.LOCK_CFG 31 24 s)

/-- R276: LOCK_COUNT small samples lock; 4 large ones, or one very large, unlock. -/
def lockLogic (o : Int) (s : State) : State :=
  let small := o.natAbs < lockThresh s
  let count (n : Nat) (s : State) := updTime (fun t => { t with lockRun := n }) s
  let run := s.time.lockRun + 1
  if servoState s = sAcquiring then
    if !small then count 0 s
    else if lockCount s ≤ run then logEv 0x0202 noInst [] (setServo sLocked s)
    else count run s
  else if servoState s = sLocked then
    if small then count 0 s
    else if 4 ≤ run ∨ 4 * lockThresh s ≤ o.natAbs then unlock s
    else count run s
  else s

/-- R274: the gains applied to a sample. -/
def slew (o : Int) (s : State) : State :=
  let lim := rateLimit s * 2 ^ 32
  let i := s.time.integ - (rd Time.SERVO_KI s : Nat) * o
  let i' := clampI (-lim) lim i
  let r := i' - (rd Time.SERVO_KP s : Nat) * o
  let r' := clampI (-lim) lim r
  let s := updTime (fun t => { t with integ := i' }) s
  let s := wr Time.RATE_HOLD (rateReg i') (wr Time.RATE_ACT (rateReg r') s)
  if i ≠ i' ∨ r ≠ r' then
    logPer 0x0206 noInst oneMinute [] (orReg Time.TIME_ERR 1 s)
  else s

/-- R276: a sample ends HOLDOVER. -/
def leaveHoldover (s : State) : State :=
  if servoState s = sHoldover then
    logEv 0x0205 noInst (p8 ((s.clk - s.time.holdAt) / 10) ++ p4 (rd Time.LAST_OFFSET s))
      (setServo sAcquiring s)
  else s

/-- R274: one sample o (2^-16 ns) of an enabled servo is processed. -/
def takeSample (o : Int) (s : State) : State :=
  let s := bump Time.SAMPLE_COUNT
    (wr Time.LAST_OFFSET (unsgn 32 (clampI (-2147483648) 2147483647 (Int.fdiv o 65536))) s)
  let s := leaveHoldover (updTime (fun t => { t with sampleAt := s.clk }) s)
  if !timeValid s || (bit Time.TIME_CTRL 3 s && rd Time.STEP_THRESH s * 65536 ≤ o.natAbs) then
    let was := servoState s
    let s := setBit Time.TIME_STATUS 3 true (stepBy (-o * 65536) 2 0 s)
    if was = sLocked then unlock s else setServo sAcquiring s
  else lockLogic o (slew o s)

/-- R278: a step command has landed on this clock. -/
def steppedNow (s : State) : Bool := s.time.steps.any fun x => x.cmd && x.clk == s.clk

/-- R274: a sample; one on the clock of a step command is discarded (R278). -/
def sample (o : Int) (s : State) : State := if steppedNow s then s else takeSample o s

/-- SERVO_SAMPLE (R274): taken with SERVO_EN = 1 and SRC = 1. -/
def servoSample (v : Nat) (s : State) : State :=
  if servoEn s ∧ servoSrc s = 1 then sample (sgn 64 v) s else s
def execServoSample (who : Req) (v : Word) (s : State) : Host.Outcome State Fault Refusal :=
  atOnce (landing who false (latching who Time.SERVO_SAMPLE (servoSample v.toNat))) s

/-- RATE_ACT = I (R276). -/
def holdRate (s : State) : State := wr Time.RATE_ACT (rateReg s.time.integ) s

/-- HOLDOVER_ENTER (R276): no sample for SERVO_TMO ms. -/
def holdoverEnter (s : State) : State :=
  let s := setServo sHoldover (holdRate (updTime (fun t => { t with holdAt := s.clk }) s))
  logEv 0x0204 noInst (p4 (rd Time.RATE_HOLD s)) s
def execHoldoverEnter (s : State) : Host.Outcome State Fault Refusal :=
  if servoState s = sAcquiring ∨ servoState s = sLocked then
    timed (fun s => hopClk (s.time.sampleAt + realNs (rd Time.SERVO_TMO s * 1000000)) s) holdoverEnter s
  else atOnce id s

/-- A write of TIME_CTRL (R276, R287): SRC 3 keeps the old SRC. -/
def timeCtrlWrite (v : Nat) (s : State) : State :=
  let bad := bitsOf v 2 1 = 3
  let v := if bad then putBits v 2 1 (servoSrc s) else v
  let s := wr Time.TIME_CTRL (v % 32) s
  let s := if bad then orReg Time.TIME_ERR 0x20 s else s
  let on := servoEn s && servoSrc s ≠ 0
  let st := servoState s
  if on ∧ st = sFreeRun then setServo sAcquiring (updTime (fun t => { t with sampleAt := s.clk }) s)
  else if ¬ on ∧ (st = sAcquiring ∨ st = sLocked ∨ st = sHoldover) then setServo sFreeRun (holdRate s)
  else putDerived s

/-! ### Triggers (R280 to R283) -/

/-- R282: does a trigger, about to be enabled with these fields, break a rule. -/
def trigBad (j v : Nat) (s : State) : Bool :=
  let per := trigPeriod j s
  (1 ≤ per && per < 100) || (1 ≤ per && per < 1000 && v.testBit 10)
    || (v.testBit 1 && periodNum s ≤ rd (Time.TRIG_START_NS j) s * periodDen s)
    || bitsOf v 13 10 = 0

/-- R282: the first instants of an enabled trigger, or its end in the past. -/
def trigFirst (j : Nat) (s : State) : State :=
  if trigMode j s = 1 then syncArmed j (setTrig j [] s)
  else
    let start := nsUnits (trigStart j s)
    let lim := s.cnt + nsUnits 100
    let per := nsUnits (trigPeriod j s)
    if per = 0 then
      if start < lim then
        let s := setBit (Time.TRIG_CTRL j) 0 false (setTrig j [] s)
        let s := orReg Time.INT_STATUS 4 (orReg (Time.TRIG_STATUS j) 2 s)
        logEv 0x0209 j [] (syncArmed j s)
      else syncArmed j (setTrig j [start] s)
    else syncArmed j (setTrig j [start + ceilDiv (lim - start) per * per] s)

/-- A write of TRIG_CTRL (R282, R283). -/
def trigCtrlWrite (j v : Nat) (s : State) : State :=
  let v := v &&& 0xFFFF3FF7
  let old := rd (Time.TRIG_CTRL j) s
  if old.testBit 0 then
    let s := if v / 2 = old / 2 then s else orReg Time.TIME_ERR 4 s
    if v.testBit 0 then s else syncArmed j (setTrig j [] (setBit (Time.TRIG_CTRL j) 0 false s))
  else if !v.testBit 0 then wr (Time.TRIG_CTRL j) v s
  else if trigBad j v s then orReg Time.TIME_ERR 4 (wr (Time.TRIG_CTRL j) (v - 1) s)
  else
    let s := wr (Time.TRIG_FIRED j) 0 (wr (Time.TRIG_CTRL j) v s)
    trigFirst j (setBit (Time.TRIG_STATUS j) 1 false s)

/-- TRIGGER_ENABLE (R282): a write of TRIG_CTRL with ENABLE = 1 and the fields of v. -/
def execTriggerEnable (j : Fin 8) (who : Req) (v : BitVec 32) (s : State) :
    Host.Outcome State Fault Refusal :=
  atOnce (landing who false (trigCtrlWrite j.val (v.toNat ||| 1))) s

/-- R281: a firing reaches every destination enabled. -/
def fireTo (j : Nat) (s : State) : State :=
  let c := rd (Time.TRIG_CTRL j) s
  let s := if c.testBit 10 then lineEdgeMask (bitsOf c 7 4) (35 + bitsOf c 9 8) s else s
  let adc (u : Nat) (s : State) : State :=
    { s with adc := { s.adc with conv := kupd {} u (fun x => { x with fired := true }) s.adc.conv } }
  let s := if c.testBit 11 then adc 0 s else s
  let s := if c.testBit 12 then adc 1 s else s
  if c.testBit 13 then { s with led := { s.led with refPending := true } } else s

/-- TRIGGER_FIRE (R280): the soonest instant; after COUNT firings the trigger is disabled. -/
def triggerFire (j : Nat) (s : State) : State :=
  match (trigAt j s).next with
  | [] => s
  | t :: rest =>
    let s := fireTo j (bump (Time.TRIG_FIRED j) s)
    let n := fld (Time.TRIG_CTRL j) 31 16 s
    if n ≠ 0 ∧ n ≤ rd (Time.TRIG_FIRED j) s then
      syncArmed j (setTrig j [] (setBit (Time.TRIG_CTRL j) 0 false s))
    else
      let next := if trigMode j s = 0 then
          (if trigPeriod j s = 0 then [] else [t + nsUnits (trigPeriod j s)])
        else rest
      syncArmed j (setTrig j next s)
def execTriggerFire (j : Fin 8) (s : State) : Host.Outcome State Fault Refusal :=
  match (trigAt j.val s).next with
  | t :: _ => if trigEnabled j.val s then timed (hopCnt t) (triggerFire j.val) s else atOnce id s
  | [] => atOnce id s

/-- R280: at T_n a frame-relative trigger computes its instant for frame n. -/
def frameTriggers (n : Nat) (s : State) : State :=
  upTo 8 (fun j s =>
    let k := max 1 (rd (Time.TRIG_START_SEC j) s % 65536)
    if trigEnabled j s ∧ trigMode j s = 1 ∧ n % k = 0 then
      let anchor := if bit (Time.TRIG_CTRL j) 2 s then nsUnits (rd (Time.FT_PD_ACTIVE 0) s) else 0
      let t := frameT n s + anchor + nsUnits (rd (Time.TRIG_START_NS j) s)
      syncArmed j (setTrig j ((trigAt j s).next ++ [t]) s)
    else s) s

/-! ### Timestamp queues (R272, R273) -/

def tsqOf (p : Nat) (s : State) : List TsEntry := kget [] p s.time.tsq

/-- TSQ_STATUS and TSQ_HEAD_* show the queue; an empty one reads as at reset. -/
def putTsq (p : Nat) (q : List TsEntry) (s : State) : State :=
  let s := updTime (fun t => { t with tsq := kset [] p q t.tsq }) s
  let s := wr (Time.TSQ_STATUS p) q.length s
  match q with
  | [] => wr (Time.TSQ_HEAD_ID p) 0 (wr (Time.TSQ_HEAD_NS p) 0 (wr (Time.TSQ_HEAD_SEC p) 0 s))
  | e :: _ =>
    wr (Time.TSQ_HEAD_ID p) (e.id + 65536 * e.step + 2 ^ 31)
      (wr (Time.TSQ_HEAD_NS p) e.ns (wr (Time.TSQ_HEAD_SEC p) (e.sec + 2 ^ 48 * e.sub) s))

/-- R272, R273: an entry is added, or lost. -/
def tsqAdd (p : Nat) (e : TsEntry) (s : State) : State :=
  let q := tsqOf p s
  if q.length < 16 then orReg Time.INT_STATUS (0x100 * 2 ^ p) (putTsq p (q ++ [e]) s)
  else
    let s := orReg Time.TIME_ERR (0x100 * 2 ^ p) (bump (Time.TSQ_LOST p) s)
    logPer 0x0207 p oneSecond (p1 p ++ p4 (rd (Time.TSQ_LOST p) s)) s

/-- TSQ_POP. -/
def tsqPop (p : Nat) (s : State) : State := putTsq p ((tsqOf p s).drop 1) s
def execTsqPop (p : Fin 4) (who : Req) (s : State) : Host.Outcome State Fault Refusal :=
  atOnce (landing who false (tsqPop p.val)) s

/-! ### LTC (R284) -/

/-- A decoded LTC frame: what the wire carried; `back` is how many ns ago the sync word began. -/
structure LtcIn where
  tc : Nat
  ub : Nat
  df : Bool
  cf : Bool
  rev : Bool
  rate : Nat
  back : Nat

/-- LTC_STATUS and LTC_HEAD_* show the FIFO; an empty one reads as at reset. -/
def putLtc (q : List LtcEntry) (s : State) : State :=
  let s := setFld Time.LTC_STATUS 12 8 q.length (updTime (fun t => { t with ltc := q }) s)
  match q with
  | [] =>
    wr Time.LTC_HEAD_TC 0 (wr Time.LTC_HEAD_UB 0 (wr Time.LTC_HEAD_NS 0 (wr Time.LTC_HEAD_SEC 0 s)))
  | e :: _ =>
    let f (o : Nat) := leNat ((e.bytes.drop o).take 4)
    wr Time.LTC_HEAD_TC (f 0) (wr Time.LTC_HEAD_UB (f 4) (wr Time.LTC_HEAD_NS e.ns
      (wr Time.LTC_HEAD_SEC (e.sec + 2 ^ 48 * f 8 + 2 ^ 52 * e.step) s)))

/-- The entry of a frame: timecode, user bits and flags (DF, REVERSE, colour frame, VALID). -/
def ltcEntry (x : LtcIn) (s : State) : LtcEntry :=
  let (c, step) := captureBack (nsUnits x.back) s
  { bytes := p4 x.tc ++ p4 x.ub ++ p4 (b2n x.df + 2 * b2n x.rev + 4 * b2n x.cf + 8)
    sec := c / 2 ^ 32 / 1000000000 % 2 ^ 48
    ns := c / 2 ^ 32 % 1000000000
    step := step }

/-- Three frame times of a rate, in 0.1 ns. -/
def threeFrames : Nat → Nat
  | 1 => 1250000000
  | 2 => 1200000000
  | 5 => 1000000000
  | _ => 1001000000

/-- R284: a frame was missed since the last valid one: more than one and a half frame times have passed,
where 1/0.9 is the most between two in a row (DESIGN CHOICE, log entry 113: the limit between them). -/
def ltcMissed (rate : Nat) (s : State) : Bool := s.time.ltcAt + threeFrames rate / 2 < s.clk

/-- R284: the lock after a valid frame; 4 consecutive ones set it. -/
def ltcLock (rate : Nat) (s : State) : State :=
  let n := if ltcMissed rate s then 1 else s.time.ltcRun + 1
  let s := updTime (fun t => { t with ltcRun := n, ltcAt := s.clk }) s
  if 4 ≤ n ∧ ¬ bit Time.TIME_STATUS 5 s then
    logEv 0x020A noInst (p1 rate) (setBit Time.LTC_STATUS 0 true (setBit Time.TIME_STATUS 5 true s))
  else s

/-- LTC_FRAME: a frame at another rate than the one forced is not decoded, and ends a run of valid
ones. -/
def ltcFrame (x : LtcIn) (s : State) : State :=
  let forced := fld Time.LTC_CTRL 3 1 s
  if !bit Time.LTC_CTRL 0 s then s
  else if forced ≠ 0 ∧ forced ≠ x.rate then updTime (fun t => { t with ltcRun := 0 }) s
  else
    let s := setBit Time.LTC_STATUS 4 x.rev (setFld Time.LTC_STATUS 3 1 x.rate s)
    let q := s.time.ltc
    let s := if q.length < 16 then orReg Time.INT_STATUS 8 (putLtc (q ++ [ltcEntry x s]) s)
      else orReg Time.TIME_ERR 0x10 (bump Time.LTC_LOST s)
    lineEdgeAll 39 (ltcLock x.rate s)
/-- The rate is one of the five of LTC_STATUS. -/
def execLtcFrame (tc ub : BitVec 32) (df cf rev : Bool) (rate : Fin 5) (back : BitVec 24) (s : State) :
    Host.Outcome State Fault Refusal :=
  atOnce (ltcFrame ⟨tc.toNat, ub.toNat, df, cf, rev, rate.val + 1, back.toNat⟩) s

/-- LTC_LOST. -/
def ltcLost (s : State) : State :=
  let s := updTime (fun t => { t with ltcRun := 0 }) s
  if bit Time.TIME_STATUS 5 s then
    logEv 0x020B noInst [] (orReg Time.INT_STATUS 0x10
      (setBit Time.LTC_STATUS 0 false (setBit Time.TIME_STATUS 5 false s)))
  else s
def execLtcLost (s : State) : Host.Outcome State Fault Refusal :=
  if s.time.ltcRun = 0 ∧ ¬ bit Time.TIME_STATUS 5 s then atOnce id s
  else timed (fun s => hopClk (s.time.ltcAt + threeFrames (fld Time.LTC_STATUS 3 1 s)) s) ltcLost s

/-- LTC_POP. -/
def ltcPop (s : State) : State := putLtc (s.time.ltc.drop 1) s
def execLtcPop (who : Req) (s : State) : Host.Outcome State Fault Refusal :=
  atOnce (landing who false ltcPop) s

/-! ### FRAME_IN (R285) -/

/-- The offset (2^-32 ns) of a counter value to the nearest point of the FRAME_IN grid. -/
def gridOffset (c : Nat) (s : State) : Int :=
  let num := rd Time.FI_PERIOD_NUM s
  let den := rd Time.FI_PERIOD_DEN s
  let x : Int := (c : Int) - nsUnits (rd Time.FI_EPOCH_SEC s * 1000000000 + rd Time.FI_EPOCH_NS s)
  let k := Int.fdiv (2 * x * den + num * 2 ^ 32) (2 * num * 2 ^ 32)
  x - Int.fdiv (k * num * 2 ^ 32) den

/-- FRAME_IN_EDGE: an edge of the selected polarity. -/
def frameInEdge (s : State) : State :=
  let gap := realNs (fld Time.FI_CFG 31 16 s * 1000)
  let early : Bool := match s.time.fiAt with | some t => decide (s.clk < t + gap) | none => false
  if early then
    let s := orReg Time.TIME_ERR 8 (bump Time.FI_GLITCHES s)
    logPer 0x020D noInst oneSecond (p4 (rd Time.FI_GLITCHES s)) s
  else
    let o := gridOffset s.cnt s
    let s := updTime (fun t => { t with fiAt := some s.clk }) s
    let s := wr Time.FI_LAST_SEC (nowSec s % 2 ^ 48 + 2 ^ 48 * nowSub s) (wr Time.FI_LAST_NS (nowNsec s) s)
    let s := wr Time.FI_LAST_OFFSET (unsgn 32 (clampI (-2147483648) 2147483647 (Int.fdiv o (2 ^ 32)))) s
    let s := setBit Time.TIME_STATUS 6 true s
    if servoEn s ∧ servoSrc s = 2 then sample (Int.fdiv o 65536) s else s
def execFrameInEdge (falling : Bool) (s : State) : Host.Outcome State Fault Refusal :=
  if bit Time.FI_CFG 0 s ∧ bit Time.FI_CFG 1 s = falling then atOnce frameInEdge s else atOnce id s

/-- FRAME_IN_LOST: no edge for 2 periods. -/
def frameInLost (s : State) : State :=
  logEv 0x020C noInst [] (orReg Time.INT_STATUS 0x20 (setBit Time.TIME_STATUS 6 false s))
def execFrameInLost (s : State) : Host.Outcome State Fault Refusal :=
  match s.time.fiAt with
  | some t =>
    if bit Time.TIME_STATUS 6 s then
      timed (fun s => hopClk (t + 20 * rd Time.FI_PERIOD_NUM s / max 1 (rd Time.FI_PERIOD_DEN s)) s)
        frameInLost s
    else atOnce id s
  | none => atOnce id s

end Sys2Proof.Machine
end

