-- ==== Sys2Proof/Machine/Ptp.lean ====
section
/-! DEFINITION. Renro's frames on transmit ring 3 (R289) and its PTP stack (R269, R270): a slave-only
ordinary clock.  The message formats and formulas are those of IEEE 1588-2019, which R269 and R270
name and do not print (PRESUMED, log entry 112). -/

namespace Sys2Proof.Machine

/-! ### Ring 3 (R289) -/

def ring3Size : Nat := 4096

/-- R289: Renro puts ring 3 of a port into use: both directions enabled, 4,096 descriptors, a
receive buffer always posted; the rings stand where it chooses (DESIGN CHOICE, log entry 114: size,
and bases as free values). -/
def openRing3 (p : Nat) (s : State) : State :=
  let (a, s) := fresh s
  let (b, s) := fresh s
  let s := wr (Net.RXR_BASE p 3) (a.toNat / 32 * 32) (wr (Net.TXR_BASE p 3) (b.toNat / 32 * 32) s)
  let s := wr (Net.RXR_CTRL p 3) 0xC1 (wr (Net.TXR_CTRL p 3) 0xC1 s)
  let s := wr (Net.RXR_HEAD p 3) 0 (wr (Net.TXR_HEAD p 3) 0 (wr (Net.TXR_TAIL p 3) 0 s))
  wr (Net.RXR_TAIL p 3) (ring3Size - 1) (setFld (Net.RXR_STATUS p 3) 1 0 1 (setFld (Net.TXR_STATUS p 3) 1 0 1 s))

/-- TXR_TAIL of ring 3 stands past what Renro has posted; more waits in its own memory. -/
def putTail3 (p : Nat) (s : State) : State :=
  let x := netPort p s
  let held := (kget none 3 x.tx).toList.length
    + (match x.sending with | some ⟨some 3, _, _, _⟩ => 1 | _ => 0)
  wr (Net.TXR_TAIL p 3) ((rd (Net.TXR_HEAD p 3) s + min (ring3Size - 1) (x.out.length + held)) % ring3Size) s

/-- Renro posts a frame, where ring 3 runs. -/
def renroPost (p flags id vlan : Nat) (bytes : List Byte) (s : State) : State :=
  if fld (Net.TXR_STATUS p 3) 1 0 s = 1 then
    putTail3 p (updNetPort p (fun x => { x with out := x.out ++ [⟨[], flags, id, vlan, 0, bytes⟩] }) s)
  else s

/-! ### Frames -/

/-- A big-endian field. -/
def beBytes (n v : Nat) : List Byte := (leBytes n v).reverse

/-- R269: an Ethernet frame of a port, or a UDP datagram over IPv4 in one; the port computes its
checksums (flags IP_CSUM, UDP_CSUM). -/
def etherFrame (p dst etype : Nat) (body : List Byte) (s : State) : List Byte :=
  beBytes 6 dst ++ beBytes 6 (rd (Net.MAC_ADDR p) s) ++ beBytes 2 etype ++ body
/-- The group address an IPv4 group maps to. -/
def groupMac (ip : Nat) : Nat := 0x01005E000000 + ip % 2 ^ 23
def udpBody (p ip port ttl : Nat) (body : List Byte) : List Byte :=
  p1 0x45 ++ p1 0 ++ beBytes 2 (28 + body.length) ++ p4 0 ++ p1 ttl ++ p1 17 ++ p2 0
    ++ beBytes 4 (Config.ipAddress p).toNat ++ beBytes 4 ip
    ++ beBytes 2 port ++ beBytes 2 port ++ beBytes 2 (8 + body.length) ++ p2 0 ++ body

/-! ### Messages (IEEE 1588-2019) -/

def ptpOn (s : State) : Bool := s.upd.cur.ptp.on
/-- The identity of this clock's port. -/
def ptpPortId (p : Nat) : List Byte := beBytes 8 Config.moduleId.toNat ++ beBytes 2 (p + 1)

/-- A message: its type, control, correction, sequence number and body; two-step where asked. -/
def ptpMessage (p type ctl seq : Nat) (two : Bool) (corr : Int) (body : List Byte) (s : State) : List Byte :=
  p1 type ++ p1 2 ++ beBytes 2 (34 + body.length) ++ p1 s.upd.cur.ptp.domain ++ p1 0
    ++ p1 (2 * b2n two) ++ p1 0 ++ beBytes 8 (unsgn 64 corr) ++ p4 0 ++ ptpPortId p
    ++ beBytes 2 seq ++ p1 ctl ++ p1 0x7F ++ body

/-- R269: a message leaves on ring 3, over the transport in use, with the port's tag; an event message
asks for its timestamp. -/
def ptpSend (p id : Nat) (event peer : Bool) (m : List Byte) (s : State) : State :=
  let c := s.upd.cur.ptp
  let tag := 16 * b2n c.vlan.isSome
  let ts := 2 * b2n event
  if c.ether then
    renroPost p (ts + tag) id (c.vlan.getD 0)
      (etherFrame p (if peer then 0x0180C200000E else 0x011B19000000) 0x88F7 m s) s
  else
    let ip := if peer then 0xE000006B else 0xE0000181
    renroPost p (ts + tag + 12) id (c.vlan.getD 0)
      (etherFrame p (groupMac ip) 0x0800 (udpBody p ip (if event then 319 else 320) 1 m) s) s

/-- A time of 48 bits of seconds and 32 of ns, in 2^-16 ns; and back. -/
def ptpTime (b : List Byte) : Int := ((beAt 0 6 b * 1000000000 + beAt 6 4 b) * 65536 : Nat)
def ptpStamp (t : Int) : List Byte :=
  let ns := t.toNat / 65536
  beBytes 6 (ns / 1000000000) ++ beBytes 4 (ns % 1000000000)

def updPtp (f : PtpSt → PtpSt) (s : State) : State := updTime (fun t => { t with ptp := f t.ptp }) s
/-- TS_ASYM (R270), in 2^-16 ns. -/
def ptpAsym (p : Nat) (s : State) : Int := sgn 32 (rd (Time.TS_ASYM p) s) * 256
/-- 2^k seconds in 0.1 ns. -/
def ptpLog (k : Int) : Nat :=
  if 0 ≤ k then realNs 1000000000 * 2 ^ k.toNat else realNs 1000000000 / 2 ^ (-k).toNat
/-- A log interval of a message. -/
def ptpLogField (m : List Byte) : Int := sgn 8 (beAt 33 1 m)

/-- Kinds of event message that Renro sends, in the top bits of its timestamp identifier. -/
def idReq : Nat := 0x4000
def idPeerReq : Nat := 0x8000
def idPeerResp : Nat := 0xC000

/-- R269: a delay request, when the interval that the master asks for has passed. -/
def ptpRequest (p : Nat) (s : State) : State :=
  let t := s.time.ptp
  if t.reqSeq.isSome && decide (s.clk < t.reqAt + ptpLog t.logReq) then s
  else
    let seq := (t.seq + 1) % 0x4000
    let s := updPtp (fun t =>
      { t with
        seq := seq
        reqSeq := some seq
        reqAt := s.clk
        t3 := none
        resp := none }) s
    let peer := s.upd.cur.ptp.p2p
    if peer then
      ptpSend p (idPeerReq + seq) true true
        (ptpMessage p 2 5 seq false (-ptpAsym p s) (List.replicate 20 0) s) s
    else
      ptpSend p (idReq + seq) true false
        (ptpMessage p 1 1 seq false (-ptpAsym p s) (List.replicate 10 0) s) s

/-- R270: a sample for the servo, one per exchange. -/
def ptpSample (o : Int) (s : State) : State :=
  if servoEn s ∧ servoSrc s = 1 then sample (clampI (-2 ^ 63) (2 ^ 63 - 1) o) s else s

/-- R270: the offset from the master that a Sync gives, the path delay and TS_ASYM taken off. -/
def ptpOffset (p : Nat) (x : PtpSync) (path : Int) (s : State) : Option Int :=
  x.t1.map fun t1 => x.t2 - t1 - path - x.corr - ptpAsym p s

/-- A Sync whose master time is known: with peer delay it is an exchange; end to end, the delay is
asked for. -/
def ptpSynced (p : Nat) (s : State) : State :=
  let s := match s.upd.cur.ptp.p2p, s.time.ptp.sync, s.time.ptp.path with
    | true, some x, some d => if x.step = stepSeq s then
        (match ptpOffset p x d s with | some o => ptpSample o s | none => s) else s
    | _, _, _ => s
  ptpRequest p s

/-! ### Messages received -/

/-- Sync: one-step, it carries the master's time.  An interval out of R269's range is not supported. -/
def ptpSync (p : Nat) (m : List Byte) (t : Int) (step : Nat) (s : State) : State :=
  let k := ptpLogField m
  if k < -7 ∨ 1 < k ∧ k ≠ 0x7F then s
  else
    let two := (beAt 6 1 m).testBit 1
    let x : PtpSync := ⟨beAt 30 2 m, t, step, sgn 64 (beAt 8 8 m), if two then none else some (ptpTime (m.drop 34))⟩
    let s := updPtp (fun q => { q with sync := some x }) s
    if two then s else ptpSynced p s

/-- Follow_Up: the time of the Sync it follows. -/
def ptpFollowUp (p : Nat) (m : List Byte) (s : State) : State :=
  match s.time.ptp.sync with
  | some x =>
    if x.seq = beAt 30 2 m ∧ x.t1 = none then
      ptpSynced p (updPtp (fun q => { q with sync := some { x with
        t1 := some (ptpTime (m.drop 34))
        corr := x.corr + sgn 64 (beAt 8 8 m) } }) s)
    else s
  | none => s

/-- Is a message the answer to this port's last request. -/
def ptpAnswers (p : Nat) (m : List Byte) (s : State) : Bool :=
  s.time.ptp.reqSeq == some (beAt 30 2 m) && (m.drop 44).take 10 == ptpPortId p

/-- Delay_Resp: the end-to-end exchange is complete; one whose timestamps carry different STEP_SEQ
values is discarded (R270). -/
def ptpDelayResp (p : Nat) (m : List Byte) (s : State) : State :=
  let q := s.time.ptp
  let s := updPtp (fun q => { q with logReq := clampI (-7) 5 (ptpLogField m) }) s
  match q.sync, q.t3 with
  | some x, some (t3, step) =>
    if !ptpAnswers p m s then s
    else
      let s := updPtp (fun q => { q with t3 := none, sync := none }) s
      match x.t1 with
      | some t1 =>
        if x.step ≠ step ∨ step ≠ stepSeq s then s
        else
          let t4 := ptpTime (m.drop 34)
          let d := Int.fdiv ((x.t2 - t3) + (t4 - t1) - (x.corr + ptpAsym p s) - sgn 64 (beAt 8 8 m)) 2
          let s := updPtp (fun q => { q with path := some d }) s
          match ptpOffset p x d s with
          | some o => ptpSample o s
          | none => s
      | none => s
  | _, _ => s

/-- The path delay of a peer exchange: our request left at t1, reached the peer at t2; the answer left
at t3 and reached us at t4. -/
def ptpPeerDelay (t1 t2 t3 t4 corr : Int) : Int := Int.fdiv ((t4 - t1) - (t3 - t2) - corr) 2

/-- Pdelay_Resp: one-step, its correction carries the peer's turnaround. -/
def ptpPeerResp (p : Nat) (m : List Byte) (t : Int) (step : Nat) (s : State) : State :=
  if !ptpAnswers p m s then s
  else
    let corr := sgn 64 (beAt 8 8 m) + ptpAsym p s
    match s.time.ptp.t3 with
    | some (t1, st) =>
      if (beAt 6 1 m).testBit 1 then
        updPtp (fun q => { q with resp := some (t, step, ptpTime (m.drop 34), corr) }) s
      else if st ≠ step then s
      else updPtp (fun q => { q with path := some (ptpPeerDelay t1 0 0 t corr), t3 := none }) s
    | none => s

def ptpPeerRespFollow (p : Nat) (m : List Byte) (s : State) : State :=
  match s.time.ptp.t3, s.time.ptp.resp with
  | some (t1, st), some (t4, step, t2, corr) =>
    if !ptpAnswers p m s then s
    else
      let s := updPtp (fun q => { q with t3 := none, resp := none }) s
      if st ≠ step then s
      else updPtp (fun q => { q with
        path := some (ptpPeerDelay t1 t2 (ptpTime (m.drop 34)) t4 (corr + sgn 64 (beAt 8 8 m))) }) s
  | _, _ => s

/-- Pdelay_Req of a peer: answered, two-step (R269). -/
def ptpPeerReq (p : Nat) (m : List Byte) (t : Int) (s : State) : State :=
  let who := (m.drop 20).take 10
  let seq := beAt 30 2 m
  let s := updPtp (fun q => { q with owed := some (who, seq) }) s
  ptpSend p (idPeerResp + seq % 0x4000) true true
    (ptpMessage p 3 5 seq true (sgn 64 (beAt 8 8 m)) (ptpStamp t ++ who) s) s

/-- Announce of the grandmaster in use: TRACEABLE and UTC_OFFSET follow it (R266, R270). -/
def ptpAnnounce (m : List Byte) (s : State) : State :=
  if beAt 53 8 m ≠ s.time.gm then s
  else
    let flags := beAt 7 1 m
    let s := updPtp (fun q => { q with annAt := some s.clk, annLog := ptpLogField m }) s
    let s := wr Time.UTC_OFFSET (beAt 44 2 m + 65536 * b2n (flags.testBit 2)) s
    putDerived (setBit Time.TIME_CTRL 4 (flags.testBit 4) s)

/-- R269, R270: a message that port p received at t (2^-16 ns) under STEP_SEQ `step`.  Only the port in
SLAVE takes part; other domains, management messages and versions are ignored. -/
def ptpReceive (p : Nat) (m : List Byte) (t : Int) (step : Nat) (s : State) : State :=
  if !ptpOn s ∨ m.length < 34 ∨ beAt 1 1 m % 16 ≠ 2 ∨ beAt 4 1 m ≠ s.upd.cur.ptp.domain then s
  else match beAt 0 1 m % 16 with
  | 2 => if s.upd.cur.ptp.p2p then ptpPeerReq p m t s else s
  | k =>
    if s.time.slave ≠ some p then s
    else match k with
    | 0 => ptpSync p m t step s
    | 8 => ptpFollowUp p m s
    | 9 => if s.upd.cur.ptp.p2p then s else ptpDelayResp p m s
    | 3 => if s.upd.cur.ptp.p2p then ptpPeerResp p m t step s else s
    | 10 => if s.upd.cur.ptp.p2p then ptpPeerRespFollow p m s else s
    | 11 => ptpAnnounce m s
    | _ => s

/-- The transmit timestamp of an event message that Renro sent: t in 2^-16 ns. -/
def ptpSent (p id : Nat) (t : Int) (step : Nat) (s : State) : State :=
  if id / 0x4000 = 3 then
    match s.time.ptp.owed with
    | some (who, seq) =>
      let s := updPtp (fun q => { q with owed := none }) s
      ptpSend p 0 false true (ptpMessage p 10 5 seq false 0 (ptpStamp t ++ who) s) s
    | none => s
  else if s.time.ptp.reqSeq = some (id % 0x4000) ∧ s.time.slave = some p then
    updPtp (fun q => { q with t3 := some (t, step) }) s
  else s

/-- ANNOUNCE_RECEIPT_TIMEOUT (R269, R270): the best master clock algorithm reselects: the port in
SLAVE, the grandmaster and its timeTraceable flag are what it finds. -/
def announceTimeout (slave : Option Nat) (gm : Nat) (traceable : Bool) (s : State) : State :=
  let old := s.time.gm
  let s := updTime (fun t => { t with slave := slave, gm := gm, ptp := { seq := t.ptp.seq } }) s
  let s := putDerived (setBit Time.TIME_CTRL 4 traceable s)
  if old = gm then s else logRenro 0x020E noInst (p8 old ++ p8 gm) s
/-- announceReceiptTimeout intervals after the last Announce; at once where none has come. -/
def execAnnounceReceiptTimeout (slave : Option (Fin 3)) (gm : Word) (traceable : Bool) (s : State) :
    Host.Outcome State Fault Refusal :=
  timed (fun s => match s.time.ptp.annAt with
    | some t => hopClk (t + s.upd.cur.ptp.announce * ptpLog s.time.ptp.annLog) s
    | none => s) (announceTimeout (slave.map Fin.val) gm.toNat traceable) s

/-! ### Settings of time (R271, R287, R288) -/

/-- R271, R288: Renro writes both latencies of a port for its MODE and FEC. -/
def putPortLatency (p : Nat) (s : State) : State :=
  let c := (Config.portLatency p (fld (Net.PORT_CTRL p) 2 1 s) (fld (Net.PORT_CTRL p) 4 3 s)).toNat
  wr (Time.TS_TX_LAT p) (c % 2 ^ 24) (wr (Time.TS_RX_LAT p) (c / 2 ^ 24 % 2 ^ 24) s)

/-- A servo register's value: the one stored, else its reset value. -/
def servoValue (r : Reg) (dflt : Nat) (s : State) : Nat :=
  let v := kget 0 r.addr s.upd.cur.stored
  if 0 < v then v - 1 else dflt

/-- R287: with the PTP stack enabled Renro sets the servo registers: it is on and takes SERVO_SAMPLE
(DEDUCED, log entry 115), the others as stored or at reset. -/
def setServoRegs (s : State) : State :=
  if !ptpOn s then s
  else
    let put (r : Reg) (d : Nat) (s : State) := wr r (servoValue r d s) s
    let s := put Time.SERVO_KP 0x20000 (put Time.SERVO_KI 0x4000 (put Time.RATE_LIMIT 0xC350 s))
    let s := put Time.STEP_THRESH 0x186A0 (put Time.LOCK_CFG 0x100000FA (put Time.SERVO_TMO 0x3E8 s))
    timeCtrlWrite (putBits (servoValue Time.TIME_CTRL 8 s) 2 0 3) s

end Sys2Proof.Machine
end

