-- ==== Sys2Proof/Machine/Net.lean ====
section
/-! DEFINITION. The Ethernet ports (chapter 10): receive classification and rings, transmit rings,
gate lists, PAUSE.  Port p is 0 U0, 1 U1, 2 M0, 3 T0. -/

namespace Sys2Proof.Machine

def netEnabled (p : Nat) (s : State) : Bool := bit (Net.PORT_CTRL p) 0 s
def netMode (p : Nat) (s : State) : Nat := fld (Net.PORT_CTRL p) 2 1 s
def netLink (p : Nat) (s : State) : Bool := bit (Net.PORT_STATUS p) 0 s
def maxFrame (p : Nat) (s : State) : Nat := fld (Net.PORT_CTRL p) 29 16 s
/-- Time of one byte on the wire, in 0.01 ns. -/
def byteTime : Nat → Nat
  | 0 => 32 | 1 => 80 | _ => 800
/-- R301: one quantum, 512 bit times, in 0.01 ns. -/
def quantum (p : Nat) (s : State) : Nat := 64 * byteTime (netMode p s)
/-- R183: the stream of a port's rings. -/
def netStream (p : Nat) : Nat := 0x68 + p
/-- A port moves frames: it is enabled, its link is up, nothing is shed (R467). -/
def netUp (p : Nat) (s : State) : Bool := netEnabled p s && netLink p s && !shed s

/-- R289: writes to what belongs to Renro are ignored from the host. -/
def ringWriter (who : Req) (r : Nat) (f : State → State) (s : State) : State :=
  if r = 3 then (match who with | .host => s | .renro => f s) else f s

/-! ### Frames -/

/-- R290: a frame's header fields. -/
structure Header where
  dst : Nat
  tag : Option Nat
  /-- EtherType after any tag, and where its payload begins -/
  etype : Nat
  at_ : Nat

def headerOf (bs : List Byte) : Header :=
  let tagged := beAt 12 2 bs = 0x8100
  { dst := beAt 0 6 bs
    tag := if tagged then some (beAt 14 2 bs) else none
    etype := if tagged then beAt 16 2 bs else beAt 12 2 bs
    at_ := if tagged then 18 else 14 }

/-- Where the IPv4 payload begins. -/
def ipEnd (bs : List Byte) (h : Header) : Nat := h.at_ + 4 * (beAt h.at_ 1 bs % 16)
def isIpv4 (h : Header) : Bool := h.etype == 0x0800
def ipProto (bs : List Byte) (h : Header) : Nat := beAt (h.at_ + 9) 1 bs
/-- A UDP datagram's first fragment. -/
def isUdp (bs : List Byte) (h : Header) : Bool :=
  isIpv4 h && ipProto bs h == 17 && beAt (h.at_ + 6) 2 bs % 8192 == 0
def udpPort (bs : List Byte) (h : Header) : Nat := beAt (ipEnd bs h + 2) 2 bs
def ipDst (bs : List Byte) (h : Header) : Nat := beAt (h.at_ + 16) 4 bs
/-- The UDP payload, as long as its header says. -/
def udpPayload (bs : List Byte) (h : Header) : List Byte :=
  (bs.drop (ipEnd bs h + 8)).take (beAt (ipEnd bs h + 4) 2 bs - 8)

/-- What the MAC saw of a frame: its bytes without the FCS, the errors, and how long before its
end (2^-16 ns) the raw timestamp was captured (R271). -/
structure RxIn where
  bytes : List Byte
  preamble : Bool
  fcs : Bool
  code : Bool
  back : Nat

/-! ### Receive rings (R291 to R296) -/

def rxRing (p r : Nat) (s : State) : RxRing := kget {} r (netPort p s).rx
def setRxRing (p r : Nat) (x : RxRing) (s : State) : State :=
  updNetPort p (fun q => { q with rx := kset {} r x q.rx }) s

/-- SIZE_LOG2 is 4 to 12. -/
def sizeOf (c : Nat) : Nat := 2 ^ max 4 (min 12 (bitsOf c 7 4))
def rxSize (p r : Nat) (s : State) : Nat := sizeOf (rd (Net.RXR_CTRL p r) s)
def rxState (p r : Nat) (s : State) : Nat := fld (Net.RXR_STATUS p r) 1 0 s
/-- R291: posted buffers. -/
def rxPosted (p r : Nat) (s : State) : Nat :=
  let n := rxSize p r s
  (rd (Net.RXR_TAIL p r) s % n + n - rd (Net.RXR_HEAD p r) s % n) % n
def rxDescVa (p r i : Nat) (s : State) : Nat := rd (Net.RXR_BASE p r) s + 32 * (i % rxSize p r s)

/-- R295, R297: a ring stops; dir 0 receive, 1 transmit. -/
def ringFault (p r dir : Nat) (st : Reg) (s : State) : State :=
  logEv 0x0705 r (p1 p ++ p1 r ++ p1 dir) (setFld st 1 0 2 s)

/-- R296: a ring tells software. -/
def rxNotify (p r : Nat) (s : State) : State :=
  let s := setRxRing p r {} s
  let s := if r < 3 then orReg (Net.INT_STATUS p) (2 ^ r) s else s
  if bit (Net.RXR_NOTIFY p r) 24 s then
    lineEdgeMask (fld (Net.RXR_NOTIFY p r) 23 20 s) (40 + fld (Net.RXR_NOTIFY p r) 19 18 s) s
  else s

/-- R296: a frame was written back. -/
def rxCounted (p r : Nat) (s : State) : State :=
  let s := bump (Net.RXR_FRAMES p r) s
  let q := rxRing p r s
  if max 1 (fld (Net.RXR_NOTIFY p r) 7 0 s) ≤ q.notified + 1 then rxNotify p r s
  else setRxRing p r ⟨q.notified + 1, some (q.firstAt.getD s.clk)⟩ s

/-- A descriptor taken for a frame: its index, the bytes put in its buffer, whether that write
faulted. -/
structure RxTaken where
  idx : Nat
  bytes : Nat
  fault : Bool

/-- How placing a frame ended. -/
inductive RxEnd
  | whole
  | short (left : Nat)
  | ringFault

/-- R292, R294, R295: bytes go to posted buffers from descriptor i on, n of them posted. -/
def rxPlace (p r : Nat) : Nat → Nat → List Byte → List RxTaken → State → List RxTaken × RxEnd × State
  | 0, _, bs, acc, s => (acc, if bs.isEmpty then .whole else .short bs.length, s)
  | n + 1, i, bs, acc, s =>
    if bs.isEmpty then (acc, .whole, s)
    else match ioRead (netStream p) (rxDescVa p r i s) 32 s with
      | (none, s) => (acc, .ringFault, s)
      | (some d, s) =>
        let part := bs.take (leNat ((d.drop 8).take 4))
        match ioWrite (netStream p) (leNat (d.take 8)) part s with
        | (false, s) =>
          (acc ++ [⟨i, 0, true⟩], .short bs.length, bump (Net.RXR_FAULTS p r) s)
        | (true, s) =>
          rxPlace p r n (i + 1) (bs.drop part.length) (acc ++ [⟨i, part.length, false⟩]) s

/-- What every descriptor of a frame says (R291). -/
structure RxMeta where
  len : Nat
  errs : Nat
  matchNo : Nat
  step : Nat
  sec : Nat
  ns : Nat
  tci : Nat

/-- R291: bytes 0x08 to 0x1F of a descriptor. -/
def rxBack (m : RxMeta) (t : RxTaken) (first last trunc : Bool) : List Byte :=
  let flags := 1 + 2 * b2n first + 4 * b2n last + 8 * b2n trunc + 128 * b2n t.fault + m.errs
  p2 t.bytes ++ p2 (min 65535 m.len) ++ p2 flags ++ p1 m.matchNo ++ p1 m.step ++ p8 m.sec
    ++ p4 m.ns ++ p2 m.tci ++ p2 0

/-- The descriptors of a frame are written back in ring order; false on a fault. -/
def rxWriteBack (p r : Nat) (m : RxMeta) (trunc first : Bool) : List RxTaken → State → Bool × State
  | [], s => (true, s)
  | t :: rest, s =>
    match ioWrite (netStream p) (rxDescVa p r t.idx s + 8) (rxBack m t first rest.isEmpty trunc) s with
    | (false, s) => (false, s)
    | (true, s) => rxWriteBack p r m trunc false rest s

/-- R292: HEAD advances past a frame's descriptors at once. -/
def rxDeliver (p r : Nat) (m : RxMeta) (trunc : Bool) (ts : List RxTaken) (s : State) : State :=
  match rxWriteBack p r m trunc true ts s with
  | (false, s) => ringFault p r 0 (Net.RXR_STATUS p r) s
  | (true, s) =>
    rxCounted p r (wr (Net.RXR_HEAD p r) ((rd (Net.RXR_HEAD p r) s + ts.length) % rxSize p r s) s)

/-- R294: what truncation counts and logs. -/
def rxTruncated (p r left : Nat) (s : State) : State :=
  let s := bump (Net.RXR_TRUNC_FRAMES p r) (bumpBy (Net.RXR_TRUNC_BYTES p r) left s)
  logPerNode 0x0703 r p oneSecond (p1 p ++ p1 r ++ p4 (rd (Net.RXR_TRUNC_FRAMES p r) s)) s

/-- R292 to R295: a frame for ring r.  In the pause of a live activation rings 0 to 2 of U0, U1 and
M0 drop theirs (R447). -/
def rxToRing (p r : Nat) (bad : Bool) (data : List Byte) (m : RxMeta) (s : State) : State :=
  if activationPaused s ∧ r ≠ 3 ∧ p ≠ 3 then s
  else if rxState p r s = 2 then bump (Net.RXR_FAULTS p r) s
  else if rxState p r s = 0 then bump (Net.RX_FILTER_DROPS p) s
  else if rxPosted p r s = 0 then
    let s := bump (Net.RXR_NOBUF p r) s
    logPerNode 0x0704 r p oneSecond (p1 p ++ p1 r ++ p4 (rd (Net.RXR_NOBUF p r) s)) s
  else
    match rxPlace p r (rxPosted p r s) (rd (Net.RXR_HEAD p r) s) data [] s with
    | (_, .ringFault, s) => ringFault p r 0 (Net.RXR_STATUS p r) s
    | (ts, e, s) =>
      let (trunc, s) := match e with
        | .short left => (true, rxTruncated p r left s)
        | _ => (false, s)
      if bad && !bit (Net.RXR_CTRL p r) 1 s then bump (Net.RXR_BAD_DROPS p r) s
      else rxDeliver p r m trunc ts s

/-! ### Classification (R290) -/

/-- Where a frame goes. -/
inductive RxDest
  | drop
  | filtered
  | pause
  | ring (r matchNo : Nat)
  | flow (f : Nat)

/-- Does filter f match. -/
def filterMatch (p f : Nat) (bs : List Byte) (h : Header) (s : State) : Bool :=
  let c := rd (Net.FLT_CTRL p f) s
  let key := rd (Net.FLT_KEY p f) s
  let low := 2 ^ (32 - min 32 (bitsOf c 21 16))
  c.testBit 0
    && (!c.testBit 1 || h.etype == bitsOf key 15 0)
    && (!c.testBit 2 || (match h.tag with | some t => t % 4096 == bitsOf key 27 16 | none => false))
    && (!c.testBit 3 || (isIpv4 h && ipDst bs h / low == rd (Net.FLT_IP p f) s / low))
    && (!c.testBit 4 || (isUdp bs h && udpPort bs h == fld (Net.FLT_UDP p f) 15 0 s))

/-- What a filter does with a frame. -/
def filterDest (p f : Nat) (s : State) : RxDest :=
  let t := fld (Net.FLT_CTRL p f) 12 8 s
  match fld (Net.FLT_CTRL p f) 7 6 s with
  | 1 => if t < 3 then .ring t f else .filtered
  | 2 => if flowFed t p s then .flow t else .filtered
  | _ => .drop

def isPtp (bs : List Byte) (h : Header) : Bool :=
  h.etype == 0x88F7 || (isUdp bs h && (udpPort bs h == 319 || udpPort bs h == 320))
/-- R318, R322: the frames of T0 that belong to the supervisor: beats and mirror frames. -/
def isTwinFrame (h : Header) : Bool := h.etype == 0x88B5
def isControl (bs : List Byte) (h : Header) : Bool :=
  h.etype == 0x0806 || (isIpv4 h && (ipProto bs h == 1 || ipProto bs h == 2))

/-- Rules 2 to 7, in order. -/
def classify (p : Nat) (bs : List Byte) (s : State) : RxDest :=
  let h := headerOf bs
  if h.etype = 0x8808 then .pause
  else if h.dst ≠ rd (Net.MAC_ADDR p) s % 2 ^ 48 ∧ ¬ h.dst.testBit 40 ∧ ¬ bit (Net.PORT_CTRL p) 7 s then
    .filtered
  else if (if p < 3 then isPtp bs h else isTwinFrame h) then .ring 3 17
  else match (List.range 16).find? fun f => filterMatch p f bs h s with
    | some f => filterDest p f s
    | none =>
      if isControl bs h then .ring 3 17
      else
        let a := fld (Net.DEFAULT_ACTION p) 3 0 s
        if a % 4 = 1 then (if a / 4 < 3 then .ring (a / 4) 16 else .filtered) else .drop

/-! ### PAUSE received (R301) -/

/-- A PAUSE frame holds transmission, or releases it. -/
def pauseFrame (p q : Nat) (s : State) : State :=
  let s := bump (Net.RX_PAUSE p) s
  if bit (Net.PORT_CTRL p) 5 s then
    let s := updNetPort p (fun x => { x with heldUntil := if q = 0 then 0 else s.clk + ceilDiv (q * quantum p s) 10 }) s
    setBit (Net.PORT_STATUS p) 1 (q ≠ 0) s
  else s

/-- A MAC control frame: PAUSE to the group address or the port's own, priority flow control. -/
def controlFrame (p : Nat) (bs : List Byte) (s : State) : State :=
  let h := headerOf bs
  let op := beAt h.at_ 2 bs
  if op = 1 ∧ (h.dst = 0x0180C2000001 ∨ h.dst = rd (Net.MAC_ADDR p) s % 2 ^ 48) then
    pauseFrame p (beAt (h.at_ + 2) 2 bs) s
  else if op = 0x0101 then bump (Net.RX_PAUSE p) s
  else s

/-- R11: a 64-bit counter. -/
def bump64 (r : Reg) (k : Nat) (s : State) : State := wr r (min (rd r s + k) (2 ^ 64 - 1)) s

/-- R290: a frame the port received. -/
def rxCount (p len : Nat) (s : State) : State :=
  bump64 (Net.RX_BYTES p) len (bump (Net.RX_FRAMES p) s)

/-- PAUSE_RECEIVED: a good PAUSE frame of 64 bytes with quanta q. -/
def pauseReceived (p q : Nat) (s : State) : State :=
  if netUp p s then pauseFrame p q (rxCount p 64 s) else s
def execPauseReceived (p : Fin 4) (q : BitVec 16) (s : State) : Host.Outcome State Fault Refusal :=
  atOnce (pauseReceived p.val q.toNat) s

/-- PAUSE_EXPIRY (R301): the pause time has run out. -/
def pauseExpiry (p : Nat) (s : State) : State :=
  setBit (Net.PORT_STATUS p) 1 false (updNetPort p (fun x => { x with heldUntil := 0 }) s)
def execPauseExpiry (p : Fin 4) (s : State) : Host.Outcome State Fault Refusal :=
  if bit (Net.PORT_STATUS p.val) 1 s then
    timed (fun s => hopClk (netPort p.val s).heldUntil s) (pauseExpiry p.val) s
  else atOnce id s

/-! ### A received frame -/

/-- R271: the receive timestamp of a frame captured `back` (2^-16 ns) ago, with its STEP_SEQ (R268). -/
def rxTime (p back : Nat) (s : State) : Nat × Nat :=
  let (c, step) := captureBack (back * 2 ^ 16) s
  (c - fld (Time.TS_RX_LAT p) 23 0 s * 2 ^ 24, step)

/-- R271, R291: what the descriptors of a frame say. -/
def rxMeta (p matchNo : Nat) (x : RxIn) (tooLong : Bool) (s : State) : RxMeta :=
  let h := headerOf x.bytes
  let (t, step) := rxTime p x.back s
  { len := x.bytes.length
    errs := 16 * b2n x.fcs + 32 * b2n x.code + 64 * b2n tooLong + 256 * b2n h.tag.isSome
    matchNo := matchNo
    step := step
    sec := t / 2 ^ 32 / 1000000000 % 2 ^ 48 + 2 ^ 48 * (t / 2 ^ 16 % 2 ^ 16)
    ns := t / 2 ^ 32 % 1000000000
    tci := h.tag.getD 0 }

/-- R291: the outer tag is stripped. -/
def stripTag (bs : List Byte) : List Byte :=
  if (headerOf bs).tag.isSome then bs.take 12 ++ bs.drop 16 else bs

/-- R293: the error counters of a frame. -/
def rxErrors (p : Nat) (x : RxIn) (tooLong : Bool) (s : State) : State :=
  let s := if x.fcs then bump (Net.RX_FCS_ERRS p) s else s
  let s := if x.code then bump (Net.RX_CODE_ERRS p) s else s
  if tooLong then bump (Net.RX_OVERSIZE p) s else s

/-- RX_NOTIFY_TIMER (R296). -/
def execRxNotifyTimer (p r : Fin 4) (s : State) : Host.Outcome State Fault Refusal :=
  let t := fld (Net.RXR_NOTIFY p.val r.val) 17 8 s
  match (rxRing p.val r.val s).firstAt with
  | none => atOnce id s
  | some a => if t = 0 then atOnce id s
    else timed (hopClk (a + realNs (t * 1000))) (rxNotify p.val r.val) s

/-- The fields a ring's control register takes: SIZE_LOG2 only while ENABLE is 0 (R295). -/
def ringCtrl (p : Nat) (ctrl status head : Reg) (v : Nat) (s : State) : State :=
  let old := rd ctrl s
  let was := old.testBit 0
  let rej := was && bitsOf v 7 4 != bitsOf old 7 4
  let s := if rej then orReg (Net.PORT_ERR p) 1 s else s
  let s := wr ctrl (if rej then putBits v 7 4 (bitsOf old 7 4) else v) s
  if v.testBit 0 && !was then setFld status 1 0 1 (wr head 0 s)
  else if !v.testBit 0 && was then setFld status 1 0 0 s
  else s

/-- RXR_ENABLE (R295): a write of RXR_CTRL. -/
def rxrCtrlWrite (p r : Nat) (who : Req) (v : Nat) (s : State) : State :=
  ringWriter who r (fun s =>
    let was := bit (Net.RXR_CTRL p r) 0 s
    let s := ringCtrl p (Net.RXR_CTRL p r) (Net.RXR_STATUS p r) (Net.RXR_HEAD p r)
      (v % 256 / 16 * 16 + v % 8 + bitsOf v 31 20 * 2 ^ 20) s
    if was = v.testBit 0 then s else setRxRing p r {} s) s
def execRxrEnable (p r : Fin 4) (who : Req) (v : BitVec 32) (s : State) :
    Host.Outcome State Fault Refusal :=
  atOnce (rxrCtrlWrite p.val r.val who v.toNat) s

/-! ### Transmit rings (R297, R298, R306) -/

def txFrameOf (p t : Nat) (s : State) : Option NetFrame := kget none t (netPort p s).tx
def setTxFrame (p t : Nat) (x : Option NetFrame) (s : State) : State :=
  updNetPort p (fun q => { q with tx := kset none t x q.tx }) s
def txSize (p t : Nat) (s : State) : Nat := sizeOf (rd (Net.TXR_CTRL p t) s)
def txState (p t : Nat) (s : State) : Nat := fld (Net.TXR_STATUS p t) 1 0 s
def txPosted (p t : Nat) (s : State) : Nat :=
  let n := txSize p t s
  (rd (Net.TXR_TAIL p t) s % n + n - rd (Net.TXR_HEAD p t) s % n) % n
def txDescVa (p t i : Nat) (s : State) : Nat := rd (Net.TXR_BASE p t) s + 32 * (i % txSize p t s)

/-- R297: results. -/
def rSent : Nat := 0
def rFault : Nat := 1
def rBadDesc : Nat := 2
def rLinkDown : Nat := 3
def rTooLong : Nat := 4

/-- STATUS of the descriptors of a frame; false on a fault. -/
def txWriteStatus (p t result : Nat) : List Nat → State → Bool × State
  | [], s => (true, s)
  | i :: rest, s =>
    match ioWrite (netStream p) (txDescVa p t i s + 0x1C) (p4 (1 + 2 * result)) s with
    | (false, s) => (false, s)
    | (true, s) => txWriteStatus p t result rest s

/-- R297: a frame completes: STATUS in each descriptor, then HEAD passes them.  What Renro's own ring 3
holds in its memory is not modelled (DESIGN CHOICE, log entry 114). -/
def txComplete (p t result : Nat) (ds : List Nat) (s : State) : State :=
  let s := setTxFrame p t none s
  let s := if result = rSent then bump (Net.TXR_FRAMES p t) s else bump (Net.TXR_ERRS p t) s
  if t = 3 then
    putTail3 p (wr (Net.TXR_HEAD p t) ((rd (Net.TXR_HEAD p t) s + 1) % ring3Size) s)
  else match txWriteStatus p t result ds s with
  | (false, s) => ringFault p t 1 (Net.TXR_STATUS p t) s
  | (true, s) =>
    let s := wr (Net.TXR_HEAD p t) ((rd (Net.TXR_HEAD p t) s + ds.length) % txSize p t s) s
    if txPosted p t s = 0 ∧ t < 3 then orReg (Net.INT_STATUS p) (16 * 2 ^ t) s else s

/-- A descriptor as read: its buffer, LEN, FLAGS, TS_ID, VLAN_TCI, SEQ. -/
structure TxDesc where
  idx : Nat
  buf : Nat
  len : Nat
  flags : Nat
  tsId : Nat
  tci : Nat
  seq : Nat

def parseTx (i : Nat) (b : List Byte) : TxDesc :=
  let at_ (o n : Nat) := leNat ((b.drop o).take n)
  ⟨i, at_ 0 8, at_ 8 2, at_ 10 2, at_ 12 2, at_ 14 2, at_ 24 4 % 2 ^ 14⟩

/-- The descriptors from i on, up to EOF; none where a read faults; whether EOF was met. -/
def txDescs (p t : Nat) : Nat → Nat → List TxDesc → State → Option (List TxDesc × Bool) × State
  | 0, _, acc, s => (some (acc, false), s)
  | n + 1, i, acc, s =>
    match ioRead (netStream p) (txDescVa p t i s) 32 s with
    | (none, s) => (none, s)
    | (some b, s) =>
      let d := parseTx i b
      if d.flags % 2 = 1 then (some (acc ++ [d], true), s) else txDescs p t n (i + 1) (acc ++ [d]) s

/-- The bytes the descriptors name. -/
def txRead (p : Nat) : List TxDesc → List Byte → State → Option (List Byte) × State
  | [], acc, s => (some acc, s)
  | d :: rest, acc, s =>
    match ioRead (netStream p) d.buf d.len s with
    | (none, s) => (none, s)
    | (some bs, s) => txRead p rest (acc ++ bs) s

/-- R297: does a frame ask for what only IPv4 with UDP can have. -/
def txBadFlags (flags : Nat) (bs : List Byte) : Bool :=
  (flags.testBit 2 || flags.testBit 3 || flags.testBit 5) && !isUdp bs (headerOf bs)

/-- A frame's descriptors are known: it is read whole, or refused. -/
def txFetched (p t : Nat) (ds : List TxDesc) (s : State) : State :=
  let is := ds.map TxDesc.idx
  if 16 < ds.length ∨ maxFrame p s - 4 < (ds.map TxDesc.len).sum then txComplete p t rBadDesc is s
  else match txRead p ds [] s with
    | (none, s) => logPerNode 0x0706 t p oneSecond [] (txComplete p t rFault is s)
    | (some bs, s) =>
      let d := ds.headD ⟨0, 0, 0, 0, 0, 0, 0⟩
      if txBadFlags d.flags bs then txComplete p t rBadDesc is s
      else if !netLink p s then txComplete p t rLinkDown is s
      else setTxFrame p t (some ⟨is, d.flags, d.tsId, d.tci, d.seq, bs⟩) s

/-- R299: preamble, frame, FCS and inter-frame gap, in 0.1 ns. -/
def wireTime (p len : Nat) (s : State) : Nat := ceilDiv ((len + 24) * byteTime (netMode p s)) 10
def txLen (x : NetFrame) : Nat := max 60 (x.bytes.length + 4 * b2n (x.flags.testBit 4))
/-- The same in the counter's units. -/
def wireCnt (p len : Nat) (s : State) : Nat := ceilDiv (wireTime p len s * incr s) timeClk

/-- The next beat instant (R317). -/
def nextBeat (s : State) : Nat := (s.cnt / nsUnits 250000 + 1) * nsUnits 250000

/-- R289, R318: the next frame of ring 3: one that Renro has posted; on T0 else a mirror frame, if it
ends before the next beat instant. -/
def ring3Next (p : Nat) (s : State) : Option (NetFrame × State) :=
  match (netPort p s).out with
  | f :: rest => some (f, updNetPort p (fun x => { x with out := rest }) s)
  | [] =>
    match s.red.mirOut with
    | b :: rest =>
      if p = 3 ∧ s.cnt + wireCnt 3 b.length s ≤ nextBeat s then
        some (⟨[], 0, 0, 0, b2n rest.isEmpty, b⟩, { s with red := { s.red with mirOut := rest } })
      else none
    | [] => none

/-- A frame of ring 3 is in the port's buffer, or completes with what R297 says. -/
def ring3Fetch (p : Nat) (s : State) : State :=
  match ring3Next p s with
  | none => s
  | some (f, s) =>
    let s := putTail3 p (setTxFrame p 3 (some f) s)
    if maxFrame p s - 4 < f.bytes.length then txComplete p 3 rBadDesc [] s
    else if !netLink p s then txComplete p 3 rLinkDown [] s
    else s

/-- TX_FRAME_FETCH (R297): the next posted frame of a ring whose buffer is empty. -/
def txFetch (p t : Nat) (s : State) : State :=
  if shed s || !netEnabled p s || txState p t s != 1 || (txFrameOf p t s).isSome
      || ((netPort p s).sending.bind NetSend.ring) == some t then s
  else if t = 3 then ring3Fetch p s
  else
    match txDescs p t (txPosted p t s) (rd (Net.TXR_HEAD p t) s) [] s with
    | (none, s) => ringFault p t 1 (Net.TXR_STATUS p t) s
    | (some (ds, eof), s) => if eof ∨ 16 < ds.length then txFetched p t ds s else s
def execTxFrameFetch (p t : Fin 4) (s : State) : Host.Outcome State Fault Refusal :=
  atOnce (txFetch p.val t.val) s

/-! ### What is sent -/

/-- R297: the ones' complement sum of 16-bit words, big-endian. -/
def onesSum : List Byte → Nat
  | [] => 0
  | [a] => 256 * a.toNat
  | a :: b :: t => 256 * a.toNat + b.toNat + onesSum t
def fold16 (v : Nat) : Nat := let a := v % 65536 + v / 65536; a % 65536 + a / 65536
def checksum (v : Nat) : Nat := 65535 - fold16 (fold16 v)

/-- Byte i becomes b; two bytes from i become v, big-endian. -/
def setByte (i : Nat) (b : Byte) (bs : List Byte) : List Byte := bs.set i b
def setBe16 (i v : Nat) (bs : List Byte) : List Byte :=
  (bs.set i (BitVec.ofNat 8 (v / 256))).set (i + 1) (BitVec.ofNat 8 v)

def putIpSum (bs : List Byte) : List Byte :=
  let h := headerOf bs
  let z := setBe16 (h.at_ + 10) 0 bs
  setBe16 (h.at_ + 10) (checksum (onesSum ((z.drop h.at_).take (ipEnd bs h - h.at_)))) z

/-- The UDP checksum over the pseudo header and the datagram; 0 is sent as 0xFFFF. -/
def putUdpSum (bs : List Byte) : List Byte :=
  let h := headerOf bs
  let u := ipEnd bs h
  let z := setBe16 (u + 6) 0 bs
  let n := beAt (u + 4) 2 bs
  let c := checksum (onesSum ((z.drop (h.at_ + 12)).take 8) + 17 + n + onesSum ((z.drop u).take n))
  setBe16 (u + 6) (if c = 0 then 65535 else c) z

/-- R306: counter k of E131_SEQ. -/
def e131 (k : Nat) (s : State) : Nat := fld (Net.E131_SEQ (k / 4)) (8 * (k % 4) + 7) (8 * (k % 4)) s
def bumpE131 (k : Nat) (s : State) : State :=
  setFld (Net.E131_SEQ (k / 4)) (8 * (k % 4) + 7) (8 * (k % 4)) ((e131 k s + 1) % 256) s

/-- R297, R306: the bytes of a frame as sent, its FCS apart. -/
def txBytes (x : NetFrame) (s : State) : List Byte :=
  let seqAt := ipEnd x.bytes (headerOf x.bytes) + 8 + 111
  let b := if x.flags.testBit 5 then setByte seqAt (BitVec.ofNat 8 (e131 x.seqIdx s)) x.bytes else x.bytes
  let b := if x.flags.testBit 2 then putIpSum b else b
  let b := if x.flags.testBit 3 then putUdpSum b else b
  let b := if x.flags.testBit 4 then
      b.take 12 ++ [0x81, 0x00, BitVec.ofNat 8 (x.vlan / 256), BitVec.ofNat 8 x.vlan] ++ b.drop 12
    else b
  b ++ List.replicate (60 - b.length) 0

/-! ### Gates (R299) -/

/-- R299: how long the open gate t stays open under the operational list; none: for ever. -/
def gateLeftNow (p t : Nat) (s : State) : Option Nat :=
  let ws := operWindows p s
  match (netPort p s).holdTo with
  | some c => (openFrom t 0 ws).map fun k => k + (c - s.cnt)
  | none =>
    let g := gatePos p s.cnt s
    (openFrom t (g.entry + 1) ws).map fun k => k + (g.stop - cycleOff p s.cnt s)

/-- R299, R300: how long it stays open from now; a pending switch cuts the list, and the new one begins
at its entry 0. -/
def gateLeft (p t : Nat) (s : State) : Option Nat :=
  let old := gateLeftNow p t s
  match (netPort p s).switchAt with
  | none => old
  | some c =>
    let left := c - s.cnt
    if old.any fun k => decide (k < left) then old
    else
      let (_, _, cyc, len) := (netPort p s).admin
      (openFrom t 0 (gclWindows p (1 - operBank p s) (nsUnits cyc) len s)).map (· + left)

/-- The longest window of gate t; none: it never closes. -/
def longestWindow (p t : Nat) (s : State) : Option Nat :=
  let ws := operWindows p s
  (List.range (operLen p s)).foldl (fun acc i =>
    match acc, openFrom t i ws with
    | some a, some b => some (max a b)
    | _, _ => none) (some 0)

/-- May the frame in ring t's buffer start now. -/
def txEligible (p t : Nat) (s : State) : Bool :=
  match txFrameOf p t s with
  | none => false
  | some x =>
    !gclRuns p s || ((netPort p s).gates.testBit t &&
      match gateLeft p t s with
      | none => true
      | some k => decide (wireCnt p (txLen x) s ≤ k))

/-- R299: a frame longer than every window of its gate. -/
def txTooLong (p t : Nat) (s : State) : State :=
  match txFrameOf p t s with
  | none => s
  | some x =>
    if gclRuns p s then
      match longestWindow p t s with
      | some w => if w < wireCnt p (txLen x) s then txComplete p t rTooLong x.descs s else s
      | none => s
    else s

/-! ### Sending (R298) -/

def noFrame : NetFrame := ⟨[], 0, 0, 0, 0, []⟩

/-- R301, R302: a PAUSE frame from the port. -/
def pauseBytes (p q : Nat) (s : State) : List Byte :=
  let be (n v : Nat) := (leBytes n v).reverse
  be 6 0x0180C2000001 ++ be 6 (rd (Net.MAC_ADDR p) s) ++ be 2 0x8808 ++ be 2 1 ++ be 2 q
    ++ List.replicate 42 0

def sendPause (p q : Nat) (s : State) : State :=
  updNetPort p (fun x =>
    { x with
      pause := none
      sending := some ⟨none, noFrame, pauseBytes p q s, s.clk + wireTime p 60 s⟩ }) s

/-- R306: the sequence number is taken as the frame starts. -/
def sendRing (p t : Nat) (x : NetFrame) (s : State) : State :=
  let b := txBytes x s
  let s := if x.flags.testBit 5 then bumpE131 x.seqIdx s else s
  updNetPort p (fun q =>
    { q with
      tx := kset none t none q.tx
      sending := some ⟨some t, x, b, s.clk + wireTime p b.length s⟩ }) s

/-- TX_FRAME_START (R298): at a frame boundary. -/
def txStart (p : Nat) (s : State) : State :=
  if !netUp p s || (netPort p s).sending.isSome then s
  else match (netPort p s).pause with
    | some q => sendPause p q s
    | none =>
      let s := upTo 4 (txTooLong p) s
      if s.clk < (netPort p s).heldUntil then s
      else match [3, 2, 1, 0].find? fun t => txEligible p t s with
        | none => s
        | some t => match txFrameOf p t s with
          | none => s
          | some x => sendRing p t x s
def execTxFrameStart (p : Fin 4) (s : State) : Host.Outcome State Fault Refusal :=
  atOnce (txStart p.val) s

/-- R317: the last frame of a whole set has left. -/
def mirrorSent (s : State) : State :=
  match s.red.mirSeq with
  | some k => { s with red := { s.red with mirSent := k, mirSeq := none } }
  | none => s

/-- R270, R272: Renro takes the timestamp of its own frame out of the port's queue, wherever it stands
(DESIGN CHOICE, log entry 131); one that found the queue full is lost. -/
def renroTakes (p id : Nat) (t : Int) (step : Nat) (s : State) : State :=
  let q := tsqOf p s
  let own (e : TsEntry) : Bool := e.ring == 3 && e.id == id
  if q.any own then ptpSent p id t step (putTsq p (q.filter fun e => !own e) s) else s

/-- TX_FRAME_DONE (R297, R272): the frame has left; `back` is how long before that (2^-16 ns) its
raw timestamp was captured. -/
def txDone (p back : Nat) (s : State) : State :=
  match (netPort p s).sending with
  | none => s
  | some x =>
    let s := updNetPort p (fun q => { q with sending := none }) s
    let s := bump64 (Net.TX_BYTES p) (x.bytes.length + 4) (bump (Net.TX_FRAMES p) s)
    match x.ring with
    | none => bump (Net.TX_PAUSE p) s
    | some t =>
      let s := txComplete p t rSent x.frame.descs s
      let s := if p = 3 ∧ t = 3 ∧ x.frame.seqIdx = 1 then mirrorSent s else s
      if x.frame.flags.testBit 1 then
        let (raw, step) := captureBack (back * 2 ^ 16) s
        let c := raw + fld (Time.TS_TX_LAT p) 23 0 s * 2 ^ 24
        let s := tsqAdd p { id := x.frame.tsId, sec := c / 2 ^ 32 / 1000000000 % 2 ^ 48,
                            ns := c / 2 ^ 32 % 1000000000, sub := c / 2 ^ 16 % 2 ^ 16,
                            step := step, ring := t } s
        if t = 3 then renroTakes p x.frame.tsId ((c / 2 ^ 16 : Nat) : Int) step s else s
      else s
def execTxFrameDone (p : Fin 4) (back : BitVec 48) (s : State) : Host.Outcome State Fault Refusal :=
  match (netPort p.val s).sending with
  | none => atOnce id s
  | some x => timed (hopClk x.endAt) (txDone p.val back.toNat) s

/-- R297: a write of TXR_CTRL. -/
def txrCtrlWrite (p t : Nat) (who : Req) (v : Nat) (s : State) : State :=
  ringWriter who t (fun s =>
    let s := ringCtrl p (Net.TXR_CTRL p t) (Net.TXR_STATUS p t) (Net.TXR_HEAD p t)
      (bitsOf v 7 4 * 16 + v % 2) s
    if v.testBit 0 then s else setTxFrame p t none s) s

/-! ### Gate lists: changes and switches (R299, R300) -/

/-- GATE_CHANGE: the next entry, or the cycle boundary that ends a hold (R279). -/
def gateHop (p : Nat) (s : State) : State :=
  match (netPort p s).holdTo with
  | some c => hopCnt c s
  | none => hopCnt (s.cnt - cycleOff p s.cnt s + (gatePos p s.cnt s).stop) s
def gateChange (p : Nat) (s : State) : State :=
  putGates p (gatePos p s.cnt s).entry (updNetPort p (fun x => { x with holdTo := none }) s)
def execGateChange (p : Fin 4) (s : State) : Host.Outcome State Fault Refusal :=
  if gclRuns p.val s then timed (gateHop p.val) (gateChange p.val) s else atOnce id s

/-- R300: the failing check of the admin list, in the rule's order. -/
def gclCheck (p : Nat) (s : State) : Option Nat :=
  let len := rd (Net.ADMIN_LEN p) s
  let cyc := rd (Net.ADMIN_CYCLE p) s
  if len < 1 ∨ 64 < len then some 0
  else if cyc < 1000 ∨ 1000000000 < cyc then some 1
  else if (List.range len).any fun i => rd (Net.GCL_ENTRY p (1 - operBank p s) i) s / 16 == 0 then some 2
  else none

/-- R300: SWITCH is set. -/
def gclSwitchCmd (p : Nat) (s : State) : State :=
  if (netPort p s).switchAt.isSome then orReg (Net.PORT_ERR p) 4 s
  else match gclCheck p s with
    | some k => logEv 0x070A p (p1 k) (orReg (Net.PORT_ERR p) 2 s)
    | none =>
      let sec := rd (Net.ADMIN_BASE_SEC p) s
      let ns := rd (Net.ADMIN_BASE_NS p) s
      let base := nsUnits (sec * 1000000000 + ns)
      let cyc := nsUnits (rd (Net.ADMIN_CYCLE p) s)
      let t := s.cnt + nsUnits 1000
      let k := ceilDiv (t - base) cyc
      updNetPort p (fun x =>
        { x with
          switchAt := some (base + k * cyc)
          admin := (sec, ns, rd (Net.ADMIN_CYCLE p) s, rd (Net.ADMIN_LEN p) s) })
        (setBit (Net.GCL_CTRL p) 1 true s)

/-- R289: the gate list of T0 belongs to Renro. -/
def gclWriter (p : Nat) (who : Req) (f : State → State) (s : State) : State := ringWriter who p f s

def execGclSwitchCmd (p : Fin 4) (who : Req) (s : State) : Host.Outcome State Fault Refusal :=
  atOnce (gclWriter p.val who (gclSwitchCmd p.val)) s

/-- GCL_SWITCH (R300): the checked list becomes operational. -/
def gclSwitch (p : Nat) (s : State) : State :=
  let (sec, ns, cyc, len) := (netPort p s).admin
  let s := updNetPort p (fun x =>
    { x with
      switchAt := none
      holdTo := none
      listed := x.listed || bit (Net.GCL_CTRL p) 0 s }) s
  let s := setBit (Net.GCL_STATUS p) 0 (operBank p s = 0) (setBit (Net.GCL_CTRL p) 1 false s)
  let s := wr (Net.OPER_BASE_NS p) ns (wr (Net.OPER_BASE_SEC p) sec s)
  let s := wr (Net.OPER_LEN p) len (wr (Net.OPER_CYCLE p) cyc s)
  let s := orReg (Net.INT_STATUS p) 0x400 s
  let s := logEv 0x0709 p (p1 p ++ p8 (sec * 1000000000 + ns)) s
  if gclRuns p s then putGates p (gatePos p s.cnt s).entry s else s
def execGclSwitch (p : Fin 4) (s : State) : Host.Outcome State Fault Refusal :=
  match (netPort p.val s).switchAt with
  | none => atOnce id s
  | some c => timed (hopCnt c) (gclSwitch p.val) s

/-- R300: a write of GCL_CTRL: clearing ENABLE opens every gate. -/
def gclCtrlWrite (p : Nat) (who : Req) (v : Nat) (s : State) : State :=
  gclWriter p who (fun s =>
    let was := bit (Net.GCL_CTRL p) 0 s
    let s := setBit (Net.GCL_CTRL p) 0 (v.testBit 0) s
    let s := if was && !v.testBit 0 then
        updNetPort p (fun x =>
          { x with
            listed := false
            gates := 15
            holdTo := none }) s
      else s
    if v.testBit 1 then gclSwitchCmd p s else s) s

/-- R300: a write of a list entry; the operational bank's are refused. -/
def gclEntryWrite (p b i : Nat) (who : Req) (v : Nat) (s : State) : State :=
  gclWriter p who (fun s =>
    if b = operBank p s then orReg (Net.PORT_ERR p) 4 s else wr (Net.GCL_ENTRY p b i) v s) s

/-! ### XOFF (R302) -/

def xoffBit (c : Bool) (k : Nat) : Nat := if c then 2 ^ k else 0
/-- Rings 0 to 2 with XOFF_SRC that hold fewer than RING_LOW buffers. -/
def ringsLow (p : Nat) (s : State) : Bool :=
  (List.range 3).any fun r => bit (Net.RXR_CTRL p r) 2 s && decide (rxPosted p r s < fld (Net.RXR_CTRL p r) 31 20 s)
/-- BPNk asserted in some slice, for a bit of BPN_MASK. -/
def bpnAsserts (p : Nat) (s : State) : Bool :=
  (bitList 8 (fld (Net.XOFF_CFG p) 31 24 s)).any fun k => (List.range 4).any fun sl => bpNet sl k s

/-- R288: the receive FIFO of a port, in bytes. -/
def fifoSize (p : Nat) : Nat := if p < 2 then 262144 else 32768

/-- R302: the sources that assert, by the FIFO's bytes and the write queues' levels (1/256) of the flows
that the port feeds. -/
def xoffAsserts (p fifo : Nat) (qs : List (Nat × Nat)) (s : State) : Nat :=
  xoffBit (fld (Net.XOFF_CFG p) 15 8 s * fifoSize p ≤ 256 * fifo) 0 + xoffBit (ringsLow p s) 1
    + xoffBit (qs.any fun q => flowFed q.1 p s && decide (192 < q.2)) 2 + xoffBit (bpnAsserts p s) 3
/-- R302: the sources that release. -/
def xoffReleases (p fifo : Nat) (qs : List (Nat × Nat)) (s : State) : Nat :=
  xoffBit (256 * fifo ≤ fld (Net.XOFF_CFG p) 23 16 s * fifoSize p) 0 + xoffBit (!ringsLow p s) 1
    + xoffBit (qs.all fun q => !flowFed q.1 p s || decide (q.2 ≤ 128)) 2 + xoffBit (!bpnAsserts p s) 3
/-- The sources that XOFF_CFG enables. -/
def xoffEnabled (p : Nat) (s : State) : Nat := fld (Net.XOFF_CFG p) 3 0 s

def askPause (p q : Nat) (s : State) : State :=
  if bit (Net.PORT_CTRL p) 6 s then
    updNetPort p (fun x =>
      { x with
        pause := some q
        xoffAt := s.clk }) s
  else updNetPort p (fun x => { x with xoffAt := s.clk }) s

/-- XOFF_ENTER: an enabled source asserts. -/
def xoffEnter (p fifo : Nat) (qs : List (Nat × Nat)) (s : State) : State :=
  let src := xoffAsserts p fifo qs s &&& xoffEnabled p s
  if src = 0 ∨ ¬ netEnabled p s then s
  else
    let s := orReg (Net.XOFF_STATUS p) src s
    if bit (Net.PORT_STATUS p) 2 s then s
    else
      let s := orReg (Net.INT_STATUS p) 0x200 (setBit (Net.PORT_STATUS p) 2 true s)
      logPer 0x0707 p oneSecond (p1 src) (askPause p (fld (Net.PAUSE_CFG p) 15 0 s) s)
/-- The levels an XOFF command reports. -/
def queueLevels (qs : List (Fin 32 × BitVec 9)) : List (Nat × Nat) := qs.map fun q => (q.1.val, q.2.toNat)
def execXoffEnter (p : Fin 4) (fifo : BitVec 19) (queues : List (Fin 32 × BitVec 9)) (s : State) :
    Host.Outcome State Fault Refusal :=
  atOnce (unlessShed (xoffEnter p.val fifo.toNat (queueLevels queues))) s

/-- XOFF_REFRESH: REFRESH us in XOFF. -/
def execXoffRefresh (p : Fin 4) (s : State) : Host.Outcome State Fault Refusal :=
  if bit (Net.PORT_STATUS p.val) 2 s && !shed s then
    timed (fun s => hopClk ((netPort p.val s).xoffAt + realNs (fld (Net.PAUSE_CFG p.val) 31 16 s * 1000)) s)
      (fun s => askPause p.val (fld (Net.PAUSE_CFG p.val) 15 0 s) s) s
  else atOnce id s

/-- XOFF_LEAVE: sources release, each at its own level, or are no longer enabled. -/
def xoffLeave (p fifo : Nat) (qs : List (Nat × Nat)) (s : State) : State :=
  if bit (Net.PORT_STATUS p) 2 s then
    let on := rd (Net.XOFF_STATUS p) s &&& xoffEnabled p s
    let left := on ^^^ (on &&& xoffReleases p fifo qs s)
    let s := wr (Net.XOFF_STATUS p) left s
    if left = 0 then
      askPause p 0 (orReg (Net.INT_STATUS p) 0x200 (setBit (Net.PORT_STATUS p) 2 false s))
    else s
  else s
def execXoffLeave (p : Fin 4) (fifo : BitVec 19) (queues : List (Fin 32 × BitVec 9)) (s : State) :
    Host.Outcome State Fault Refusal :=
  atOnce (unlessShed (xoffLeave p.val fifo.toNat (queueLevels queues))) s

/-! ### Links (R288) -/

/-- NET_LINK_UP; `pause`: the partner advertised PAUSE.  U0 and U1 have no autonegotiation. -/
def netLinkUp (p : Nat) (pause : Bool) (s : State) : State :=
  if shed s || !netEnabled p s || netLink p s then s
  else
    let s := setBit (Net.PORT_STATUS p) 3 (2 ≤ p && bit (Net.PORT_CTRL p) 8 s) (setBit (Net.PORT_STATUS p) 0 true s)
    let s := setBit (Net.PORT_STATUS p) 4 pause s
    logEv 0x0701 p (p1 p ++ p1 (netMode p s)) (orReg (Net.INT_STATUS p) 0x100 s)
def execNetLinkUp (p : Fin 4) (pause : Bool) (s : State) : Host.Outcome State Fault Refusal :=
  atOnce (netLinkUp p.val pause) s

/-- The link is lost: a frame under way completes with LINK_DOWN and has no timestamp. -/
def netDrop (p : Nat) (s : State) : State :=
  let x := netPort p s
  let s := updNetPort p (fun q =>
    { q with
      sending := none
      heldUntil := 0 }) s
  let s := setFld (Net.PORT_STATUS p) 4 3 0 (setFld (Net.PORT_STATUS p) 1 0 0 s)
  let s := match x.sending with
    | some ⟨some t, f, _, _⟩ => txComplete p t rLinkDown f.descs s
    | _ => s
  let s := upTo 4 (fun t s => match txFrameOf p t s with
    | some f => txComplete p t rLinkDown f.descs s
    | none => s) s
  orReg (Net.INT_STATUS p) 0x100 s

/-- cause: 0 LOSS, 1 SPEED, 2 DISABLED. -/
def netLinkDown (p cause : Nat) (s : State) : State :=
  let log (s : State) := logEv 0x0702 p (p1 p ++ p1 cause) s
  if netLink p s then log (netDrop p s)
  else if cause = 1 ∧ p = 2 ∧ netMode p s = 3 ∧ netEnabled p s then log s
  else s
def execNetLinkDown (p : Fin 4) (speed : Bool) (s : State) : Host.Outcome State Fault Refusal :=
  atOnce (netLinkDown p.val (b2n speed)) s

/-! ### Port control (R288, R308) -/

/-- The modes a port has. -/
def modeOk (p m : Nat) : Bool :=
  if p < 2 then m < 2 else if p = 2 then m = 2 || m = 3 else m = 2

/-- R288: the FEC a port has in a mode: Clause 74 on U0 and U1, Clause 108 in 25GBASE-R alone. -/
def fecOk (p m f : Nat) : Bool := f == 0 || decide (p < 2) && (f == 1 || f == 2 && m == 0)

/-- R308: a write of PORT_CTRL: MODE, FEC and MAX_FRAME only while ENABLE is 0; on T0 the PAUSE
enables belong to Renro (R289).  A change of MODE or FEC has Renro rewrite the latencies (R288). -/
def portCtrlWrite (p : Nat) (who : Req) (v : Nat) (s : State) : State :=
  let old := rd (Net.PORT_CTRL p) s
  let was := old.testBit 0
  let take (hi lo : Nat) (ok : Bool) (acc : Nat × Bool) : Nat × Bool :=
    if bitsOf v hi lo = bitsOf old hi lo then (acc.1, acc.2 || (!was && !ok))
    else if was || !ok then (acc.1, true) else (putBits acc.1 hi lo (bitsOf v hi lo), acc.2)
  let x := (old, false)
  let x := take 2 1 (modeOk p (bitsOf v 2 1) && fecOk p (bitsOf v 2 1) (bitsOf v 4 3)) x
  let x := take 4 3 (fecOk p (bitsOf x.1 2 1) (bitsOf v 4 3)) x
  let x := take 29 16 (1518 ≤ bitsOf v 29 16 && bitsOf v 29 16 ≤ 9600) x
  let r := putBits (putBits x.1 0 0 v) 8 7 (bitsOf v 8 7)
  let r := if p = 3 ∧ who = .host then r else putBits r 6 5 (bitsOf v 6 5)
  let s := if x.2 then orReg (Net.PORT_ERR p) 1 s else s
  let s := wr (Net.PORT_CTRL p) r s
  let s := if bitsOf r 4 1 = bitsOf old 4 1 then s else putPortLatency p s
  if was && !v.testBit 0 then netLinkDown p 2 s else s

end Sys2Proof.Machine
end

