-- ==== Sys2Proof/Machine/Twin.lean ====
section
/-! DEFINITION. Twin operation (chapter 11): beats, failure rules, roles, mirror sets, takeover, the
interlock, the planned switch. -/

namespace Sys2Proof.Machine

def updRed (f : RedSt → RedSt) (s : State) : State := { s with red := f s.red }

/-! ### Mirror sets: building (R321 to R323) -/

/-- R322: a record. -/
def mirRec (type : Nat) (body : List Byte) : List Byte := p1 type ++ leBytes 3 body.length ++ body

def showBody (s : State) : List Byte :=
  p8 (rd Red.SHOW_ORIGIN s) ++ p8 (rd Red.SHOW_HELD s) ++ p4 (rd Red.SHOW_CTRL s) ++ p4 0
    ++ (List.range 32).flatMap fun i => p4 (rd (Red.SHOW_WORD i) s)
/-- R342: duties, then ENG_ORIGIN, ENG_CTRL and ENG_STATUS of each engine. -/
def ledBody (s : State) : List Byte :=
  ((List.range 48).flatMap fun c => p4 (rd (Led.CH_DUTY c) s))
    ++ (List.range 8).flatMap fun e =>
      p8 (rd (Led.ENG_ORIGIN e) s) ++ p4 (rd (Led.ENG_CTRL e) s) ++ p4 (rd (Led.ENG_STATUS e) s)
def latBody (p : Nat) (s : State) : List Byte :=
  p4 p ++ (List.range 64).flatMap fun k => p4 (nodeLat p k s)

/-- R142: the CTRL word of a task's descriptor, START as given. -/
def descCtrl (e : Desc) (start : Nat) : Nat :=
  e.entry + 2 ^ 8 * e.wg + 2 ^ 11 * e.flow + 2 ^ 17 * b2n e.flowValid + 2 ^ 18 * start
    + 2 ^ 20 * b2n e.mirrorTag + 2 ^ 21 * b2n e.notify + 2 ^ 24 * e.cost
def delayBody (d : Nat) (s : State) : List Byte :=
  let e := descAt d s
  p4 (descCtrl e 1) ++ p4 e.image ++ p8 e.due
    ++ ((List.range 4).flatMap fun j => p8 (e.args.getD j 0).toNat)
    ++ p8 e.tag ++ p8 e.icount ++ p8 e.due ++ p8 (descSlice d)

def imageAt (i : Nat) (s : State) : Option Image := kget none i s.host.images
def buildIdOf (i : Nat) (s : State) : Nat := match imageAt i s with | some m => m.buildId | none => 0

/-- R322: the 32 bytes of identity (DESIGN CHOICE, log entry 80: their widths). -/
def ctxIdent (d : Nat) (s : State) : List Byte :=
  let e := descAt d s
  p8 (buildIdOf e.image s) ++ p1 e.entry ++ p1 (descSlice d) ++ p1 e.wg ++ p1 0 ++ p4 e.tag
    ++ p8 (e.args.getD 0 0).toNat ++ p8 (e.args.getD 1 0).toNat

/-- R321 item 5: the state of a task that can be captured: a WAITING context, one whose wait ended on
this very clock included; a save slot, read through stream 0xA0 (R322), where the read does not fault. -/
def capture (d : Nat) (s : State) : Option (List Byte) × State :=
  let e := descAt d s
  let held (k : Nat) (c : Ctx) := some (stateBytes c ++ tlmBytes k 0 c.tlmLimit s)
  match e.ctx, e.slot with
  | some k, _ =>
    let c := ctxAt k s
    if c.st = .waiting then (held k c, s)
    else match stillWoke k s with
      | some w => (held k w.was, s)
      | none => (none, s)
  | none, some i =>
    let a := slotAddr (descSlice d) i s
    match ioRead 0xA0 a 0x960 s with
    | (none, s) => (none, s)
    | (some x, s) => match ioRead 0xA0 (a + 0x1000) (taskEntry d s).tlmLimit s with
      | (none, s) => (none, s)
      | (some y, s) => (some (x ++ y), s)
  | none, none => (none, s)

/-- The tasks of MIRRORED entries that have not ended. -/
def mirroredTasks (s : State) : List Nat :=
  (s.descs.map Prod.fst).filter fun d => !hasEnded d s && (taskEntry d s).mirrored
def taggedDelays (s : State) : List Nat :=
  (s.descs.map Prod.fst).filter fun d => (descAt d s).st == .delayed && (descAt d s).mirrorTag

/-- R321: a task's CONTEXT record; of a task that is skipped the record captured last is sent again, so
that it stands (DEDUCED, log entry 117). -/
def captureTask (d : Nat) (s : State) : State :=
  let (o, s) := capture d s
  let gen := (descAt d s).gen
  match o with
  | some b =>
    updRed (fun r => { r with captured := kset none d (some (gen, ctxIdent d s ++ b)) r.captured }) s
  | none =>
    let old := (kget none d s.red.captured).filter fun x => x.1 == gen
    bump Red.MIRROR_SKIPS (updRed (fun r => { r with captured := kset none d old r.captured }) s)

/-- The tasks of a set are captured; what was captured of others is dropped. -/
def captureAll (s : State) : State :=
  let ds := mirroredTasks s
  let s := updRed (fun r => { r with captured := r.captured.filter fun p => ds.contains p.1 }) s
  forAll captureTask ds s

/-- R321: the records of a set, after SET_BEGIN and before SET_END. -/
def setRecords (s : State) : List (List Byte) :=
  [mirRec 0x10 (showBody s), mirRec 0x11 (ledBody s)]
    ++ (bitList 32 (rd Red.TWIN_PORTS s)).map (fun p => mirRec 0x12 (latBody p s))
    ++ (taggedDelays s).map (fun d => mirRec 0x13 (delayBody d s))
    ++ (mirroredTasks s).filterMap fun d => (kget none d s.red.captured).map fun x => mirRec 0x14 x.2

/-- The records from the front that fit in n bytes. -/
def fitting : Nat → List (List Byte) → List (List Byte)
  | _, [] => []
  | n, r :: t => if r.length ≤ n then r :: fitting (n - r.length) t else []

/-- R323: MIRROR_BUDGET for the present period. -/
def mirrorBudget (s : State) : Nat :=
  min (4 * 1048576) (26952 * (periodNum s / (max 1 (periodDen s) * 250000) - 1))

/-- R322: the set in pieces of at most 8,984 bytes. -/
def setPieces : Nat → List Byte → List (List Byte)
  | 0, _ => []
  | n + 1, bs => if bs.isEmpty then [] else bs.take 8984 :: setPieces n (bs.drop 8984)

def beatDst : Nat := 0x03544B580001
/-- R322: a mirror frame without its FCS.  The layout of its header, and its address: DESIGN CHOICE,
log entry 132. -/
def mirrorBytes (seq i : Nat) (piece : List Byte) (s : State) : List Byte :=
  etherFrame 3 beatDst 0x88B5 (p1 1 ++ p1 2 ++ p2 0 ++ p4 seq ++ p4 i ++ p4 0 ++ piece) s

/-- R321, R323: at S_n of slice 0 the active builds set n; its frames wait to be posted (R318). -/
def buildSet (n : Nat) (s : State) : State :=
  if roleOf s ≠ rActive ∨ ¬ s.red.paired ∨ activationPaused s then s
  else
    let s := captureAll s
    let rs := setRecords s
    let seq := (rd Red.MIRROR_SEQ_TX s + 1) % 2 ^ 32
    let total := 20 + (rs.map List.length).sum + 8
    let head := mirRec 0x01 (p4 seq ++ p4 n ++ p4 (rs.length + 2) ++ p4 total)
    let budget := rd Red.MIRROR_BUDGET s
    let cut := budget < total
    let sent := head ++ (if cut then fitting (budget - 28) rs else rs).flatten
    let set := sent ++ p1 0x1F ++ leBytes 3 (4 + 2 ^ 23 * b2n cut) ++ p4 (crc32c sent)
    let frames := (setPieces (set.length / 8984 + 1) set).zipIdx.map fun x => mirrorBytes seq x.2 x.1 s
    let s := updRed (fun r =>
      { r with
        txSet := set
        mirOut := frames
        mirSeq := if cut then none else some seq }) s
    let s := wr Red.MIRROR_BYTES set.length (wr Red.MIRROR_SEQ_TX seq s)
    if cut then
      logPer 0x0A09 noInst oneSecond (p4 total ++ p4 budget) (bump Red.MIRROR_OVERRUNS s)
    else s

/-! ### Mirror sets: receiving (R324) -/

/-- The records of a set up to SET_END: type, LEN field, body. -/
def parseSet : Nat → List Byte → List (Nat × Nat × List Byte)
  | 0, _ => []
  | n + 1, bs =>
    if bs.length < 4 then []
    else
      let len := at_ 1 3 bs
      let k := len % 2 ^ 23
      let r := (at_ 0 1 bs, len, (bs.drop 4).take k)
      if r.1 = 0x1F then [r] else r :: parseSet n (bs.drop (4 + k))

/-- R324: is a set complete and unbroken: its records.  What follows SET_END is padding. -/
def goodSet (bs : List Byte) : Option (List (Nat × Nat × List Byte)) :=
  let rs := parseSet bs.length bs
  let n := (rs.map fun r => 4 + r.2.1 % 2 ^ 23).sum
  match rs.head?, rs.getLast? with
  | some (0x01, _, h), some (0x1F, 4, c) =>
    if c.length = 4 ∧ leNat c = crc32c (bs.take (n - 8)) ∧ at_ 8 4 h = rs.length then some rs else none
  | _, _ => none

def parseCtx (b : List Byte) : MirCtx :=
  { buildId := at_ 0 8 b, entry := at_ 8 1 b, slice := at_ 9 1 b % 4, wg := at_ 10 1 b % 8,
    tag := at_ 12 4 b, arg0 := at_ 16 8 b, arg1 := at_ 24 8 b,
    state := (b.drop 32).take 0x960, tlm := b.drop (32 + 0x960) }
def parseDelay (b : List Byte) : MirDelay := ⟨b.take 64, at_ 64 8 b, at_ 72 8 b % 4⟩

def applyShow (b : List Byte) (s : State) : State :=
  let s := wr Red.SHOW_CTRL (at_ 16 4 b % 2) (wr Red.SHOW_HELD (at_ 8 8 b) (wr Red.SHOW_ORIGIN (at_ 0 8 b) s))
  upTo 32 (fun i s => wr (Red.SHOW_WORD i) (at_ (24 + 4 * i) 4 b) s) s
/-- R7: reserved bits of what the record gives are not taken. -/
def applyLed (b : List Byte) (s : State) : State :=
  let s := upTo 48 (fun c s => wr (Led.CH_DUTY c) (at_ (4 * c) 2 b) (noteLedWrite c s)) s
  upTo 8 (fun e s =>
    wr (Led.ENG_STATUS e) (at_ (204 + 16 * e) 4 b &&& 0xFF7FFFFF)
      (wr (Led.ENG_CTRL e) (at_ (200 + 16 * e) 4 b &&& 0xFF1F7F01)
        (wr (Led.ENG_ORIGIN e) (at_ (192 + 16 * e) 8 b) s))) s
/-- R324: a latency word plus HOP_SKEW, clamped at 0. -/
def skewed (p v : Nat) (s : State) : Nat :=
  putBits (v &&& 0xC0FFFFFF) 23 0 (((latTicks v : Int) + sgn 24 (rd (Red.HOP_SKEW p) s)).toNat)
def applyLat (b : List Byte) (s : State) : State :=
  let p := at_ 0 4 b % 32
  putFarthest p (upTo 64 (fun k s =>
    wr (Trunk.NODE_LAT (pSl p) (pPl p) k) (skewed p (at_ (4 + 4 * k) 4 b) s) s) (keepLeft p s))

def applyRecord (r : Nat × Nat × List Byte) (s : State) : State :=
  match r.1 with
  | 0x10 => applyShow r.2.2 s
  | 0x11 => applyLed r.2.2 s
  | 0x12 => applyLat r.2.2 s
  | _ => s

/-- R324: a good set is applied; it takes the place of the set before. -/
def applySet (rs : List (Nat × Nat × List Byte)) (s : State) : State :=
  let h := match rs with
    | r :: _ => r.2.2
    | [] => []
  let ctxs := (rs.filter fun r => r.1 == 0x14).map fun r => parseCtx r.2.2
  let bad := ctxs.find? fun c => (imageOfBuild c.buildId s).isNone
  let s := match bad with
    | some c => logPer 0x0A0A noInst oneMinute (p8 c.buildId) s
    | none => s
  let ctxs := if bad.isSome then [] else ctxs
  let s := forAll applyRecord rs s
  let s := updRed (fun r =>
    { r with
      delays := (rs.filter fun r => r.1 == 0x13).map fun r => parseDelay r.2.2
      contexts := ctxs
      appliedFrame := some (at_ 4 4 h) }) s
  setBit Red.RED_STATUS 7 true (wr Red.MIRROR_SEQ_APPLIED (at_ 0 4 h) s)

/-- MIRROR_FRAME_RECEIVED (R322, R324): a frame of set seq. -/
def mirrorFrame (seq index : Nat) (body : List Byte) (s : State) : State :=
  let r := s.red
  if roleOf s ≠ rStandby then s
  else if index ≠ 0 ∧ (r.rxSeq ≠ some seq ∨ r.rxNext ≠ index) then
    updRed (fun r => { r with rxSeq := none, rxBytes := [] }) s
  else
    let bs := (if index = 0 then [] else r.rxBytes) ++ body
    let s := updRed (fun r => { r with rxSeq := some seq, rxNext := index + 1, rxBytes := bs }) s
    match goodSet bs with
    | some rs => updRed (fun r => { r with rxSeq := none, rxBytes := [] }) (applySet rs s)
    | none => s
def execMirrorFrameReceived (seq index : BitVec 32) (body : List Byte) (s : State) :
    Host.Outcome State Fault Refusal :=
  atOnce (unlessShed (mirrorFrame seq.toNat index.toNat body)) s

/-! ### Takeover (R326, R327) -/

/-- R326 step 1. -/
def killMirrored (s : State) : State :=
  forAll (fun d s =>
    if cancellable d s then cancelTask d s
    else if hasEnded d s || (schedAt (descSlice d) s).endings.contains d then s
    else killTask d s) (mirroredTasks s ++ taggedDelays s) s

/-- R326 step 3. -/
def submitDelay (r : MirDelay) (s : State) : State :=
  let u : Sub :=
    { src := .host, ctrl := putBits (at_ 0 4 r.desc) 19 18 1, image := at_ 4 4 r.desc, start := r.due
      args := (List.range 4).map fun j => BitVec.ofNat 64 (at_ (0x10 + 8 * j) 8 r.desc)
      tag := at_ 0x30 8 r.desc, tail := 0, badSpec := false }
  (submit r.slice u s).2

/-- R327 step 4: Renro sets PROBE_EN. -/
def probeAll (s : State) : State :=
  forAll (fun p s => setBit (trkCtrl p) 1 true s) (bitList 32 (rd Red.TWIN_PORTS s)) s

/-- R326: what Renro makes of the last applied set; before SYNCED the module's own copies of the
mirrored tasks go on (R337). -/
def instantiateAll (s : State) : State :=
  let s := probeAll s
  if !bit Red.RED_STATUS 7 s then s
  else
    let r := s.red
    let s := updRed (fun q => { q with toMake := r.contexts }) (killMirrored s)
    forAll submitDelay r.delays (upTo 4 makeTasks s)

/-- R330, R334: whatever way of taking the sinks now holds. -/
def trySinksAll (s : State) : State :=
  match s.red.handover with
  | some c => if roleOf s = rActive ∧ c ≤ s.cnt then takeSinks wHandover s else trySinks s
  | none => trySinks s

/-- R309, R310: the module becomes ACTIVE: its epoch is raised, then the role changes. -/
def becomeActive (cause : Nat) (s : State) : State := setRole rActive cause (raiseEpoch s)

/-- A switch ends: SWITCH_STATUS, SWITCH_END, SWITCH_DONE with h, or all ones where abandoned. -/
def switchEnd (status h : Nat) (s : State) : State :=
  let s := updRed (fun r => { r with switch := none, switchHeard := none }) s
  logEv 0x0A0E noInst (p8 (if status = 2 then h else 2 ^ 64 - 1))
    (orReg Red.INT_STATUS 8 (wr Red.SWITCH_STATUS status s))

/-- R309: the module becomes STANDBY: what an earlier period as STANDBY left is dropped, and a switch
that it still had pending is abandoned (DESIGN CHOICE, log entry 118). -/
def becomeStandby (cause : Nat) (s : State) : State :=
  let s := if s.red.switch.isSome then switchEnd 3 0 s else s
  let s := updRed (fun r =>
    { r with
      tookOver := false
      handover := none
      peerLost := false
      toMake := []
      contexts := []
      delays := []
      appliedFrame := none
      rxSeq := none
      rxBytes := [] }) s
  setRole rStandby cause (setBit Red.RED_STATUS 7 false s)

/-- R312, R327: the frame that first carries a claim voted now. -/
def claimFrame (s : State) : Nat :=
  let n := frameNext 0 s
  if ftState s = ftStopped then rd Time.FT_FRAME s
  else if s.clk + realNs 1000 ≤ startOf n s then n else n + 1

/-- R327: an unplanned takeover. -/
def takeover (s : State) : State :=
  let synced := fld Red.RED_STATUS 7 7 s
  let n := claimFrame s
  let s := becomeActive 7 (bump Red.TAKEOVER_COUNT (updRed (fun r => { r with tookOver := true }) s))
  let s := instantiateAll (trySinksAll s)
  logEv 0x0A05 noInst (p4 s.upd.cur.epoch ++ p8 n ++ p4 (rd Red.MIRROR_SEQ_APPLIED s) ++ p1 synced) s

/-- R320: the peer has failed. -/
def peerFailed (s : State) : State :=
  if !s.red.paired then s
  else if roleOf s = rStandby then takeover s
  else if roleOf s = rActive ∧ ¬ s.red.peerLost then
    trySinksAll (logEv 0x0A02 noInst [] (updRed (fun r => { r with peerLost := true }) s))
  else s

/-! ### Beats (R317 to R320) -/

def beatGap : Nat := 250000

/-- R317: the 40 bytes. -/
def beatBytes (s : State) : List Byte :=
  let st := rd Red.RED_STATUS s
  let pend := s.red.switch.isSome && roleOf s == rActive
  let flags := b2n (roleOf s = rFatal) + 2 * b2n (st.testBit 3) + 4 * b2n (st.testBit 4)
    + 8 * b2n (st.testBit 5) + 16 * b2n (s.power.warnAt.isSome) + 32 * b2n (servoState s = sLocked)
    + 64 * b2n pend
  let seq := if roleOf s = rActive then s.red.mirSent else rd Red.MIRROR_SEQ_APPLIED s
  let head := p1 1 ++ p1 1 ++ p1 (roleOf s + 8 * fld Red.RED_STATUS 6 6 s + 16 * fld Red.RED_STATUS 7 7 s)
    ++ p1 flags ++ p4 (rd Red.CLAIM s) ++ p4 (rd Time.FT_FRAME s) ++ p4 seq
    ++ p4 (rd Red.SWITCH_FRAME s) ++ p2 s.red.beatNo ++ p2 0 ++ p8 Config.moduleId.toNat ++ p4 0
  head ++ p4 (crc32c head)

/-- A path whose last valid beat started an interval ago or more counts a miss. -/
def missBeat (last : Nat) (r : Reg) (f : RedSt → RedSt) (s : State) : State :=
  if last + realNs beatGap ≤ s.clk then updRed f (bump r s) else s

/-- R316: dissenting lanes reload from the majority. -/
def reloadLanes (s : State) : State :=
  putVotes (roleOf s) (setFld Red.RED_STATUS 11 9 0 (updRed (fun r => { r with lanes := [] }) s))

/-- R318: path B: the bits of a byte, least significant first; a bit as its two halves, 1 as low then
high.  The order and the polarity are IEEE 802.3's (PRESUMED, log entry 119). -/
def bitsLsb (v n : Nat) : List Bool := (List.range n).map v.testBit
def manchester (l : List Bool) : List Bool := l.flatMap fun b => [!b, b]
/-- R318: the levels of a beat on the J8 pair, one per 50 ns. -/
def pathB (beat : List Byte) : List Bool :=
  manchester (bitsLsb 0x5555 16 ++ bitsLsb 0xD5 8 ++ beat.flatMap fun b => bitsLsb b.toNat 8)

/-- R318: path A: the beat leaves from TX ring 3 of T0. -/
def pathA (beat : List Byte) (s : State) : State :=
  if shed s then s else renroPost 3 0 0 0 (etherFrame 3 beatDst 0x88B5 beat s) s

/-- HEARTBEAT_SEND: a beat instant. -/
def heartbeatSend (s : State) : State :=
  let s := reloadLanes s
  if !s.red.paired then s
  else
    let b := beatBytes s
    let s := updRed (fun r => { r with txBeat := b, beatNo := (r.beatNo + 1) % 65536 }) s
    let s := bump Red.HB_SENT (pathA b s)
    let s := missBeat s.red.lastA Red.HB_MISS_A (fun r => { r with goodA := 0 }) s
    missBeat s.red.lastB Red.HB_MISS_B (fun r => { r with goodB := 0 }) s
def execHeartbeatSend (s : State) : Host.Outcome State Fault Refusal :=
  timed (fun s => hopCnt ((s.cnt / nsUnits beatGap + 1) * nsUnits beatGap) s) heartbeatSend s

/-- R319: a valid beat. -/
def parseBeat (b : List Byte) : Option Beat :=
  if b.length ≠ 40 ∨ at_ 0x24 4 b ≠ crc32c (b.take 36) ∨ at_ 0 1 b ≠ 1
      ∨ at_ 0x18 8 b = Config.moduleId.toNat then none
  else
    let r := at_ 2 1 b
    some {
      role := r % 8, sinks := r.testBit 3, synced := r.testBit 4, flags := at_ 3 1 b
      claim := at_ 4 4 b, frame := at_ 8 4 b, mirrorSeq := at_ 12 4 b, switchFrame := at_ 16 4 b
      beat := at_ 20 2 b, moduleId := at_ 0x18 8 b }

def Beat.failed (b : Beat) : Bool := b.flags.testBit 0 || b.flags.testBit 4 || b.role == rFatal

/-- R320: a path is heard; it is restored after 4 consecutive valid beats. -/
def pathHeard (path t : Nat) (s : State) : State :=
  let s := if path = 0 then updRed (fun r => { r with lastA := t, goodA := r.goodA + 1 }) s
    else updRed (fun r => { r with lastB := t, goodB := r.goodB + 1 }) s
  let good := if path = 0 then s.red.goodA else s.red.goodB
  if 4 ≤ good ∧ ¬ bit Red.RED_STATUS (3 + path) s then
    logEv 0x0A04 path (p1 path) (orReg Red.INT_STATUS 2 (setBit Red.RED_STATUS (3 + path) true s))
  else s

/-- R310: an epoch heard in a beat. -/
def noteEpoch (e : Nat) (s : State) : State := updRed (fun r => { r with heard := max r.heard e }) s

/-- R310: the stored epoch follows a higher one heard.  R309 has by then judged the beat by the claim
in force as it came (R333: the lower claim yields). -/
def followEpoch (e : Nat) (s : State) : State :=
  if s.upd.cur.epoch < e then
    putClaim { s with upd := { s.upd with cur := { s.upd.cur with epoch := e }, urgent := true } }
  else s

/-- R309: consecutive beats of a SEEKING peer, either path's copy of a beat counted once. -/
def countSeek (b : Beat) (s : State) : State :=
  let r := s.red
  let run := if b.role ≠ rSeeking then 0
    else match r.peer with
      | some q => if q.role = rSeeking ∧ q.beat = b.beat then r.seekRun
        else if q.role = rSeeking ∧ (q.beat + 1) % 65536 = b.beat then r.seekRun + 1
        else 1
      | none => 1
  updRed (fun r => { r with seekRun := run }) s

/-- R332: the interlock wire is broken. -/
def ilkDegraded (s : State) : State :=
  let owns := match s.red.peer with
    | some b => b.sinks
    | none => false
  if !ilkInLive s && pathAOk s && pathBOk s && owns then
    logPer 0x0A0D noInst oneMinute [] (setBit Red.RED_STATUS 8 true s)
  else s

/-- R309, R320: what a valid beat does to a SEEKING module. -/
def seekBeat (b : Beat) (s : State) : State :=
  let own := rd Red.RANK s
  let peer := b.claim % 65536
  if b.role = rActive then becomeStandby 2 s
  else if b.role = rSeeking ∧ peer = own then logPer 0x0A08 noInst oneMinute [] s
  else if b.role = rSeeking ∧ 8 ≤ s.red.seekRun then
    if peer < own then trySinksAll (becomeActive 3 s) else becomeStandby 4 s
  else s

/-- R309, R320: an ACTIVE module. -/
def activeBeat (b : Beat) (s : State) : State :=
  if b.failed then peerFailed s
  else
    let s := updRed (fun r => { r with peerLost := false }) s
    let own := rd Red.CLAIM s
    if b.role = rActive ∧ own < b.claim then
      let s := logEv 0x0A0F noInst (p4 own ++ p4 b.claim) s
      becomeStandby 10 (releaseSinks cLeaving s)
    else trySinksAll s

/-- HEARTBEAT_RECEIVED (R319): a beat of a path, that started `back` ns ago. -/
def heartbeatReceived (path back : Nat) (bytes : List Byte) (s : State) : State :=
  match parseBeat bytes with
  | none => bump Red.HB_BAD s
  | some b =>
    let s := countSeek b (pathHeard path (s.clk - realNs back) s)
    let s := updRed (fun r =>
      { r with
        peer := some b
        switchHeard := if b.flags.testBit 6 then some b.switchFrame else none }) s
    let s := wr Red.PEER (b.role + 8 * b2n b.synced + 16 * b2n b.sinks + 65536 * (b.claim / 65536)) s
    let s := noteEpoch (b.claim / 65536) s
    let s := if !s.red.paired then s
      else if roleOf s = rSeeking then seekBeat b s
      else if roleOf s = rStandby then (if b.failed ∨ b.role ≠ rActive then peerFailed s else s)
      else if roleOf s = rActive then activeBeat b s
      else s
    ilkDegraded (followEpoch (b.claim / 65536) s)
def execHeartbeatReceived (path : Fin 2) (back : BitVec 32) (bytes : List Byte) (s : State) :
    Host.Outcome State Fault Refusal :=
  if s.power.off then atOnce id s else atOnce (heartbeatReceived path.val back.toNat bytes) s

/-- R320: the silence that fails a path. -/
def pathWindow (s : State) : Nat := realNs (fld Red.RED_CTRL 11 8 s * beatGap - 4000)
def pathSilent (last : Nat) (s : State) : Bool := last + pathWindow s ≤ s.clk

/-- PATH_FAIL (R320): a path has failed; alone it degrades, with the other the peer has failed. -/
def pathFail (path : Nat) (s : State) : State :=
  let both := pathSilent s.red.lastA s && pathSilent s.red.lastB s
  let was := bit Red.RED_STATUS (3 + path) s
  let s := if path = 0 then updRed (fun r => { r with goodA := 0 }) s
    else updRed (fun r => { r with goodB := 0 }) s
  let s := if was then orReg Red.INT_STATUS 2 (setBit Red.RED_STATUS (3 + path) false s) else s
  if both then peerFailed s
  else if was then logEv 0x0A03 path (p1 path) s
  else s
def execPathFail (path : Fin 2) (s : State) : Host.Outcome State Fault Refusal :=
  if s.power.off then atOnce id s
  else timed (fun s => hopClk ((if path.val = 0 then s.red.lastA else s.red.lastB) + pathWindow s) s)
    (pathFail path.val) s

/-- SEEK_TIMEOUT (R309): 2.0 s with no valid beat on either path. -/
def seekTimeout (s : State) : State :=
  let s := updRed (fun r => { r with tookOver := true, peerLost := true }) s
  trySinksAll (logEv 0x0A02 noInst [] (becomeActive 6 s))
def execSeekTimeout (s : State) : Host.Outcome State Fault Refusal :=
  if s.red.paired ∧ roleOf s = rSeeking then
    timed (fun s => hopClk (max s.red.seekAt (max s.red.lastA s.red.lastB) + realNs 2000000000) s)
      seekTimeout s
  else atOnce id s

/-! ### Lanes (R315, R316) -/

/-- The outputs of a lane in agreement: those the module acts on. -/
def laneNow (s : State) : LaneOut :=
  ⟨Fin.ofNat 5 (roleOf s), ownsSinks s, s.red.ilkOut, false, s.red.txBeat⟩
/-- R315: what each lane drives. -/
def laneOut (i : Nat) (s : State) : LaneOut := (kget none i s.red.lanes).getD (laneNow s)

/-- R315: 2 of 3, bit by bit. -/
def maj (a b c : Nat) : Nat := a &&& b ||| a &&& c ||| b &&& c
def majB (a b c : Bool) : Bool := a && b || a && c || b && c
def majBytes (a b c : List Byte) : List Byte :=
  if a = b ∨ a = c then a
  else if b = c then b
  else (List.range 40).map fun i =>
    BitVec.ofNat 8 (maj (a.getD i 0).toNat (b.getD i 0).toNat (c.getD i 0).toNat)
def vote (a b c : LaneOut) : LaneOut :=
  ⟨Fin.ofNat 5 (maj a.role.val b.role.val c.role.val), majB a.sinks b.sinks c.sinks, majB a.ilk b.ilk c.ilk,
    majB a.strobe b.strobe c.strobe, majBytes a.beat b.beat c.beat⟩

/-- R315: the module follows the voted outputs. -/
def followVote (v : LaneOut) (s : State) : State :=
  let s := if v.role.val = roleOf s then s else setRole v.role.val 12 s
  let s := if v.sinks = ownsSinks s then s
    else if v.sinks then takeSinks wFailure s else releaseSinks cLeaving s
  let s := updRed (fun r => { r with ilkOut := v.ilk, txBeat := v.beat }) s
  if v.strobe then voteClaim s else s

/-- R316: lane i dissents with output o. -/
def dissents (i : Nat) (o : LaneOut) (s : State) : State :=
  let s := setFld Red.LANE_VOTES (4 * i + 2) (4 * i) o.role.val (setBit Red.RED_STATUS (9 + i) true s)
  logPer 0x0A06 i oneMinute (p1 i) (orReg Red.INT_STATUS 16 s)

/-- LANE_DISSENT (R315, R316): lane i has driven `o` for 2 us.  The voter decides; the lanes that differ
from it dissent until the next beat instant.  A lane with no other output observed drives what the
module does (DESIGN CHOICE, log entry 120). -/
def laneDissent (i : Nat) (o : LaneOut) (s : State) : State :=
  let out (j : Nat) : LaneOut := if j = i then o else laneOut j s
  let v := vote (out 0) (out 1) (out 2)
  let s := if v = laneNow s then s else followVote v s
  upTo 3 (fun j s =>
    if out j = v then updRed (fun r => { r with lanes := kset none j none r.lanes }) s
    else dissents j (out j) (updRed (fun r => { r with lanes := kset none j (some (out j)) r.lanes }) s)) s
def execLaneDissent (lane : Fin 3) (out : LaneOut) (s : State) : Host.Outcome State Fault Refusal :=
  atOnce (laneDissent lane.val out) s

/-! ### The interlock (R329 to R332) -/

/-- ILK_IN_LIVE: 4 edges 4 to 6 us apart. -/
def ilkLive (s : State) : State := setBit Red.RED_STATUS 8 false (setBit Red.RED_STATUS 5 true s)
def execIlkInLive (s : State) : Host.Outcome State Fault Refusal := atOnce ilkLive s

/-- ILK_IN_STATIC: no edge for 15 us. -/
def ilkStatic (s : State) : State := ilkDegraded (trySinksAll (setBit Red.RED_STATUS 5 false s))
def execIlkInStatic (s : State) : Host.Outcome State Fault Refusal := atOnce ilkStatic s

/-- SINK_HANDOVER_TAKE (R330, R334): T_h + 20 us has passed. -/
def execSinkHandoverTake (s : State) : Host.Outcome State Fault Refusal :=
  match s.red.handover with
  | none => atOnce id s
  | some c => timed (hopCnt c) trySinksAll s

/-! ### The planned switch (R334) -/

/-- SWITCH_CMD: a write with GO = 1. -/
def switchCmd (v : Nat) (s : State) : State :=
  if !v.testBit 0 then s
  else
    let lead := bitsOf v 15 8
    let ready : Bool := match s.red.peer with
      | some b => b.role == rStandby && b.synced
      | none => false
    if roleOf s = rActive ∧ s.red.paired ∧ ready ∧ pathAOk s ∧ pathBOk s ∧ s.red.switch = none
        ∧ 4 ≤ lead then
      let h := rd Time.FT_FRAME s + lead
      wr Red.SWITCH_FRAME (h % 2 ^ 32) (wr Red.SWITCH_STATUS 1 (updRed (fun r => { r with switch := some h }) s))
    else wr Red.SWITCH_STATUS 3 s
def execSwitchCmd (who : Req) (v : BitVec 32) (s : State) : Host.Outcome State Fault Refusal :=
  atOnce (landing who false (switchCmd v.toNat)) s

/-- R334 at S_h on the active: the standby has applied set h - 1, or the switch is abandoned. -/
def switchActive (h start : Nat) (s : State) : State :=
  let applied := match s.red.peer with
    | some b => b.mirrorSeq == rd Red.MIRROR_SEQ_TX s
    | none => false
  if applied then
    let s := becomeStandby 8 (updRed (fun r => { r with switch := none }) (releaseSinks cSwitch s))
    switchEnd 2 h (updRed (fun r => { r with claimNext := r.claimNext ++ [(start, 0, rd Red.CLAIM s)] }) s)
  else switchEnd 3 h s

/-- R334 at S_h on the standby. -/
def switchStandby (h start : Nat) (s : State) : State :=
  if s.red.appliedFrame = some ((h - 1) % 2 ^ 32) then
    let s := becomeActive 8 s
    let own := rd Red.CLAIM s
    let ports := bitList 32 (rd Red.TWIN_PORTS s)
    let skew := ports.foldl (fun m p => kset 0 p (latTicks (nodeLat p 0 s) + 1) m) s.red.skewWait
    let s := updRed (fun r =>
      { r with
        handover := some (frameT h s + nsUnits 20000)
        skewWait := skew
        claimNext := r.claimNext ++ [(start, own, own)] }) s
    instantiateAll (switchEnd 2 h s)
  else switchEnd 3 h s

/-- The switch whose handover frame starts. -/
def switchAtFrame (n start : Nat) (s : State) : State :=
  match s.red.switch, s.red.switchHeard with
  | some h, _ => if h = n ∧ roleOf s = rActive then switchActive h start s else s
  | none, some w => if n % 2 ^ 32 = w ∧ roleOf s = rStandby then switchStandby n start s else s
  | none, none => s

/-- R312: the claims whose instants have passed at S_n apply to the headers of every port. -/
def applyClaims (start : Nat) (s : State) : State :=
  let due := s.red.claimNext.filter fun c => c.1 ≤ start
  match due.getLast? with
  | some (_, t, o) => updRed (fun r =>
      { r with
        claimTwin := t
        claimOther := o
        claimNext := r.claimNext.filter fun c => start < c.1 }) s
  | none => s

/-- R312: the claim in a port's headers. -/
def portClaim (p : Nat) (s : State) : Nat :=
  if bit Red.TWIN_PORTS p s then s.red.claimTwin else s.red.claimOther

end Sys2Proof.Machine
end

