-- ==== Sys2Proof/Machine/Scan.lean ====
section
/-! DEFINITION. Scan-out: what starts at S_n (R41, R57 to R64, R242, R247) and when it ends (R66). -/

namespace Sys2Proof.Machine

/-! ### The choice of a frame (R57 to R63, R216) -/

/-- R62: D of a LOW_RATE port. -/
def lowDiv (p : Nat) (s : State) : Nat := 2 ^ (fld (Scan.SCAN_CTRL (pSl p) (pPl p)) 5 4 s + 1)
def selfRefresh (p : Nat) (s : State) : Bool := bit (Scan.SCAN_CTRL (pSl p) (pPl p)) 8 s

/-- R216: d of a mark at S_n; R42: after a forward step a mark for n_last + 1 counts for n. -/
def markAge (n mark : Nat) (s : State) : Nat :=
  match s.tl.credit with
  | some (a, m) =>
    if m = n ∧ a % 65536 = mark % 65536 then 0 else (n + 65536 - mark % 65536) % 65536
  | none => (n + 65536 - mark % 65536) % 65536

/-- What a start finds: the frame kind to send and its FLAGS. -/
structure Choice where
  kind : FrameKind
  flags : Nat

/-- R58: no mark counts: the front bank is sent again. -/
def sendStale (p low : Nat) (s : State) : Choice × State :=
  let sl := pSl p
  let pl := pPl p
  let first := rd (Scan.STALE_RUN sl pl) s = 0
  let s := bump (Scan.STALE_RUN sl pl) (bump (Scan.UNDERRUN_COUNT sl pl) s)
  let s := scanEvent p 3 s
  (⟨.stale, 2 + low⟩, if first then logEv 0x0301 p [] s else s)

/-- R58: a counting mark ends a run of STALE frames. -/
def endRun (p : Nat) (s : State) : State :=
  let r := Scan.STALE_RUN (pSl p) (pPl p)
  let run := rd r s
  if run = 0 then s else wr r 0 (logEv 0x0302 p (p4 run) s)

/-- R59: a mark for an earlier frame is discarded. -/
def discardMark (p : Nat) (s : State) : State :=
  let s := bump (Scan.LATE_DISCARD_COUNT (pSl p) (pPl p)) (setMark p none s)
  logPer 0x030C p oneSecond [] (scanEvent p 5 s)

def countHold (p : Nat) (s : State) : State := bump (Scan.HOLD_COUNT (pSl p) (pPl p)) s

/-- R57, R60, R62: a mark that counts: a swap, or HOLD or REFRESH for UNCHANGED. -/
def useMark (p mark low : Nat) (changed : Bool) (s : State) : Choice × State :=
  let s := endRun p (setMark p none s)
  if mark.testBit 16 ∧ selfRefresh p s then
    if changed then (⟨.refresh, low⟩, s) else (⟨.hold, 1 + low⟩, countHold p s)
  else
    let s := setFld (Scan.SCAN_STATUS (pSl p) (pPl p)) 4 4 (backBank p s) s
    (⟨if low = 0 then .full else .lowRate, low⟩, s)

/-- R57 to R60, R62: a sending start that looks for a mark: d below `div` counts. -/
def byMark (p n div low : Nat) (changed : Bool) (s : State) : Choice × State :=
  match markOf p s with
  | none => sendStale p low s
  | some m =>
    let d := markAge n m s
    if d < div then useMark p m low changed s
    else if d < 32768 then sendStale p low (discardMark p s)
    else sendStale p low s

/-- R57 to R64, R432: what a trained port sends at S_n. -/
def chooseFrame (p n : Nat) (s : State) : Choice × State :=
  let x := portAt p s
  if frozen s then (⟨.hold, if x.mode = 1 then 5 else 1⟩, countHold p s)
  else match x.mode with
  | 1 =>
    if n % lowDiv p s ≠ 0 then (⟨.none, 0⟩, s)
    else byMark p n (lowDiv p s) 4 x.changedLow (updPort p (fun x => { x with changedLow := false }) s)
  | 2 => byMark p n 1 0 x.changed s
  | 3 => (⟨.hold, 1⟩, countHold p s)
  | _ => (⟨.none, 0⟩, s)

/-! ### Uncorrectable words (R218) -/

/-- The uncorrectable words that the pixels of a whole raster touch in bank b. -/
def badWords (p b : Nat) (s : State) : List Nat :=
  let (h, v, w) := rasNow p s
  let first := bankWord p b
  let last := first + (rAct h * rAct v * (w / 8) + 7) / 8
  (s.storeBad.map Prod.fst).filter fun a => first ≤ a && a < last

/-- Each such word is counted once for the frame. -/
def noteBad (p b : Nat) (bad : List Nat) (s : State) : State :=
  match bad with
  | [] => s
  | a :: _ =>
    let sl := pSl p
    let s := orReg (Layer.INT_STATUS sl) 0x40000 (bumpBy (Layer.STORE_UE_COUNT sl) bad.length s)
    logPer 0x0313 p oneSecond (p1 p ++ p1 b ++ p4 (8 * (a - bankWord p b))) s

/-! ### The frame (R242 to R251) -/

/-- R55: P_n in 2^-32 ns. -/
def facetOf (sl n : Nat) (s : State) : Nat := frameT n s + nsUnits (rd (Time.FT_PD_ACTIVE sl) s)

/-- R243: P_n - S_n in 0.2 ns ticks of the OCXO at the present rate, to the nearest. -/
def leadOf (sl n start : Nat) (s : State) : Nat :=
  let num : Int := ((facetOf sl n s : Int) - s.cnt) * timeClk + ((s.clk : Int) - start) * incr s
  unsgn 32 (Int.fdiv (num + incr s) (2 * incr s))

/-- R251: the probe that the frame carries; one still outstanding after 200 us is lost. -/
def probeFor (p : Nat) (s : State) : Option Nat × State :=
  let s := match (trunkAt p s).probe with
    | some b => if b.leftAt + echoLimit ≤ s.clk then loseProbe p s else s
    | none => s
  if bit (trkCtrl p) 1 s ∧ (trunkAt p s).probe = none then (nextProbe p s, s) else (none, s)

/-- The probe will leave: its K30.7 is byte 3 of slot 1 of the first V_BP line. -/
def sendProbe (p n start : Nat) (k : Option Nat) (s : State) : State :=
  match k with
  | none => s
  | some k =>
    let (h, v, _) := rasNow p s
    let left := start + rSync v * lineLen h (rasNow p s).2.2 + slotLen + 3 * trkClk
    updTrunk p (fun t =>
      { t with
        probe := some ⟨k, n, left⟩
        lastProbed := k }) s

/-- R312, R432: the claim in the header. -/
def txClaim (p : Nat) (s : State) : Nat :=
  if frozen s ∧ bit Red.TWIN_PORTS p s then 0 else portClaim p s

def kindCode : FrameKind → Nat
  | .none => 0 | .full => 1 | .stale => 2 | .hold => 3 | .refresh => 4 | .lowRate => 5

/-- The frame of a chosen kind is on its way.  The running disparity at its first symbol is a free
value (DESIGN CHOICE, log entry 130): the spec gives none to start from. -/
def sendFrame (p n start : Nat) (c : Choice) (s : State) : State :=
  let sl := pSl p
  let (h, v, w) := rasNow p s
  let hold := c.kind == .hold
  let bank := frontBank p s
  let bad := if hold then [] else badWords p bank s
  let s := noteBad p bank bad s
  let (probe, s) := probeFor p s
  let (porch, s) := fillPorch p (!hold) start probe s
  let s := sendProbe p n start probe s
  let s := if !hold ∧ bit (trkCtrl p) 3 s ∧ attrOver p s then orReg (trkErr p) 8 s else s
  let claim := txClaim p s
  let (free, s) := fresh s
  let tx : TxFrame :=
    { n := n
      kind := c.kind
      flags := c.flags + 8 * b2n (w == 64)
      facet := facetOf sl n s / 2 ^ 32
      lead := leadOf sl n start s
      claim := claim
      bank := bank
      startAt := start
      endAt := start + (if hold then rSync v + rBp v else vTotal v) * lineLen h w
      porch := porch
      disp := free.getLsbD 0
      bad := bad
      oldGains := (portAt p s).oldGains }
  let s := wr (Trunk.CLAIM_TX sl (pPl p)) claim (wr (Scan.FRAME_SENT sl (pPl p)) (n % 2 ^ 32) s)
  updPort p (fun x => { x with tx := some tx }) s

/-- R64: the mode applied at CP_n takes effect; the raster of the period begins (R47).  PORT_MODE is
logged here, where the mode takes effect, for a port that was held in STOP at arming too (DESIGN
CHOICE, log entry 108: R64 says that a change is logged, not when). -/
def beginRaster (p : Nat) (s : State) : State :=
  let m := appliedMode p s
  let s := if (portAt p s).mode = m then s else logEv 0x030B p [] s
  updPort p (fun x =>
    { x with
      ras := some (rasterH p s, rasterV p s, portW p s)
      mode := m
      vblankDone := false
      matchDone := false }) s

/-- R57 to R64: a port at S_n. -/
def portStart (n start p : Nat) (s : State) : State :=
  let s := beginRaster p s
  let (c, s) := if linkTrained p s then chooseFrame p n s else (⟨.none, 0⟩, s)
  let s := setFld (Scan.SCAN_STATUS (pSl p) (pPl p)) 10 8 (kindCode c.kind) s
  let s := if c.kind = .none then updPort p (fun x => { x with tx := none }) s
    else sendFrame p n start c s
  updPort p (fun x => { x with changed := false }) s

/-! ### FRAME_START -/

/-- R163: the frame grid of a slice as the timeline enters RUNNING. -/
def setGrid (n sl : Nat) (s : State) : State :=
  let f := gridDiv (periodNum s) (periodDen s) (fld (Sched.TICK_CFG sl) 29 17 s)
  updSched sl (fun c => { c with grid := some (frameT n s, periodNum s, periodDen s, f) }) s

/-- R40, R42: the timeline starts frame n. -/
def timelineTo (n start : Nat) (s : State) : State :=
  let was := ftState s
  let s := { s with tl :=
    { s.tl with
      last := some n
      next := n + 1 } }
  let s := setFtState ftRunning (wr Time.FT_FRAME (n % 2 ^ 64) s)
  let s := if was = ftArmed then
      wr Red.MIRROR_BUDGET (mirrorBudget s) (logEv 0x0307 noInst (p8 n) s) else s
  let s := if was = ftRunning then upTo 4 (fun sl s => regrid n sl s) s
    else upTo 4 (setGrid n) s
  putNext (frameTriggers n (applyClaims start (switchAtFrame n start s)))
where
  /-- R163: the grid is counted from the newest T_n. -/
  regrid (n sl : Nat) (s : State) : State :=
    updSched sl (fun c => { c with grid := c.grid.map fun g => (frameT n s, g.2) }) s

/-- FRAME_START (R41): S_n of a slice.  Words of its store are found uncorrectable, `ce` errors are
corrected while the frame is read. -/
def frameStart (sl n start ce : Nat) (bad : List Nat) (s : State) : State :=
  let s := if s.tl.last = some n then s else timelineTo n start s
  let s := updSlice sl (fun c =>
    { c with
      frame := some n
      startAt := start
      cpDone := false }) s
  let s := forAll (fun a s => upsetWord (sl * 0x400000 + a % 0x400000) s) bad s
  let s := bumpBy (Layer.STORE_CE_COUNT sl) ce s
  let s := upTo 8 (fun pl s => portStart n start (8 * sl + pl) s) s
  let s := if sl = 0 then buildSet n s else s
  let s := lineEdge sl 34 (putNextCp sl s)
  if (List.range 4).all fun i => (sliceAt i s).frame = some n then
    { s with tl := { s.tl with credit := none } } else s

def execFrameStart (slice : Fin 4) (bad : List (BitVec 22)) (ce : BitVec 16) (s : State) :
    Host.Outcome State Fault Refusal :=
  if ftState s = ftStopped ∨ shed s then atOnce id s
  else
    let n := frameNext slice.val s
    let start := startOf n s
    timed (hopClk start) (frameStart slice.val n start ce.toNat (bad.map BitVec.toNat)) s

/-! ### FRAME_DONE (R66) -/

def frameDone (p : Nat) (s : State) : State :=
  scanEvent p 2 (updPort p (fun x => { x with tx := x.tx.map fun t => { t with done := true } }) s)
/-- The edge after the last slot of a transmitted frame. -/
def execFrameDone (p : Fin 32) (s : State) : Host.Outcome State Fault Refusal :=
  match (portAt p.val s).tx with
  | some t => if t.done ∨ shed s then atOnce id s else timed (hopClk t.endAt) (frameDone p.val) s
  | none => atOnce id s

/-! ### The line as sent (R236 to R243) -/

/-- R242: the header of a frame. -/
def frameHeader (p : Nat) (x : TxFrame) (s : State) : List Byte :=
  let (h, v, _) := rasNow p s
  p1 2 ++ p1 x.flags ++ p1 p ++ p1 (rSync h + rBp h) ++ p4 x.n
    ++ leBytes 6 (x.facet / 1000000000) ++ p2 0 ++ p4 (x.facet % 1000000000) ++ p4 x.lead
    ++ p4 x.claim ++ p2 (rAct h) ++ p2 (rAct v) ++ p8 Config.moduleId.toNat

/-- R237: TYPE of a line. -/
def lineType (v line : Nat) : Nat :=
  if line < rSync v then 0 else if line < rSync v + rBp v then 1
  else if line < blankLine v then 2 else 3

/-- R238: the pixel bytes of an active line; each code with its high byte first. -/
def linePixels (p line : Nat) (x : TxFrame) (s : State) : List Byte :=
  let (h, v, _) := rasNow p s
  (List.range (rAct h)).flatMap fun i =>
    (sentPixel p x.bank ((line - rSync v - rBp v) * rAct h + i) x.n x.bad s).flatMap fun q =>
      p1 (q / 256) ++ p1 q

/-- R250: the ATTR packets, whole, that the packet channel of an active line carries. -/
def attrBytes (p line : Nat) (s : State) : List Byte :=
  let (h, v, _) := rasNow p s
  let per := 6 * (rFp h - 1) / 11
  let nodes := (List.range 64).filter fun k => cfgEnabled p k s
  if bit (trkCtrl p) 3 s then
    ((nodes.drop ((line - rSync v - rBp v) * per)).take per).flatMap fun k =>
      p1 3 ++ p1 k ++ p1 8 ++ p8 (rd (Trunk.NODE_ATTR (pSl p) (pPl p) k) s)
  else []

/-- The porch line that a V_BP or V_FP line is. -/
def porchLine (v line : Nat) : Nat :=
  if line < blankLine v then line - rSync v else line - blankLine v + rBp v

/-- Symbols padded with D0.0 to a length. -/
def padSyms (n : Nat) (l : List Sym) : List Sym := l ++ List.replicate (n - l.length) (.d 0)

/-- R236, R241: a line between its header and its trailer; a V_SYNC line opens with K28.0 and HOP 0. -/
def lineBody (p line : Nat) (x : TxFrame) (s : State) : List Sym :=
  let (h, v, w) := rasNow p s
  match lineType v line with
  | 0 => padSyms (6 * (hTotal h w - 2)) ([k28_0, .hop 0] ++ dataSyms (frameHeader p x s))
  | 2 =>
    padSyms (6 * (rSync h + rBp h - 1)) []
      ++ padSyms (6 * hSlots h w) (dataSyms (linePixels p line x s))
      ++ padSyms (6 * (rFp h - 1)) (dataSyms (attrBytes p line s))
  | _ => padSyms (6 * (hTotal h w - 2)) ((x.porch.getD (porchLine v line) []).flatMap (PorchItem.syms p s))

/-- R236, R237, R239: the symbols of a line: SOL and the header, the body, the trailer with the
CRC-32C of the data bytes after SOL. -/
def lineSyms (p line : Nat) (x : TxFrame) (s : State) : List Sym :=
  let (_, v, _) := rasNow p s
  let body := dataSyms (p2 (line + 2 ^ 14 * lineType v line) ++ p1 x.n ++ p1 2) ++ lineBody p line x s
  [k28_5, k27_7] ++ body ++ dataSyms (p4 (crc32c (dataBytes body))) ++ [k29_7, .d 0]

/-- R231: the running disparity at the first symbol of a line of a frame. -/
def lineDisp (p : Nat) (x : TxFrame) (s : State) : Nat → Bool
  | 0 => x.disp
  | l + 1 => (encodeSyms (lineDisp p x s l) (lineSyms p l x s)).2

/-- R231: the code groups of a line, one per TRK_TX clock. -/
def lineGroups (p line : Nat) (x : TxFrame) (s : State) : List (BitVec 10) :=
  (encodeSyms (lineDisp p x s line) (lineSyms p line x s)).1

/-- R234, R235, R236: what a port's transmitter sends now: nothing (electrically idle) in DOWN, TP1
repeated in TRAINING, the line in progress of a frame, keep-alive repeated elsewhere. -/
def portSends (p : Nat) (s : State) : List Sym :=
  match linkState p s with
  | 0 => []
  | 1 => tp1
  | _ =>
    let (h, _, w) := rasNow p s
    match (portAt p s).tx with
    | some x =>
      if x.startAt ≤ s.clk ∧ s.clk < x.endAt then lineSyms p ((s.clk - x.startAt) / lineLen h w) x s
      else idlePair
    | none => idlePair

end Sys2Proof.Machine
end

