-- ==== Sys2Proof/Machine/Upd.lean ====
section
/-! DEFINITION. Firmware update and settings (chapter 17).

Cryptographic checks (the signature and its key, the SHA-384, the GCM tag) are observations of the
commands that make them (DESIGN CHOICE, log entry 90). -/

namespace Sys2Proof.Machine

def updUpd (f : UpdSt → UpdSt) (s : State) : State := { s with upd := f s.upd }

/-! ### Slots (R440, R442) -/

def stEmpty : Nat := 0
def stDownloading : Nat := 1
def stDownloaded : Nat := 2
def stVerified : Nat := 3
def stTrial : Nat := 4
def stConfirmed : Nat := 5
def stBad : Nat := 6

def running (s : State) : Nat := fld Upd.UPD_STATUS 1 0 s
def onTrial (s : State) : Bool := bit Upd.UPD_STATUS 2 s
/-- The slot that is not running; with Quartz running, the one that is not the active one. -/
def inactive (s : State) : Nat :=
  match running s with
  | 0 => 1
  | 1 => 0
  | _ => 1 - s.upd.boot.active
def slotOf (i : Nat) (s : State) : FwSlot := if i = 0 then s.upd.slotA else s.upd.slotB

/-- Fields of an image header. -/
def hdr (h : List Byte) (o n : Nat) : Nat := leNat ((h.drop o).take n)
def fwVersion (h : List Byte) : Nat := hdr h 0x0C 4
def secVersion (h : List Byte) : Nat := hdr h 0x10 2
def payloadLen (h : List Byte) : Nat := hdr h 0x1C 4
def chunkCount (h : List Byte) : Nat := hdr h 0x20 2

/-- R440: a sector, and the settings log of one copy. -/
def sectorSize : Nat := 65536
def logSectors : Nat := 64

/-- R441, R452: how often the settings sectors were erased: each 64 KiB beyond the first 64 sectors
takes an erase, in turn. -/
def logWear (u : UpdSt) : Nat := ceilDiv (ceilDiv u.logBytes sectorSize - logSectors) logSectors

/-- R441: the highest erase count. -/
def wearOf (u : UpdSt) : Nat :=
  ((u.slotA.erases ++ u.slotB.erases).map Prod.snd).foldl max (logWear u)

/-- The registers that show the slots. -/
def showSlots (s : State) : State :=
  let a := s.upd.slotA
  let b := s.upd.slotB
  let ver (x : FwSlot) := if x.st = stEmpty then 0 else fwVersion x.header
  let s := setFld Upd.UPD_STATUS 14 12 b.st (setFld Upd.UPD_STATUS 10 8 a.st s)
  let s := wr Upd.FW_VERSION_B (ver b) (wr Upd.FW_VERSION_A (ver a) s)
  let i := slotOf (inactive s) s
  wr Upd.FLASH_WEAR (wearOf s.upd)
    (wr Upd.CHUNKS_TOTAL (if i.st = stEmpty then 0 else chunkCount i.header) s)

def putSlot (i : Nat) (x : FwSlot) (s : State) : State :=
  showSlots (updUpd (fun u => if i = 0 then { u with slotA := x } else { u with slotB := x }) s)
def updSlot (i : Nat) (f : FwSlot → FwSlot) (s : State) : State := putSlot i (f (slotOf i s)) s
def setSlotState (i st : Nat) (s : State) : State := updSlot i (fun x => { x with st := st }) s

/-- A sector of a slot is erased once more. -/
def FwSlot.erase (sector : Nat) (x : FwSlot) : FwSlot :=
  { x with erases := kupd 0 sector (· + 1) x.erases }

/-- CHUNK_MAP shows the chunks marked in a slot. -/
def showMap (i : Nat) (s : State) : State :=
  let m := (slotOf i s).marks
  upTo 32 (fun w s => wr (Upd.CHUNK_MAP w)
    (upTo 32 (fun b v => v + (if kget 0 (32 * w + b) m = 0 then 0 else 2 ^ b)) 0) s) s

/-- Bytes of a chunk (R445): the last one carries what remains. -/
def chunkLen (h : List Byte) (i : Nat) : Nat := min 65536 (payloadLen h - 65536 * i)
/-- Every chunk is marked. -/
def allMarked (x : FwSlot) : Bool := (List.range (chunkCount x.header)).all fun i => kget 0 i x.marks ≠ 0

/-! ### Header checks (R442, R443) -/

/-- R443: the header fields lie in range and allow this module (revision B, step T5). -/
def headerOk (h : List Byte) : Bool :=
  h.length = 256 && h.take 4 = [0x54, 0x4B, 0x46, 0x57] && hdr h 4 2 = 1 && hdr h 6 2 = 256
    && hdr h 8 2 = 0x8032 && (hdr h 0x0A 1).testBit 1 && hdr h 0x0B 1 ≤ 5 && secVersion h ≤ 63
    && hdr h 0x18 4 ≤ 1 && chunkCount h = ceilDiv (payloadLen h) 65536
    && 1 ≤ chunkCount h && chunkCount h ≤ 1022 && hdr h 0x22 1 ≤ 3 && hdr h 0x23 1 ≤ 3
    && hdr h 0x70 48 = 0

def rOk : Nat := 0
def rBadCmd : Nat := 1
def rBadState : Nat := 2
def rBadImage : Nat := 3
def rAuthFail : Nat := 4
def rRollback : Nat := 5
def rFlashErr : Nat := 6

/-- The failing checks of R443, in its order: 0 header, 1 signature or its key, 2 hash, 3 tag,
4 SEC_VERSION; with the RESULT of each. -/
def imageFault (h : List Byte) (sig hash tag : Bool) (s : State) : Option (Nat × Nat) :=
  if !headerOk h then some (0, rBadImage)
  else if !sig then some (1, rAuthFail)
  else if !hash then some (2, rBadImage)
  else if !tag then some (3, rAuthFail)
  else if secVersion h < rd Upd.SEC_COUNTER s then some (4, rRollback)
  else none

/-! ### Commands (R445) -/

/-- A command runs: BUSY until UPD_CMD_DONE. -/
def startUpd (r : UpdRun) (s : State) : State :=
  setBit Upd.UPD_CMD_STATUS 0 true (updUpd (fun u => { u with cmd := some r }) s)
/-- A command that ends with a RESULT and no event. -/
def refuseUpd (op result : Nat) (s : State) : State := startUpd ⟨op, result, 0, [], 0, 0, 0⟩ s
/-- A command that a check of R443 fails. -/
def failUpd (op : Nat) (why : Nat × Nat) (slot st : Nat) (s : State) : State :=
  startUpd ⟨op, why.2, 0x0B03, p1 why.1, slot, 0, st⟩ s

/-- A command written while BUSY is 1 is ignored; flash is left alone once the supply fails
(R455). -/
def updCommand (f : State → State) (s : State) : State :=
  if bit Upd.UPD_CMD_STATUS 0 s then orReg Upd.UPD_ERR 1 s else if shed s then s else f s

/-- R446: the marks whose CRC matches a re-read. -/
def goodMarks (x : FwSlot) : KMap Nat :=
  x.marks.filter fun p => decide (crc32c (kget [] p.1 x.chunks) + 1 = p.2)

/-- BEGIN: the header is checked but for the hash and the tag; `sig` is what the signature check
finds. -/
def updBegin (sig flash : Bool) (s : State) : State :=
  let a := rd Upd.UPD_ARG0 s
  let i := inactive s
  let x := slotOf i s
  if x.st = stTrial then refuseUpd 1 rBadState s
  else if !isDram a 256 then refuseUpd 1 rBadCmd s
  else
    let h := memBytes a 256 s
    match imageFault h sig true true s with
    | some why => failUpd 1 why 2 0 s
    | none =>
      if !flash then refuseUpd 1 rFlashErr s
      else
        let resumed := x.st == stDownloading && x.header == h
        let y := if resumed then { x with marks := goodMarks x }
          else ({ x with st := stDownloading, header := h, marks := [] }.erase 0).erase 1023
        let y := if resumed ∧ allMarked y then { y with st := stDownloaded } else y
        startUpd ⟨1, rOk, 0x0B01, p4 (fwVersion h) ++ p1 (b2n (!resumed)), 2, 0, 0⟩ (showMap i (putSlot i y s))

/-- CHUNK: the sector is erased and the chunk programmed; its table entry is written at the end. -/
def updChunk (flash : Bool) (s : State) : State :=
  let a := rd Upd.UPD_ARG0 s
  let k := rd Upd.UPD_ARG1 s
  let i := inactive s
  let x := slotOf i s
  if x.st ≠ stDownloading then refuseUpd 2 rBadState s
  else if chunkCount x.header ≤ k ∨ !isDram a 65536 then refuseUpd 2 rBadCmd s
  else
    let y := { x with marks := kset 0 k 0 x.marks }.erase (k + 1)
    if !flash then refuseUpd 2 rFlashErr (showMap i (putSlot i y s))
    else
      let y := { y with chunks := kset [] k (memBytes a (chunkLen x.header k) s) y.chunks }
      startUpd ⟨2, rOk, 0, [], i, k, 0⟩ (showMap i (putSlot i y s))

/-- VERIFY: R443 on the downloaded image; the slot is VERIFIED or BAD at the end. -/
def updVerify (sig hash tag : Bool) (s : State) : State :=
  let i := inactive s
  let x := slotOf i s
  if !(x.st = stDownloaded ∨ x.st = stVerified) ∨ !allMarked x then refuseUpd 3 rBadState s
  else match imageFault x.header sig hash tag s with
    | some why => failUpd 3 why i stBad s
    | none => startUpd ⟨3, rOk, 0x0B02, [], i, 0, stVerified⟩ s

/-- ABORT. -/
def updAbort (s : State) : State :=
  let i := inactive s
  let x := slotOf i s
  if x.st = stDownloading ∨ x.st = stDownloaded ∨ x.st = stVerified then
    let s := putSlot i { x with st := stEmpty, header := [], marks := [] } s
    refuseUpd 7 rOk (showMap i s)
  else refuseUpd 7 rBadState s

/-! ### The boot control record and confirmation (R449, R450, R444) -/

/-- A new record: its sequence rises. -/
def writeBoot (f : BootRec → BootRec) (s : State) : State :=
  let s := updUpd (fun u => { u with boot := { f u.boot with seq := (u.boot.seq + 1) % 2 ^ 32 } }) s
  setFld Upd.UPD_STATUS 4 3 s.upd.boot.tries s

/-- R444: the counter rises to an image's SEC_VERSION; a slot left below it is BAD. -/
def raiseSec (v : Nat) (s : State) : State :=
  let c := max (rd Upd.SEC_COUNTER s) v
  let s := wr Upd.SEC_COUNTER c s
  upTo 2 (fun i s =>
    let x := slotOf i s
    if x.st ≠ stEmpty ∧ secVersion x.header < c ∧ 0 < x.header.length then setSlotState i stBad s else s) s

/-- The trial ends. -/
def endTrial (s : State) : State :=
  orReg Upd.INT_STATUS 2 (setBit Upd.UPD_STATUS 2 false s)

def mayConfirm (s : State) : Bool := onTrial s && !bit Upd.UPD_STATUS 5 s

/-- R450: the record is written with TRIAL = 0 and the old slot as PREVIOUS_SLOT. -/
def recordConfirm (s : State) : State :=
  let i := running s
  let s := writeBoot (fun b => { b with active := i, previous := 1 - i, trial := false, tries := 0 }) s
  endTrial (setSlotState i stConfirmed s)
def fuseConfirm (s : State) : State := raiseSec (secVersion (slotOf (running s) s).header) s

/-- CONFIRM: the fuse follows at the end. -/
def updConfirm (s : State) : State :=
  if mayConfirm s then startUpd ⟨5, rOk, 0x0B05, p1 0, 2, 0, 0⟩ (recordConfirm s)
  else refuseUpd 5 rBadState s

/-- AUTO_CONFIRM (R450). -/
def autoConfirm (s : State) : State :=
  if mayConfirm s ∧ bit Upd.UPD_CTRL 0 s ∧ 60 ≤ rd Upd.TRIAL_HEALTHY s ∧ ¬ shed s then
    logEv 0x0B05 noInst (p1 1) (fuseConfirm (recordConfirm s))
  else s

/-- R450: the conditions of a healthy second. -/
def healthy (s : State) : Bool :=
  !s.upd.fatalSinceBoot && !s.upd.broken && !bit Upd.UPD_STATUS 5 s
    && s.upd.trialRuns.all (fun sl => bit (Slc.SLC_CTRL sl) 0 s)
    && s.upd.trialModes.all fun m => appliedMode m.1 s == m.2
def trialSecond (s : State) : State :=
  let n := if healthy s then min 0xFFFFFFFF (rd Upd.TRIAL_HEALTHY s + 1) else 0
  let s := updUpd (fun u =>
    { u with
      healthAt := s.clk
      broken := false }) s
  if onTrial s then wr Upd.TRIAL_HEALTHY n s else s

/-! ### Activation (R447, R448) -/

/-- LED_CTRL.FREEZE (R343): every channel keeps the src of its last period start. -/
def setFreeze (v : Bool) (s : State) : State := setBit Led.LED_CTRL 2 v s

/-- Renro writes the MODE of a port; before a Bezel, so never late (R447). -/
def armMode (p mode : Nat) (s : State) : State :=
  let r := Scan.SCAN_CTRL (pSl p) (pPl p)
  match findReg r.addr with
  | some f => armWin f r.addr (putBits (nextVal r s) 1 0 mode) s
  | none => s

def portModes (s : State) : List (Nat × Nat) := (List.range 32).map fun p => (p, appliedMode p s)
def runningSlices (s : State) : List Nat := (List.range 4).filter fun sl => bit (Slc.SLC_CTRL sl) 0 s

/-- The slot's firmware is restarted from: the record names it; `trial`: as a trial. -/
def recordActivate (i : Nat) (trial : Bool) (s : State) : State :=
  let old := running s
  let s := writeBoot (fun b =>
    { b with
      active := i
      previous := if old < 2 then old else b.previous
      trial := trial
      tries := 0 }) s
  let s := if old < 2 ∧ onTrial s then endTrial (setSlotState old stDownloaded s) else s
  setSlotState i (if trial then stTrial else stConfirmed) s

/-- R447: may the activation of a slot be live. -/
def mayGoLive (i : Nat) (force : Bool) (s : State) : Bool :=
  let h := (slotOf i s).header
  running s < 2 && !force && hdr h 0x18 1 % 2 = 0 && hdr h 0x16 2 = s.upd.handoverVer

/-- The activation of slot i: live (R447 step 1), or a warm reset (R448). -/
def activate (op i : Nat) (force trial : Bool) (s : State) : State :=
  let live := mayGoLive i force s
  let modes := portModes s
  let runs := runningSlices s
  let s := logEv 0x0B04 noInst (p1 i ++ p1 (b2n (!live))) s
  let s := updUpd (fun u => { u with trialModes := modes, trialRuns := runs }) s
  if live then
    let s := calInterrupt 4 s
    let s := forAll (fun m s => if m.2 = 0 then s else armMode m.1 3 s) modes s
    updUpd (fun u => { u with act := some ⟨i, modes, runs, false⟩ })
      (startUpd ⟨op, rOk, 0, [], i, 0, b2n trial⟩ s)
  else warmReset 4 (recordActivate i trial s)

/-- ACTIVATE. -/
def updActivate (s : State) : State :=
  let i := inactive s
  if (slotOf i s).st ≠ stVerified ∨ s.red.switch.isSome then refuseUpd 4 rBadState s
  else activate 4 i ((rd Upd.UPD_ARG1 s).testBit 0) true s

/-- REVERT: the previous slot, which is no trial (R449). -/
def updRevert (s : State) : State :=
  let i := inactive s
  let x := slotOf i s
  if 2 ≤ running s ∨ x.st = stEmpty ∨ x.st = stDownloading ∨ x.st = stBad then refuseUpd 6 rBadState s
  else activate 6 i ((rd Upd.UPD_ARG1 s).testBit 0) false (logEv 0x0B06 noInst (p1 1) s)

/-- R447 step 2: every port not in STOP has been sending HOLD since an S_n. -/
def holdReached (a : Activation) (s : State) : Bool :=
  ftState s = ftStopped || a.modes.all fun m => m.2 = 0 || (portAt m.1 s).mode = 3

/-- ACTIVATION_PAUSE (R447 steps 2 and 3). -/
def activationPause (s : State) : State :=
  match s.upd.act with
  | none => s
  | some a =>
    if a.paused ∨ !holdReached a s ∨ shed s ∨ frozen s then s
    else
      let s := upTo 4 (fun sl s => slcRun sl false s) s
      let s := setFreeze true (calInterrupt 4 s)
      let trial := match s.upd.cmd with | some r => r.st = 1 | none => true
      let s := recordActivate a.target trial (startFlush (settle s))
      updUpd (fun u => { u with act := some { a with paused := true } }) s

/-! ### Settings (R452, R453) -/

def highestGen (s : State) : Nat := (s.upd.gens.map (·.gen)).foldl max 0

/-- R452: what a wrap of the log never erases: the newest generation of each SETTINGS_VER, and, during
a trial, the one the trial migrated from. -/
def protectedGen (gs : List Generation) (s : State) (g : Generation) : Bool :=
  !(gs.any fun h => h.ver = g.ver && g.gen < h.gen) || (onTrial s && s.upd.migratedFrom == some g.gen)

/-- R452: the oldest generations, as many as n bytes take (DEDUCED, log entry 93: the log is erased by
generations). -/
def eraseOldest (keep : Generation → Bool) : Nat → List Generation → List Generation
  | _, [] => []
  | 0, gs => gs
  | n + 1, g :: t => if keep g then g :: eraseOldest keep (n + 1) t else eraseOldest keep (n + 1 - g.size) t

/-- The settings in force become a generation of both copies. -/
def appendGen (size : Nat) (s : State) : State :=
  let v := s.upd.settingsVer
  let g : Generation :=
    { gen := highestGen s + 1
      ver := v
      writer := fwVersion (slotOf (running s) s).header
      data := s.upd.cur
      size := size }
  let gs := s.upd.gens ++ [g]
  let excess := (gs.map (·.size)).foldl (· + ·) 0 - sectorSize * logSectors
  let s := updUpd (fun u =>
    { u with
      gens := eraseOldest (protectedGen gs s) excess gs
      dirty := false
      urgent := false
      genAt := s.clk
      logBytes := u.logBytes + size }) s
  renroCrcFree (wr Upd.FLASH_WEAR (wearOf s.upd)
    (wr Upd.SETTINGS_VER v (wr Upd.SETTINGS_GEN g.gen s)))

/-- R452: a change the host makes. -/
def applySetting (o : SetObj) (u : UpdSt) : UpdSt :=
  let c := u.cur
  let c := match o with
    | .autostart on => { c with autostart := on }
    | .timeWait t => { c with timeWait := min 600 t.toNat }
    | .fatalRestart on => { c with fatalRestart := on }
    | .faultHold t => { c with faultHold := min 1000 t.toNat }
    | .reg off v => { c with stored := kset 0 (0x1000000000 + off.toNat) (v.toNat + 1) c.stored }
    | .ptp on p2p ether domain announce vlan =>
      { c with ptp := ⟨on, p2p, ether, domain.toNat, announce.val + 2, vlan.map BitVec.toNat⟩ }
  { u with
    cur := c
    dirty := true }

/-- R287: Renro rewrites the servo registers when its PTP stack is enabled. -/
def applySettings (changes : List SetObj) (s : State) : State :=
  let was := ptpOn s
  let s := updUpd (fun u => changes.foldl (fun u o => applySetting o u) u) s
  if was then s else setServoRegs s

def dayLen : Nat := realNs 86400000000000
def dailyBytes : Nat := 67108864

/-- R441: the bytes written today; a new day begins 86,400 s after the last. -/
def todayBytes (s : State) : Nat := if s.upd.dayAt + dayLen ≤ s.clk then 0 else s.upd.bytesToday
def countBytes (n : Nat) (s : State) : State :=
  updUpd (fun u =>
    { u with
      bytesToday := todayBytes s + n
      dayAt := if s.upd.dayAt + dayLen ≤ s.clk then s.clk else u.dayAt }) s

/-- SETTINGS_WRITE (R452, R441): a generation of `bytes` bytes; one beyond the daily limit waits for
the next day. -/
def settingsWrite (bytes : Nat) (s : State) : State :=
  if !(s.upd.dirty || s.upd.urgent) ∨ shed s then s
  else if !s.upd.urgent ∧ dailyBytes < todayBytes s + bytes then
    if s.upd.wearLogged.any fun t => s.clk < t + dayLen then s
    else logEv 0x0B0C noInst [] (updUpd (fun u => { u with wearLogged := some s.clk }) s)
  else appendGen bytes (countBytes bytes s)

/-- R452: coalesced changes wait for 10 s after the last generation. -/
def settingsHop (s : State) : State :=
  if s.upd.urgent ∨ !s.upd.dirty ∨ shed s then s else hopClk (s.upd.genAt + realNs 10000000000) s

/-- R408: a generation is readable. -/
def Generation.readable (g : Generation) : Bool := g.ok0 || g.ok1 || g.same

/-- R408: Renro accepts a generation whose copies both fail with the same data, rewrites both checks and
logs CHECK_REPAIRED with the object, which is not stated (a free value: DESIGN CHOICE,
log entry 127), and the generation. -/
def repairChecks (g : Generation) (s : State) : State :=
  if !g.ok0 && !g.ok1 && g.same then
    let (x, s) := fresh s
    logRenro 0x0C10 noInst (p2 (x.toNat % 65536) ++ p4 g.gen) s
  else s
/-- R408: after the read a readable generation passes in both copies. -/
def Generation.repaired (g : Generation) : Generation :=
  if g.readable then { g with ok0 := true, ok1 := true, same := true } else g

/-- How the copies read at this boot, and what Renro mends. -/
def noteCopies (cs : List GenCheck) (s : State) : State :=
  let gs := s.upd.gens.map fun g =>
    match cs.find? fun c => c.gen.toNat = g.gen with
    | some c => { g with ok0 := c.ok0, ok1 := c.ok1, same := c.same }
    | none => g
  renroCrcFree (forAll repairChecks gs (updUpd (fun u => { u with gens := gs.map (·.repaired) }) s))

/-- The candidate with the highest GEN, and the generations passed over before it, newest first. -/
def chooseGen (lo hi : Nat) (gs : List Generation) : Option Generation :=
  gs.foldl (fun acc g =>
    if g.readable && lo ≤ g.ver && g.ver ≤ hi && (match acc with | some b => b.gen < g.gen | none => true)
    then some g else acc) none
def passedOver (chosen : Option Generation) (gs : List Generation) : List Nat :=
  (gs.filter fun g => !g.readable && (match chosen with | some c => c.gen < g.gen | none => true)).map (·.gen)

/-- R454: a migration that fails: the settings stay what they were. -/
def migrationFailed (obj src : Nat) (s : State) : State :=
  setBit Upd.UPD_STATUS 5 true (logEv 0x0B09 noInst (p2 obj ++ p4 src) s)

/-- R453: the conversion is written as the next generation. -/
def migrate (g : Generation) (s : State) : State :=
  let s := updUpd (fun u => { u with migratedFrom := some g.gen }) s
  let s := appendGen g.size s
  logEv 0x0B08 noInst (p4 g.gen ++ p4 (rd Upd.SETTINGS_GEN s)) s

/-- R379: the factory record is read-only: no choice of settings drops or replaces it. -/
def keepFactory (old new : Settings) : Settings :=
  let f := old.cal.filter (·.seq = 0)
  { new with cal := (if f.isEmpty then new.cal.filter (·.seq = 0) else f) ++ new.cal.filter (·.seq ≠ 0) }
def putSettings (x : Settings) (s : State) : State := updUpd (fun u => { u with cur := keepFactory u.cur x }) s

/-- R453: the settings of a boot; `live`: what the handover gave is kept where a migration fails. -/
def selectSettings (live : Bool) (fails : Option Nat) (o : State) : State :=
  let s := setBit Upd.UPD_STATUS 5 false o
  let c := chooseGen s.upd.readMin s.upd.settingsVer s.upd.gens
  let s := forAll (fun g s => logEv 0x0B0A noInst (p4 g) s) (passedOver c s.upd.gens) s
  match c with
  | none => logEv 0x0B0B noInst [] (putSettings {} s)
  | some g =>
    let take := fun s => wr Upd.SETTINGS_VER g.ver (wr Upd.SETTINGS_GEN g.gen
      (putSettings g.data s))
    if g.ver < s.upd.settingsVer then
      match fails with
      | some obj =>
        migrationFailed obj g.gen (if live then s else putSettings {} s)
      | none => migrate g (take s)
    else take s

/-! ### The boot stage (R443, R449) -/

/-- What the firmware of the running slot says of itself (R442). -/
def adoptHeader (s : State) : State :=
  let h := (slotOf (running s) s).header
  if running s < 2 ∧ 0 < h.length then
    updUpd (fun u =>
      { u with
        settingsVer := hdr h 0x12 2
        readMin := hdr h 0x14 2
        handoverVer := hdr h 0x16 2 }) s
  else s

def slotBad (i : Nat) (s : State) : State :=
  logEv 0x0B0D noInst (p1 i) (setSlotState i stBad s)

/-- R449: the slot that the record names, its TRIES counted; does it boot as a trial. -/
def bootChoice (s : State) : Nat × Bool × State :=
  let b := s.upd.boot
  if b.trial then
    if b.tries < 3 then (b.active, true, writeBoot (fun b => { b with tries := b.tries + 1 }) s)
    else
      let s := writeBoot (fun b =>
        { b with
          active := b.previous
          previous := b.active
          trial := false
          tries := 0 }) s
      let s := orReg Upd.INT_STATUS 2 (setSlotState b.active stDownloaded s)
      (b.previous, false, logEv 0x0B06 noInst (p1 0) s)
  else (b.active, false, s)

/-- Slot i runs, as a trial or confirmed. -/
def runSlot (i : Nat) (trial : Bool) (s : State) : State :=
  let s := setFld Upd.UPD_STATUS 2 0 (i + 4 * b2n trial) s
  let s := if i < 2 then setSlotState i (if trial then stTrial else stConfirmed) s else showSlots s
  let s := if i < 2 ∧ !trial then raiseSec (secVersion (slotOf i s).header) s else s
  adoptHeader (wr Upd.TRIAL_HEALTHY 0 (updUpd (fun u => { u with healthAt := s.clk }) s))

/-- R449: the boot stage; `okA`, `okB`: does the slot pass the checks of R443. -/
def bootStage (okA okB : Bool) (s : State) : State :=
  let ok (i : Nat) := if i = 0 then okA else okB
  let (i, trial, s) := bootChoice s
  if ok i ∧ (slotOf i s).st ≠ stBad then runSlot i trial s
  else
    let s := if (slotOf i s).st = stBad then s else slotBad i s
    let j := 1 - i
    let x := slotOf j s
    if ok j ∧ stDownloaded ≤ x.st ∧ x.st ≠ stBad then runSlot j false s
    else
      let s := if !ok j ∧ stDownloaded ≤ x.st ∧ x.st ≠ stBad then slotBad j s else s
      logEv 0x0B07 noInst [] (runSlot 2 false s)

/-- ACTIVATION_RESUME (R447 steps 4 and 5): the new firmware boots (`ok`), adopts the handover
(`adopts`), takes its settings and ends the pause. -/
def activationResume (ok adopts : Bool) (cs : List GenCheck) (fails : Option Nat) (s : State) : State :=
  match s.upd.act with
  | none => s
  | some a =>
    if !a.paused ∨ shed s ∨ frozen s then s
    else if !ok then warmReset 4 (slotBad a.target s)
    else if !adopts then warmReset 4 s
    else
      let (_, trial, s) := bootChoice s
      let s := runSlot a.target trial s
      let s := selectSettings true fails (noteCopies cs s)
      let s := forAll (fun sl s => slcRun sl true s) a.runs s
      let s := forAll (fun m s => if m.2 = 0 then s else armMode m.1 m.2 s) a.modes s
      setFreeze false (updUpd (fun u => { u with act := none, fatalSinceBoot := false }) s)

/-! ### The end of a command -/

/-- What a command leaves for its end: the mark of a chunk (R446), the state VERIFY gives, the
fuse of CONFIRM. -/
def finishUpd (r : UpdRun) (s : State) : State :=
  match r.op with
  | 2 =>
    if r.result ≠ rOk then s
    else
      let x := slotOf r.slot s
      let x := { x with marks := kset 0 r.idx (crc32c (kget [] r.idx x.chunks) + 1) x.marks }
      let x := if allMarked x then { x with st := stDownloaded } else x
      showMap r.slot (putSlot r.slot x s)
  | 3 => if r.st = 0 then s else setSlotState r.slot r.st s
  | 5 => if r.result = rOk then fuseConfirm s else s
  | _ => s

/-- UPD_CMD_DONE (R445); a live activation ends with its pause. -/
def updCmdDone (s : State) : State :=
  match s.upd.cmd with
  | none => s
  | some r =>
    if s.upd.act.isSome then s
    else
      let s := finishUpd r (updUpd (fun u => { u with cmd := none }) s)
      let s := orReg Upd.INT_STATUS 1 (wr Upd.UPD_CMD_STATUS (256 * r.result) s)
      if r.code = 0 then s else logEv r.code noInst r.payload s

/-! ### The commands -/

/-- The opcodes are writes of UPD_CMD. -/
def execBegin (who : Req) (sig flash : Bool) (s : State) : Host.Outcome State Fault Refusal :=
  atOnce (landing who false (updCommand (updBegin sig flash))) s
def execChunk (who : Req) (flash : Bool) (s : State) : Host.Outcome State Fault Refusal :=
  atOnce (landing who false (updCommand (updChunk flash))) s
def execVerify (who : Req) (sig hash tag : Bool) (s : State) : Host.Outcome State Fault Refusal :=
  atOnce (landing who false (updCommand (updVerify sig hash tag))) s
def execActivate (who : Req) (s : State) : Host.Outcome State Fault Refusal :=
  atOnce (landing who false (updCommand updActivate)) s
def execConfirm (who : Req) (s : State) : Host.Outcome State Fault Refusal :=
  atOnce (landing who false (updCommand updConfirm)) s
def execRevert (who : Req) (s : State) : Host.Outcome State Fault Refusal :=
  atOnce (landing who false (updCommand updRevert)) s
def execAbort (who : Req) (s : State) : Host.Outcome State Fault Refusal :=
  atOnce (landing who false (updCommand updAbort)) s
def execActivationPause (s : State) : Host.Outcome State Fault Refusal := atOnce activationPause s
def execActivationResume (ok adopts : Bool) (copies : List GenCheck) (fails : Option (BitVec 16))
    (s : State) : Host.Outcome State Fault Refusal :=
  atOnce (activationResume ok adopts copies (fails.map BitVec.toNat)) s
def execAutoConfirm (s : State) : Host.Outcome State Fault Refusal := atOnce autoConfirm s
def execSettingsWrite (bytes : BitVec 32) (changes : List SetObj) (s : State) :
    Host.Outcome State Fault Refusal :=
  timed (fun s => settingsHop (applySettings changes s))
    (settingsWrite bytes.toNat) s
def execTrialHealthySecond (s : State) : Host.Outcome State Fault Refusal :=
  if onTrial s ∧ ¬ shed s then
    timed (fun s => hopClk (s.upd.healthAt + realNs 1000000000) s) trialSecond s
  else atOnce id s
def execUpdCmdDone (s : State) : Host.Outcome State Fault Refusal := atOnce (unlessShed updCmdDone) s

end Sys2Proof.Machine
end

