-- ==== Sys2Proof/Machine/Image.lean ====
section
/-! DEFINITION. What Renro does with memory: page tables (R177, R178, R182), images (R100 to R103).

The tables of the five translators are kept apart, since a section may have a copy of its own in
each slice (R101).  Where Renro places tables and images is not stated: the commands say it. -/

namespace Sys2Proof.Machine

/-! ### Answers (R420) -/

def rsOk : Nat := 0
def rsBadCmd : Nat := 1
def rsBadArgs : Nat := 2
def rsNoResource : Nat := 3
def rsBusy : Nat := 4
def rsRejected : Nat := 5

/-- An answer: the RESULT, the response words, the state. -/
abbrev Answer := Nat × List Nat × State

/-! ### Renro memory (R417) -/

def renroBase : Nat := 0x1EC000000
def dumpBase : Nat := 0x1FC000000
def dumpEnd : Nat := 0x200000000

/-- The bytes a .. a+n-1 become 0, and whole lines lose their poison and their flipped bits. -/
def zeroMem (a n : Nat) (s : State) : State :=
  let stays (l : Nat) : Bool := 64 * l < a || a + n < 64 * l + 64
  { s with
    dram := kfilter (fun k => k < a || a + n ≤ k) s.dram
    poison := kfilter stays s.poison
    latent := kfilter stays s.latent }

/-- The next pages of Renro memory, zeroed. -/
def allocPages (k : Nat) (s : State) : Option (Nat × State) :=
  let a := s.host.nextTable
  if a < renroBase ∨ dumpBase < a + 4096 * k then none
  else some (a, zeroMem a (4096 * k) { s with host := { s.host with nextTable := a + 4096 * k } })

/-! ### Tables (R177, R178) -/

def pteTable (a : Nat) : Nat := a + 3

/-- The table that an entry names; a table that is not there is made.  None: the entry is a leaf, or
no page is left. -/
def subTable (entry : Nat) (tag : Nat → Nat) (s : State) : Option (Nat × State) :=
  let w := memNat entry 8 s
  if w.testBit 0 then
    if tag 0 = w % 4 then some (bitsOf w 39 12 * 4096, s) else none
  else (allocPages 1 s).map fun q => (q.1, putBytes entry (p8 (tag q.1)) q.2)

/-- The root of an ASID: its table entry has VALID alone beside the address. -/
def rootTable (t asid : Nat) (s : State) : Option (Nat × State) :=
  subTable (rd (Mmu.ASID_TABLE_BASE t) s + 8 * asid) (fun a => a + 1) s

def vaIndex (va level : Nat) : Nat := va / 2 ^ (39 - 9 * level) % 512

/-- Levels 0 to `level` - 1 are walked; the table of that level. -/
def leafTable (t asid va : Nat) : Nat → State → Option (Nat × State)
  | 0, s => rootTable t asid s
  | n + 1, s => (leafTable t asid va n s).bind fun q => subTable (q.1 + 8 * vaIndex va n) pteTable q.2

/-- A leaf is written: at level 2 for a 2 MiB page, else at level 3. -/
def putLeaf (t asid va pte : Nat) (big : Bool) (s : State) : Option State :=
  let level := if big then 2 else 3
  (leafTable t asid va level s).bind fun q =>
    let a := q.1 + 8 * vaIndex va level
    if big && (memNat a 8 q.2).testBit 1 then none else some (putBytes a (p8 pte) q.2)

/-- The leaf that maps a page, found without making any table: its address and its size. -/
def findLeaf (t asid va : Nat) (s : State) : Option (Nat × Nat) :=
  let rec down : Nat → Nat → Nat → Option (Nat × Nat)
    | 0, _, _ => none
    | n + 1, level, table =>
      let a := table + 8 * vaIndex va level
      let w := memNat a 8 s
      if !w.testBit 0 then none
      else if level = 3 then some (a, 0x1000)
      else if w.testBit 1 then down n (level + 1) (bitsOf w 39 12 * 4096)
      else some (a, 0x200000)
  let root := memNat (rd (Mmu.ASID_TABLE_BASE t) s + 8 * asid) 8 s
  if root.testBit 0 then down 4 0 (bitsOf root 39 12 * 4096) else none

/-- R177: the 16 leaves of a 64 KiB group agree: where one is to go, the others are 4 KiB pages. -/
def breakGroup (a : Nat) (s : State) : State :=
  if (memNat a 8 s).testBit 5 then
    upTo 16 (fun i s =>
      let b := a / 128 * 128 + 8 * i
      let w := memNat b 8 s
      if w.testBit 0 ∧ w.testBit 5 then putBytes b (p8 (w - 32)) s else s) s
  else s

/-- The leaf at an address goes. -/
def dropLeaf (a size : Nat) (s : State) : State :=
  zeroMem a 8 (if size = 0x1000 then breakGroup a s else s)

/-- The 2 MiB leaf at an address becomes a table of the same 512 pages; none: no page is left. -/
def splitLeaf (a : Nat) (s : State) : Option State :=
  let w := memNat a 8 s
  (allocPages 1 s).map fun q =>
    putBytes a (p8 (pteTable q.1))
      (putBytes q.1 ((List.range 512).flatMap fun i => p8 (w + 4096 * i)) q.2)

/-- The page at va loses its leaf; of a 2 MiB leaf that lies only partly in the range the other
pages stay mapped (DESIGN CHOICE, log entry 105: R182 speaks only of clearing the entries). -/
def clearLeaf (t asid lo hi va : Nat) (s : State) : Option State :=
  match findLeaf t asid va s with
  | none => some s
  | some (a, size) =>
    let base := va / size * size
    if lo ≤ base ∧ base + size ≤ hi then some (dropLeaf a size s)
    else (splitLeaf a s).map fun s =>
      match findLeaf t asid va s with
      | some (b, z) => dropLeaf b z s
      | none => s

/-- The bits of a leaf for a page size code 0, 1, 2. -/
def leafBits (perm code : Nat) : Nat := 1 + perm + (if code = 1 then 32 else 0)

/-- `n` pages from va on, in every translator; the physical page of each translator t and page i. -/
def mapPages (asid va perm code : Nat) (pa : Nat → Nat → Nat) (n : Nat) (s : State) : Option State :=
  let size := if code = 2 then 0x200000 else 0x1000
  (List.range (5 * n)).foldl (fun (acc : Option State) j =>
    acc.bind fun s =>
      let t := j % 5
      let i := j / 5
      putLeaf t asid (va + i * size) (pa t i + leafBits perm code) (code = 2) s) (some s)

/-- R182 steps 1 and 3: the leaves of a range are cleared; every translator invalidates the ASID.
None: no page is left for a table. -/
def unmapRange (asid va len : Nat) (s : State) : Option State :=
  ((List.range (5 * (len / 4096))).foldl (fun (acc : Option State) j =>
    acc.bind (clearLeaf (j % 5) asid va (va + len) (va + j / 5 * 4096))) (some s)).map
      fun s => upTo 5 (fun t s => renroTlbi t asid s) s

/-! ### Renro's own memory (R175) -/

/-- The entries on the way to a page, as far as there are tables. -/
def tableReads (t asid va : Nat) (s : State) : List Nat :=
  let rec down : Nat → Nat → Nat → List Nat
    | 0, _, _ => []
    | n + 1, level, table =>
      let a := table + 8 * vaIndex va level
      let w := memNat a 8 s
      if w.testBit 0 && w.testBit 1 then a :: down n (level + 1) (bitsOf w 39 12 * 4096) else [a]
  let root := rd (Mmu.ASID_TABLE_BASE t) s + 8 * asid
  let w := memNat root 8 s
  root :: (if w.testBit 0 then down 4 0 (bitsOf w 39 12 * 4096) else [])

/-- Renro as a requester: the table of R201 has no code for it (DESIGN CHOICE, log entry 105). -/
def renroReq : Requester := ⟨7, 0⟩

/-- R175, R431: Renro reads the table entries of some pages in all five translators before it
changes them; uncorrectable data there is a fatal error of cause 1, and nothing is changed. -/
def overTables (asid : Nat) (pages : List Nat) (go : State → Answer) (s : State) : Answer :=
  let as := pages.flatMap fun va => (List.range 5).flatMap fun t => tableReads t asid va s
  let s := forAll (fun a s => meet renroReq a 8 s) as s
  match as.find? fun a => poisoned a 8 s with
  | some a => (rsBusy, [], raiseFatal 1 (p8 a ++ p1 renroReq.kind) s)
  | none => go s

/-- The pages of a range. -/
def pagesOf (va len : Nat) : List Nat := (List.range (len / 4096)).map fun i => va + 4096 * i

/-! ### Image checks (R100 to R103) -/

/-- A field of an image. -/
def imgField (b : List Byte) (o n : Nat) : Nat := leNat ((b.drop o).take n)

structure ImgHead where
  flags : Nat
  sects : Nat
  sectOff : Nat
  entries : Nat
  entryOff : Nat
  buildId : Nat
  size : Nat

def imgHead (b : List Byte) : ImgHead :=
  { flags := imgField b 0x0C 4
    sects := imgField b 0x10 4
    sectOff := imgField b 0x14 4
    entries := imgField b 0x18 4
    entryOff := imgField b 0x1C 4
    buildId := imgField b 0x20 8
    size := imgField b 0x28 4 }

structure Section where
  va : Nat
  off : Nat
  file : Nat
  mem : Nat
  flags : Nat

def imgSection (b : List Byte) (h : ImgHead) (i : Nat) : Section :=
  let o := h.sectOff + 32 * i
  { va := imgField b o 8
    off := imgField b (o + 8) 4
    file := imgField b (o + 12) 4
    mem := imgField b (o + 16) 8
    flags := imgField b (o + 24) 4 }

/-- The first offset whose test fails. -/
def firstFail : List (Bool × Nat) → Option Nat
  | [] => none
  | (ok, o) :: t => if ok then firstFail t else some o

/-- R100: what the check of an image covers. -/
def imgChecked (b : List Byte) : List Byte :=
  b.take 0x3C ++ List.replicate 4 0 ++ (b.take (imgHead b).size).drop 0x40

/-- R100: the failing header field. -/
def headBad (b : List Byte) : Option Nat :=
  let h := imgHead b
  firstFail [
    (b.take 4 == [0x42, 0x58, 0x49, 0x4D], 0), (imgField b 4 2 == 1, 4), (imgField b 6 2 == 64, 6),
    (imgField b 8 4 == 1, 8), (h.flags ≤ 1, 0x0C), (1 ≤ h.sects && h.sects ≤ 64, 0x10),
    (h.sectOff + 32 * h.sects ≤ h.size, 0x14), (1 ≤ h.entries && h.entries ≤ 256, 0x18),
    (h.entryOff + 32 * h.entries ≤ h.size, 0x1C),
    (64 ≤ h.size && h.size ≤ 268435456 && h.size ≤ b.length, 0x28), (imgField b 0x34 8 == 0, 0x34),
    (imgField b 0x3C 4 ==
      crc32c (imgChecked b), 0x3C)]

def Section.pageCode (x : Section) : Nat := bitsOf x.flags 5 4
def Section.place (x : Section) : Nat := bitsOf x.flags 7 6
def Section.page (x : Section) : Nat :=
  match x.pageCode with | 0 => 0x1000 | 1 => 0x10000 | _ => 0x200000
/-- The bytes its pages map. -/
def Section.span (x : Section) : Nat := ceilDiv x.mem x.page * x.page
def Section.meets (x y : Section) : Bool := x.va < y.va + y.span && y.va < x.va + x.span

/-- R101, R103: the failing field of a section, given those before it. -/
def sectBad (h : ImgHead) (before : List Section) (x : Section) : Option Nat :=
  firstFail [
    (x.va % x.page == 0 && x.va + x.span ≤ 0xFFFFFFF00000 && !before.any x.meets, 0),
    (x.file == 0 || x.off + x.file ≤ h.size, 8), (x.file ≤ x.mem, 0x10),
    (x.flags < 256 && !x.flags.testBit 3 && x.pageCode ≤ 2 && x.place ≤ 2
      && !(x.flags.testBit 1 && x.flags.testBit 2), 0x18)]

/-- R102, R103: the failing field of an entry. -/
def entryBad (b : List Byte) (o : Nat) (xs : List Section) : Option Nat :=
  let pc := imgField b o 8
  let tlm := imgField b (o + 8) 4
  let stack := imgField b (o + 12) 4
  firstFail [
    (xs.any (fun x => x.flags.testBit 2 && x.va ≤ pc && pc < x.va + x.mem), 0),
    (1024 ≤ tlm && tlm ≤ 65536 && tlm % 1024 == 0, 8), (stack ≤ tlm && stack % 16 == 0, 0x0C),
    (imgField b (o + 0x10) 4 ≤ 3, 0x10), (imgField b (o + 0x18) 8 == 0, 0x18)]

def sectionsOf (b : List Byte) : List Section :=
  (List.range (imgHead b).sects).map (imgSection b (imgHead b))

/-- R103, R487: the first failing field: its offset, and the section or entry (0xFFFF: the header). -/
def imageBad (b : List Byte) : Option (Nat × Nat) :=
  match headBad b with
  | some o => some (o, 0xFFFF)
  | none =>
    let h := imgHead b
    let xs := sectionsOf b
    let sect := (List.range h.sects).findSome? fun i =>
      (sectBad h (xs.take i) (imgSection b h i)).map fun o => (o, i)
    sect.or ((List.range h.entries).findSome? fun i =>
      (entryBad b (h.entryOff + 32 * i) xs).map fun o => (o, i))

/-! ### Loading -/

/-- Offsets, from the place on, of the sections in each slice's DRAM; the end. -/
def layOut (place : Nat) (xs : List Section) : List (Section × Nat) × Nat :=
  xs.foldl (fun acc x =>
    let o := ceilDiv acc.2 x.page * x.page
    (acc.1 ++ [(x, o)], o + x.span)) ([], place)

/-- R101: the slice whose DRAM holds page i for translator t. -/
def pageHome (slices : List Nat) (x : Section) (t i : Nat) : Nat :=
  match x.place with
  | 0 => if slices.contains t then t else slices.headD 0
  | 1 => 0
  | _ => slices.getD (i % slices.length) 0
/-- Its offset in that DRAM. -/
def pageOffset (slices : List Nat) (x : Section) (o page i : Nat) : Nat :=
  o + page * (if x.place = 2 then i / slices.length else i)

/-- The bytes of a section are written to every copy; the rest is zero. -/
def fillSection (b : List Byte) (slices : List Nat) (x : Section) (o : Nat) (s : State) : State :=
  let page := x.page
  let homes := match x.place with | 0 => slices | _ => [0]
  forAll (fun t s =>
    forAll (fun i s =>
      let a := 0x200000000 * pageHome slices x t i + pageOffset slices x o page i
      let bs := ((b.drop (x.off + page * i)).take (min page (x.file - page * i)))
      putBytes a bs (zeroMem a page s)) (List.range (x.span / page)) s) homes s

/-- The leaves of a section. -/
def mapSection (asid : Nat) (slices : List Nat) (x : Section) (o : Nat) (s : State) : Option State :=
  let page := if x.pageCode = 2 then 0x200000 else 0x1000
  let perRow := x.page / page
  mapPages asid x.va (4 * (x.flags % 8)) x.pageCode (fun t i =>
    0x200000000 * pageHome slices x t (i / perRow)
      + pageOffset slices x o x.page (i / perRow) + page * (i % perRow)) (x.span / page) s

/-- R417: an image's data lies in DRAM that Renro has not reserved. -/
def placeOk (slices : List Nat) (end_ : Nat) (xs : List Section) : Bool :=
  let zero := slices.contains 0 || xs.any fun x => x.place == 1
  end_ ≤ (if zero then renroBase else 0x200000000)

/-- The image's registers in the schedulers of its slices; every group and flow is permitted. -/
def registerImage (id asid entries base : Nat) (slices : List Nat) (s : State) : State :=
  forAll (fun sl s =>
    let s := wr (Sched.IMG_FLOWS sl id) (2 ^ 64 - 1) (wr (Sched.IMG_GROUPS sl id) 0xFF s)
    wr (Sched.IMG_CFG sl id) (asid + 65536 * entries + 2 ^ 31)
      (wr (Sched.IMG_ENTRY_BASE sl id) base s)) slices s

/-- A checked image is placed and mapped: none when pages run out. -/
def placeImage (b : List Byte) (slices : List Nat) (id asid place : Nat) (s : State) : Option State :=
  let h := imgHead b
  let (xs, end_) := layOut place (sectionsOf b)
  if !placeOk slices end_ (sectionsOf b) then none
  else
    let s := xs.foldl (fun s q => fillSection b slices q.1 q.2 s) s
    (xs.foldl (fun (acc : Option State) q => acc.bind (mapSection asid slices q.1 q.2)) (some s)).bind
      fun s => (allocPages 2 s).map fun q =>
        let s := putBytes q.1 ((b.drop h.entryOff).take (32 * h.entries)) q.2
        let m : Image :=
          { asid := asid
            slices := (slices.map (2 ^ ·)).foldl (· + ·) 0
            buildId := h.buildId
            debug := h.flags.testBit 0
            pages := xs.map fun q => (q.1.va, q.1.span) }
        registerImage id asid h.entries q.1 slices
          { s with host := { s.host with images := kset none id (some m) s.host.images } }

def asidUsed (asid : Nat) (s : State) : Bool :=
  s.host.images.any fun p => match p.2 with | some m => m.asid == asid | none => false

/-- R103, R420: an image is loaded, under an ID and an ASID that Renro picks. -/
def loadImage (b : List Byte) (mask id asid place : Nat) (s : State) : Answer :=
  let s := if headBad b ∈ [none, some 0x3C] then renroCrc (imgChecked b) s else s
  match imageBad b with
  | some (o, i) => (rsRejected, [], logRenro 0x0D10 noInst (p2 o ++ p2 i) s)
  | none =>
    if id = 0 ∨ 63 < id ∨ (imageAt id s).isSome ∨ asidUsed asid s then (rsNoResource, [], s)
    else overTables asid ((sectionsOf b).flatMap fun x => pagesOf x.va x.span) (fun s =>
      match placeImage b (bitList 4 mask) id asid place s with
      | some t => (rsOk, [id, asid], t)
      | none => (rsNoResource, [], s)) s

/-- R420: a task of the image still exists in one of its slices. -/
def imageBusy (id : Nat) (s : State) : Bool :=
  s.descs.any fun p => p.2.st != .free && p.2.image == id

/-- UNLOAD_IMAGE: its sections are unmapped and its registers cleared. -/
def unloadImage (id : Nat) (s : State) : Answer :=
  match imageAt id s with
  | none => (rsBadArgs, [], s)
  | some m =>
    if imageBusy id s then (rsBusy, [], s)
    else
      overTables m.asid (m.pages.flatMap fun q => pagesOf q.1 q.2) (fun s =>
        let u := forAll (fun sl s => wr (Sched.IMG_CFG sl id) 0 s) (bitList 4 m.slices) s
        match m.pages.foldl (fun (acc : Option State) q => acc.bind (unmapRange m.asid q.1 q.2)) (some u) with
        | none => (rsNoResource, [], s)
        | some s =>
          (rsOk, [], { s with host := { s.host with images := kset none id none s.host.images } })) s

/-! ### MAP, UNMAP, streams (R182, R184, R189, R420) -/

/-- An ASID, and a range of pages of the virtual address space. -/
def rangeOk (asid va len : Nat) : Bool :=
  asid < 65536 && va % 4096 == 0 && len % 4096 == 0 && 0 < len && va + len ≤ 0xFFFFFFF00000

/-- R417: physical pages that may be mapped. -/
def mayMap (pa len : Nat) : Bool :=
  pa % 4096 == 0 && isDram pa len && (pa + len ≤ renroBase || dumpEnd ≤ pa)

/-- R178: R, W and X; W needs R, and W and X exclude each other. -/
def permOk (perm : Nat) : Bool :=
  perm &&& 0x1C == perm && (!perm.testBit 3 || (perm.testBit 2 && !perm.testBit 4))

/-- R189: what waits for a page of the range is resumed. -/
def resumeCovered (asid va len : Nat) (s : State) : State :=
  upTo 5 (fun t s =>
    forAll (fun (f : OpenFault) s => respond t f.token true s)
      ((fqAt t s).open_.filter fun f => f.asid == asid && va ≤ f.va && f.va < va + len) s) s

/-- MAP. -/
def mapCmd (asid va pa len perm : Nat) (s : State) : Answer :=
  if !(rangeOk asid va len && mayMap pa len && permOk perm) then (rsBadArgs, [], s)
  else overTables asid (pagesOf va len) (fun s =>
    match mapPages asid va perm 0 (fun _ i => pa + 4096 * i) (len / 4096) s with
    | some t => (rsOk, [], resumeCovered asid va len t)
    | none => (rsNoResource, [], s)) s

/-- UNMAP. -/
def unmapCmd (asid va len : Nat) (s : State) : Answer :=
  if rangeOk asid va len then
    overTables asid (pagesOf va len) (fun s =>
      match unmapRange asid va len s with
      | some t => (rsOk, [], t)
      | none => (rsNoResource, [], s)) s
  else (rsBadArgs, [], s)

/-- R183, R420: a stream that exists and that Renro does not keep for itself: the mirror engine is
Renro's. -/
def streamOpen (st : Nat) : Bool :=
  st < 0x6C || (0x80 ≤ st && st < 0xA0) || (0xC0 ≤ st && st < 0x100)

/-- SET_STREAM. -/
def setStream (st asid on : Nat) (s : State) : Answer :=
  if streamOpen st ∧ asid < 65536 ∧ on ≤ 1 then (rsOk, [], wr (Iommu.STE st) (asid + 65536 * on) s)
  else (rsBadArgs, [], s)

end Sys2Proof.Machine
end

