-- ==== Sys2Proof/Machine/ReadReg.lean ====
section
/-! DEFINITION. What a read of a register returns (R6 to R10, R414), and what a vector's condition
is (R418).  Most registers return what the bank holds; the fields the block computes are here. -/

namespace Sys2Proof.Machine

/-! ### Units of a found register -/

def Found.i0 (f : Found) : Nat := f.inst.headD 0
def Found.i1 (f : Found) : Nat := f.inst.getD 1 0
def Found.k0 (f : Found) : Nat := f.idx.headD 0
def Found.k1 (f : Found) : Nat := f.idx.getD 1 0
/-- The DMA channel (R203, R204). -/
def Found.chan (f : Found) : Nat :=
  match f.inst with
  | [a, b] => 16 * a + b
  | _ => 64 + f.i0
/-- The DMA block or translator: a slice, or 4. -/
def Found.blk4 (f : Found) : Nat := match f.inst with | [a] => a | _ => 4
/-- The CRC unit. -/
def Found.unit (f : Found) : Nat :=
  match f.inst with
  | [a, b] => 4 * a + b
  | _ => 16 + f.i0
/-- The global port. -/
def Found.port (f : Found) : Nat := 8 * f.i0 + f.i1

/-! ### Interrupt status with its ERR bit -/

/-- An INT_STATUS whose bit k is 1 while any bit of an error register is set. -/
def withErr (st err : Reg) (k : Nat) (s : State) : Nat :=
  putBits (rd st s) k k (b2n (rd err s ≠ 0))

def intSched (sl : Nat) (s : State) : Nat := withErr (Sched.INT_STATUS sl) (Sched.SCHED_ERR sl) 2 s
def intMmu (t : Nat) (s : State) : Nat := withErr (Mmu.INT_STATUS t) (Mmu.MMU_ERR t) 4 s
def intLayer (sl : Nat) (s : State) : Nat := withErr (Layer.INT_STATUS sl) (Layer.LAYER_ERR sl) 21 s
def intTrunk (p : Nat) (s : State) : Nat := withErr (trkInt p) (trkErr p) 5 s
def intTime (s : State) : Nat := withErr Time.INT_STATUS Time.TIME_ERR 6 s
def intNet (p : Nat) (s : State) : Nat := withErr (Net.INT_STATUS p) (Net.PORT_ERR p) 11 s
def intLed (s : State) : Nat := withErr Led.INT_STATUS Led.LED_ERR 5 s
def intAdc (s : State) : Nat := withErr Adc.INT_STATUS Adc.ADC_ERR 6 s
def intRec (s : State) : Nat := withErr Rec.INT_STATUS Rec.REC_ERR 4 s
def intUpd (s : State) : Nat := withErr Upd.INT_STATUS Upd.UPD_ERR 2 s
def intHost (s : State) : Nat := withErr Hst.INT_STATUS Hst.HOST_ERR 2 s

/-! ### Vectors (R418) -/

/-- A source's condition: a set bit whose enable is 1. -/
def raised (st : Nat) (en : Reg) (s : State) : Bool := st &&& rd en s ≠ 0

/-- NET_INT_SUMMARY: a port's interrupt, or the depacketiser's. -/
def netSummary (s : State) : Nat :=
  upTo 4 (fun p a => a + 2 ^ p * b2n (raised (intNet p s) (Net.INT_ENABLE p) s)) 0
    + 16 * b2n (raised (rd Net.DEPKT_INT_STATUS s) Net.DEPKT_INT_ENABLE s)

def dmaRaised (k : Nat) (s : State) : Bool := raised (rd (Dma.INT_STATUS k) s) (Dma.INT_ENABLE k) s

/-- R418: the condition of vector v. -/
def vecCond (v : Nat) (s : State) : Bool :=
  if v < 32 then
    raised (rd (Scan.INT_STATUS (pSl v) (pPl v)) s) (Scan.INT_ENABLE (pSl v) (pPl v)) s
      || raised (intTrunk v s) (Trunk.INT_ENABLE (pSl v) (pPl v)) s
  else if v < 36 then
    let sl := v - 32
    raised (intSched sl s) (Sched.INT_ENABLE sl) s || raised (intLayer sl s) (Layer.INT_ENABLE sl) s
      || raised (intMmu sl s) (Mmu.INT_ENABLE sl) s
      || (List.range 16).any fun c => dmaRaised (16 * sl + c) s
  else if v < 44 then dmaRaised (64 + (v - 36)) s
  else if v = 44 then raised (intMmu 4 s) (Mmu.INT_ENABLE 4) s
  else if v = 45 then raised (intTime s) Time.INT_ENABLE s
  else if v = 46 then netSummary s ≠ 0
  else if v = 47 then raised (intLed s) Led.INT_ENABLE s
  else if v = 48 then raised (intAdc s) Adc.INT_ENABLE s
  else if v = 49 then raised (intRec s) Rec.INT_ENABLE s
  else if v = 50 then raised (rd Red.INT_STATUS s) Red.INT_ENABLE s
  else if v = 51 then raised (intUpd s) Upd.INT_ENABLE s
  else if v = 52 then raised (intHost s) Hst.INT_ENABLE s
  else if v = 53 then raised (rd Sys.SYS_INT_STATUS s) Sys.SYS_INT_ENABLE s
  else if v < 62 then rd (Sys.GPI_INT (v - 54)) s ≠ 0
  else false

def vecConds (s : State) : Nat := upTo 64 (fun v a => a + 2 ^ v * b2n (vecCond v s)) 0

/-! ### Computed registers, block by block -/

def liveSlc (sl off : Nat) (s : State) : Option Nat :=
  if off = 8 then some (slcStatus sl s)
  else if off = 0x18 then some (commitStatus sl s)
  else none

/-- R167: bit k of BPN. -/
def bpnBits (sl : Nat) (s : State) : Nat := upTo 8 (fun k a => a + 2 ^ k * b2n (bpNet sl k s)) 0

/-- The descriptor that DESC_SEL names. -/
def selDesc (sl : Nat) (s : State) : Desc := descAt (descOf sl (rd (Sched.DESC_SEL sl) s)) s

/-- DESC_STATE of a descriptor. -/
def descState (d : Desc) : Nat :=
  descCode d.st + 16 * d.wg + 128 * b2n d.flowValid + 256 * d.flow
    + match d.ctx with
      | some k => 65536 * ctxCore k + 524288 * (k % 4) + 2097152
      | none => 0

def liveSched (sl off c : Nat) (s : State) : Option Nat :=
  if off = 4 then some (putBits (rd (Sched.SCHED_STATUS sl) s) 12 0 (freeDesc sl s))
  else if off = 0xC then some (intSched sl s)
  else if off = 0x1C then some (b2n (bpFetch sl s) + 256 * bpnBits sl s)
  else if off = 0x2C then some (putBits (rd (Sched.SAVE_STATUS sl) s) 10 0 (freeSlots sl s))
  else if off = 0x48 then some (delayedOf sl s).length
  else if off = 0xA0 then some (putBits (rd (Sched.WG_STATUS sl c) s) 12 0 (qCount sl c s))
  else if off = 0xE0 then
    let core := 8 * sl + c
    some (upTo 4 (fun i a => a + 2 ^ i * b2n (!ctxFree (4 * core + i) s)) 0
      + 16 * b2n (coreDrained core s))
  else if off = 0xC24 then some (relBufUsed sl s)
  else if off = 0xC34 then some (descState (selDesc sl s))
  else if off = 0xC38 then some (selDesc sl s).gen
  else none

/-- The channels of a DMA block that are RUNNING. -/
def dmaBusy (t : Nat) (s : State) : Nat :=
  (engineChans t).foldl (fun a k => a + 2 ^ chBit k * b2n (chState k s == chRunning)) 0

/-- R186: word i of the record at the head of a fault queue; 0 when it is empty. -/
def fqWord (t i : Nat) (s : State) : Nat :=
  match (fqAt t s).recs with
  | [] => 0
  | r :: _ => leNat (((faultBytes r).drop (4 * i)).take 4)

def liveMmu (t off i : Nat) (s : State) : Option Nat :=
  if off = 0x24 then some (intMmu t s)
  else if off = 0x40 then some (fqWord t i s)
  else none

/-- R183: the streams whose faults abort. -/
def abortMode (st : Nat) : Bool := (0x48 ≤ st && st < 0x6C) || (0x80 ≤ st && st ≤ 0xA0) || 0xC0 ≤ st

def scanStatus (p : Nat) (s : State) : Nat :=
  let v := rd (Scan.SCAN_STATUS (pSl p) (pPl p)) s &&& 0x710
  v + appliedMode p s + 4 * b2n (linkTrained p s) + 8 * b2n (timelineRunning s)
    + match kget none p s.marks with
      | some m => 32 + 64 * b2n (m.testBit 16) + 65536 * (m % 65536)
      | none => 0

/-- R52: a commit bit reads 1 up to and including the latch clock. -/
def onLatchClock (sl : Nat) (s : State) : Bool := (sliceAt sl s).cpTimes.head?.map Prod.snd == some s.clk

def liveLayer (sl off : Nat) (s : State) : Option Nat :=
  if off = 0x408 then some (intLayer sl s)
  else if off = 0x400 then
    some (rd (Layer.LY_COMMIT sl) s ||| (if onLatchClock sl s then (sliceAt sl s).latchedLy else 0))
  else none

def liveTime (off : Nat) (s : State) : Option Nat :=
  if off = 0xC then some (intTime s)
  else if off = 0x460 then
    some (upTo 4 (fun sl v => v ||| 2 ^ sl * b2n (onLatchClock sl s && (sliceAt sl s).latchedPd))
      (rd Time.FT_PD_COMMIT s))
  else none

def liveScan (p off : Nat) (s : State) : Option Nat :=
  if off = 4 then some (scanStatus p s)
  else if off = 0x18 then some (linePos p s)
  else none

def liveTrunk (p off : Nat) (s : State) : Option Nat :=
  if off = 4 then some (putBits (putBits (rd (trkStatus p) s) 6 6 (b2n (cfgPending p s))) 5 5 (b2n (probeBusy p s)))
  else if off = 0xC then some (intTrunk p s)
  else none

/-- R401, R404. -/
def liveCrc (u off : Nat) (s : State) : Option Nat :=
  if off = 8 then some (b2n (crcIsBusy u s))
  else if off = 0x24 then
    some (if bit (Crc.CRC_CFG u) 2 s then crcRaw u s else crcFinalUnit u s)
  else none

/-- R414: a host read of an AON register returns the copy. -/
def liveSys (who : Req) (off : Nat) (s : State) : Option Nat :=
  if off = 0 then some Config.moduleId.toNat
  else if who = .host ∧ (off = 0x20 ∨ off = 0x54) then
    some (kget 0 (sysBase + off) s.host.aon).toNat
  else none

def liveNet (off p r : Nat) (s : State) : Option Nat :=
  if off = 0 then some (netSummary s)
  else if off = 0x100C then some (intNet p s)
  else if off = 0x1404 then some (putBits (rd (Net.RXR_STATUS p r) s) 28 16 (rxPosted p r s))
  else none

def ledStatus (s : State) : Nat :=
  (rd Led.LED_STATUS s &&& 4) + b2n (ownsSinks s) + 2 * b2n (bit Led.LED_CTRL 0 s && !shed s)
    + 8 * b2n (globalScale s < 0x8000) + 16 * b2n (roleOf s == rStandby)

def liveLed (off i : Nat) (s : State) : Option Nat :=
  if off = 4 then some (ledStatus s)
  else if off = 0xC then some (intLed s)
  else if off = 0x18 then some (pwmCount s)
  else if off = 0x110 then some (rd (Led.ENG_STATUS i) (runEngine i s))
  else if off = 0x100C then
    some (putBits (rd (Led.CH_STATUS i) s) 9 9
      (b2n (thFactor (fld (Led.CH_CFG i) 15 12 s) s < 0x8000)))
  else none

/-- R362: the head of a converter's FIFO. -/
def fifoHead (u : Nat) (s : State) : Nat :=
  match (convAt u s).fifo with
  | [] => 0
  | e :: _ => e.code + 65536 * e.input + 2097152 * e.slot + 33554432 * b2n e.delayed + 2 ^ 31
def fifoHeadTime (u : Nat) (s : State) : Nat :=
  match (convAt u s).fifo with | [] => 0 | e :: _ => e.time

def liveAdc (off u : Nat) (s : State) : Option Nat :=
  if off = 0xC then some (intAdc s)
  else if off = 0x1000 then
    some (putBits (rd Adc.CAL_CTRL s) 2 2 (b2n (bit Adc.CAL_STATUS 0 s)))
  else if off = 0x10C then
    some (putBits (rd (Adc.CONV_STATUS u) s) 14 8 (convAt u s).fifo.length)
  else if off = 0x11C then some (fifoHead u s)
  else if off = 0x120 then some (fifoHeadTime u s)
  else none

def liveRec (off : Nat) (s : State) : Option Nat :=
  if off = 4 then some (putBits (rd Rec.REC_STATUS s) 24 16 s.rcd.staged.length)
  else if off = 0xC then some (intRec s)
  else if off = 0x3C then some (b2n (recClearing s) + 2 * b2n (recFlushing s))
  else none

/-- R416: no access at an old base is outstanding when a command ends: MOVING reads 0. -/
def liveHst (off : Nat) (s : State) : Option Nat :=
  if off = 8 then some (intHost s)
  else if off = 0x28 then some (vecConds s)
  else if off = 0x144 then some (putBits (rd Hst.MBX_STATUS s) 0 0 (b2n s.host.mbx.isSome))
  else none

/-- What a computed register reads as; none: it is read from the bank. -/
def computed (f : Found) (who : Req) (s : State) : Option Nat :=
  let o := f.row.off
  match f.blk with
  | .slc => liveSlc f.i0 o s
  | .sched => liveSched f.i0 o f.k0 s
  | .dmaB => if o = 8 then some (dmaBusy f.blk4 s) else none
  | .mmu => liveMmu f.blk4 o f.k0 s
  | .iommu =>
    if o = 0x1000 then some (rd (Iommu.STE f.k0) s + 262144 * b2n (abortMode f.k0)) else none
  | .layer => liveLayer f.i0 o s
  | .scan => liveScan f.port o s
  | .trunk => liveTrunk f.port o s
  | .crc => liveCrc f.unit o s
  | .sys => liveSys who o s
  | .time => liveTime o s
  | .net => liveNet o f.k0 f.k1 s
  | .led => liveLed o f.k0 s
  | .adc => liveAdc o f.k0 s
  | .recorder => liveRec o s
  | .upd => if o = 0xC then some (intUpd s) else none
  | .hst => liveHst o s
  | .dma | .mc | .seg | .red => none

/-- The current value of a register as a requester sees it; a write-only register reads 0 (R8). -/
def live (f : Found) (a : Nat) (who : Req) (s : State) : Nat :=
  if f.row.acc = .wo then 0
  else match computed f who s with
    | some v => v
    | none => rd (f.reg a) s

/-- The code VLED_ADJ drives (R360); none: high-impedance. -/
def vledAdj (s : State) : Option Nat :=
  if !bit Led.HR_CTRL 2 s then none
  else some (if bit Led.HR_STATUS 11 s then rd Led.HR_SAFE s else rd Led.HR_ADJ s)

/-! ### Reads (R6, R10, R414) -/

/-- R5. -/
def physOf (off : Nat) : Nat := 0x1000000000 + off

/-- R414: the blocks that run from start-up step 4. -/
def inLateBlock (a : Nat) : Bool :=
  (0x1001000000 ≤ a && a < 0x1001400000 && 0x10000 ≤ a % 0x100000
    && !(0xD0000 ≤ a % 0x100000 && a % 0x100000 < 0xE0000))
    || (iommuBase ≤ a && a < iommuBase + 0x10000)

/-- A host access to a block that does not run yet. -/
def domainOff (who : Req) (a : Nat) (s : State) : Bool := who == .host && inLateBlock a && !slicesOn s

def setCapture (who : Req) (a : Nat) (v : Option Nat) (s : State) : State :=
  { s with capture := kset none (holdKey who a) v s.capture }
def captured (who : Req) (a : Nat) (s : State) : Option Nat := kget none (holdKey who a) s.capture

/-- R44: a read of the low half of FT_NEXT_T_SEC captures FT_NEXT_T_NS. -/
def captureNext (who : Req) (a : Nat) (s : State) : State :=
  if a = (Time.FT_NEXT_T_SEC).addr then
    setCapture who (Time.FT_NEXT_T_NS).addr (some (rd Time.FT_NEXT_T_NS s)) s
  else s

/-- R10: an RC register clears on a read that completes. -/
def clearRc (f : Found) (a : Nat) (completes : Bool) (s : State) : State :=
  if f.row.acc = .rc ∧ completes then wr (f.reg a) 0 s else s

/-- A whole register is read. -/
def readWhole (f : Found) (a : Nat) (who : Req) (completes : Bool) (s : State) : Nat × State :=
  (live f a who s, clearRc f a completes (captureNext who a s))

/-- A captured value is used up by a read that completes. -/
def useCapture (who : Req) (a v : Nat) (completes : Bool) (s : State) : Nat × State :=
  (v, if completes then setCapture who a none s else s)

/-- A read of 32 bits. -/
def readWord (who : Req) (a : Nat) (completes : Bool) (s : State) : Nat × State :=
  match findReg a with
  | none => (0, s)
  | some f =>
    let base := a - f.half
    if f.row.w64 then
      if f.half = 0 then
        let v := live f a who s
        (v % 2 ^ 32, clearRc f a completes (captureNext who a (setCapture who a (some v) s)))
      else match captured who base s with
        | some v => useCapture who base (v / 2 ^ 32) completes s
        | none => (live f a who s / 2 ^ 32, s)
    else match captured who base s with
      | some v => useCapture who base v completes s
      | none => readWhole f a who completes s

/-- A read of 64 bits: one register, or two of 32 bits. -/
def readWide (who : Req) (a : Nat) (completes : Bool) (s : State) : Nat × State :=
  match findReg a with
  | some f =>
    if f.row.w64 ∧ f.half = 0 then readWhole f a who completes s
    else
      let (lo, s) := readWord who a completes s
      let (hi, s) := readWord who (a + 4) completes s
      (lo + 2 ^ 32 * hi, s)
  | none =>
    let (hi, s) := readWord who (a + 4) completes s
    (2 ^ 32 * hi, s)

/-- A read of the register space. -/
def regRead (who : Req) (a : Nat) (wide completes : Bool) (s : State) : State :=
  let n := if wide then 8 else 4
  let (v, s) :=
    if domainOff who a s then (2 ^ (8 * n) - 1, orReg Hst.HOST_ERR 2 s)
    else if wide then readWide who a completes s
    else readWord who a completes s
  if completes then putRead who (leBytes n v) s else s

/-- R402: an access that reaches a busy check-value unit waits until it is idle, but for CRC_CTRL,
CRC_STATUS and CRC_BYTES. -/
def busyHop (a : Nat) (s : State) : State :=
  match findReg a with
  | some f => if f.blk = .crc ∧ f.row.off ∉ [4, 8, 0x28] then crcWait f.unit s else s
  | none => s

/-- R411: naturally aligned. -/
def aligned (off : Nat) (wide : Bool) : Bool := off % (if wide then 8 else 4) == 0

end Sys2Proof.Machine
end

