-- ==== Sys2Proof/Machine/Mailbox.lean ====
section
/-! DEFINITION. The mailbox (R420) and the notification ring (R421).

The layout of a command in MBX_CMD beyond its opcode is the model's (DESIGN CHOICE, log entry 60): argument i of
64 bits lies in words 1 + 2i and 2 + 2i, low half first; the sources of a group in words 5 to 12,
0 for none.  The answers fill MBX_RESP from word 0. -/

namespace Sys2Proof.Machine

/-! ### Notifications -/

def ntfSize (s : State) : Nat := 2 ^ max 4 (min 12 (fld Hst.NTF_CFG 3 0 s))
def ntfFull (s : State) : Bool :=
  (rd Hst.NTF_TAIL s + 1) % ntfSize s == rd Hst.NTF_HEAD s % ntfSize s

/-- R421: the 64 bytes of an entry. -/
def ntfBytes (type seq : Nat) (body : List Byte) : List Byte :=
  p1 type ++ leBytes 3 0 ++ p4 seq ++ (body ++ List.replicate 56 0).take 56

/-- R421: an entry is written and counted, or dropped. -/
def notify (type : Nat) (body : List Byte) (s : State) : State :=
  if !bit Hst.NTF_CFG 8 s then s
  else if ntfFull s then logPer 0x0D03 noInst oneSecond [] (bump Hst.NTF_LOST s)
  else
    let t := rd Hst.NTF_TAIL s % ntfSize s
    let s := putHost (rd Hst.NTF_BASE s + 64 * t) (ntfBytes type s.host.ntfSeq body) s
    let s := { s with host := { s.host with ntfSeq := (s.host.ntfSeq + 1) % 2 ^ 32 } }
    orReg Hst.INT_STATUS 2 (wr Hst.NTF_TAIL ((t + 1) % ntfSize s) s)

/-- Words the spec does not state: free values. -/
def freeBytes : Nat → State → List Byte × State
  | 0, s => ([], s)
  | n + 1, s =>
    let (v, s) := fresh s
    let (bs, s) := freeBytes n s
    (p8 v.toNat ++ bs, s)

/-- The body of an IMAGE or STEP entry is not stated. -/
def notifyFree (type : Nat) (s : State) : State :=
  if !bit Hst.NTF_CFG 8 s then s
  else
    let (b, s) := freeBytes 7 s
    notify type b s

/-- R189, R421: the first queue with a resumable record not yet copied, and the oldest of them. -/
def nextCopy (s : State) : Option (Nat × FaultRec) :=
  (List.range 5).findSome? fun t => (fqAt t s).toCopy.head?.map fun r => (t, r)

/-- A FAULT entry: the copy of that record, then its queue; what follows is the command's (DESIGN
CHOICE, log entry 106: the body's layout is not stated). -/
def copyFault (body : List Byte) (s : State) : State :=
  match nextCopy s with
  | none => s
  | some (t, r) =>
    let q := fqAt t s
    notify 1 (faultBytes r ++ p1 t ++ body.drop 33) (setFq t { q with toCopy := q.toCopy.drop 1 } s)

/-- NOTIFICATION_WRITE (R421): 1 FAULT, 2 IMAGE, 3 STEP; the body of the last two is the
command's. -/
def execNotificationWrite (type : BitVec 8) (body : List Byte) (s : State) :
    Host.Outcome State Fault Refusal :=
  if type = 1 then atOnce (unlessShed (copyFault body)) s
  else if type = 2 ∨ type = 3 then atOnce (unlessShed (notify type.toNat body)) s
  else atOnce id s

/-! ### What Renro picks (DESIGN CHOICE, log entry 61) -/

/-- The image ID, the ASID and the place of an image, and the latest TLV. -/
structure Picks where
  id : Nat
  asid : Nat
  place : Nat
  tlv : List Byte

def lowestId (s : State) : Nat := ((List.range 64).find? fun i => i ≠ 0 && (imageAt i s).isNone).getD 64
def lowestAsid (s : State) : Nat := ((List.range 65).find? fun a => a ≠ 0 && !asidUsed a s).getD 0

/-- The picks of a command given by plain register writes: where the image lies and what the TLV is
are free values. -/
def autoPicks (s : State) : Picks × State :=
  let (a, s) := fresh s
  let (t, s) := freeBytes 8 s
  (⟨lowestId s, lowestAsid s, a.toNat % 0x200000 * 4096, t⟩, s)

/-! ### The commands -/

def mbxWord (i : Nat) (s : State) : Nat := rd (Hst.MBX_CMD i) s
def mbxArg (i : Nat) (s : State) : Nat := mbxWord (1 + 2 * i) s + 2 ^ 32 * mbxWord (2 + 2 * i) s

/-- LOAD_IMAGE: the bytes Renro reads; an image with a poisoned line fails its check. -/
def mbxLoad (p : Picks) (s : State) : Answer :=
  let a := mbxArg 0 s
  let n := mbxArg 1 s
  let mask := mbxArg 2 s
  if mask = 0 ∨ 15 < mask ∨ !isDram a n then (rsBadArgs, [], s)
  else
    let s := meet renroReq a n s
    if poisoned a n s then
      (rsRejected, [], notifyFree 2 (logRenro 0x0D10 noInst (p2 0x3C ++ p2 0xFFFF) s))
    else
      let r := loadImage (memBytes a n s) mask p.id p.asid p.place s
      if r.1 = rsOk ∨ r.1 = rsRejected then (r.1, r.2.1, notifyFree 2 r.2.2) else r

/-- R289: the ports whose groups Renro keeps: U0, U1 and M0. -/
def groupOk (port group : Nat) : Bool := port < 3 && 0xE0000000 ≤ group && group < 0xF0000000

def groupSources (s : State) : List Nat :=
  ((List.range 8).map fun i => mbxWord (5 + i) s).filter (· ≠ 0)

def dropGroup (port group : Nat) (l : List (Nat × Nat × List Nat)) : List (Nat × Nat × List Nat) :=
  l.filter fun g => !(g.1 == port && g.2.1 == group)

/-- R289: Renro's IGMP message in an IPv4 packet with the router alert option, its checksum in place
(PRESUMED, log entry 122: IGMPv3 of RFC 3376 where sources are named, IGMPv2 of RFC 2236 where none). -/
def igmpPost (p ip : Nat) (msg : List Byte) (s : State) : State :=
  let m := setBe16 2 (checksum (onesSum msg)) msg
  let packet := p1 0x46 ++ p1 0xC0 ++ beBytes 2 (24 + m.length) ++ p4 0 ++ p1 1 ++ p1 2 ++ p2 0
    ++ beBytes 4 (Config.ipAddress p).toNat ++ beBytes 4 ip ++ beBytes 4 0x94040000 ++ m
  renroPost p 0 0 0 (putIpSum (etherFrame p (groupMac ip) 0x0800 packet s)) s

/-- A join (or a leave) of group g on port p, as a whole or for the sources named. -/
def igmpReport (p g : Nat) (sources : List Nat) (leave : Bool) (s : State) : State :=
  if sources.isEmpty then
    if leave then igmpPost p 0xE0000002 (beBytes 4 0x17000000 ++ beBytes 4 g) s
    else igmpPost p g (beBytes 4 0x16000000 ++ beBytes 4 g) s
  else
    igmpPost p 0xE0000016
      (beBytes 4 0x22000000 ++ beBytes 4 1 ++ p1 (if leave then 6 else 5) ++ p1 0
        ++ beBytes 2 sources.length ++ beBytes 4 g ++ sources.flatMap (beBytes 4)) s

/-- JOIN_GROUP; a group joined again takes the new sources. -/
def mbxJoin (s : State) : Answer :=
  let p := mbxArg 0 s
  let g := mbxArg 1 s
  if !groupOk p g then (rsBadArgs, [], s)
  else
    let l := dropGroup p g s.host.groups ++ [(p, g, groupSources s)]
    (rsOk, [], igmpReport p g (groupSources s) false { s with host := { s.host with groups := l } })

/-- LEAVE_GROUP: the group as a whole, or the sources named. -/
def mbxLeave (s : State) : Answer :=
  let p := mbxArg 0 s
  let g := mbxArg 1 s
  let out := groupSources s
  if !groupOk p g then (rsBadArgs, [], s)
  else
    let keep := (s.host.groups.filter fun x => x.1 == p && x.2.1 == g && !out.isEmpty).filterMap fun x =>
      let left := x.2.2.filter fun a => !out.contains a
      if left.isEmpty then none else some (p, g, left)
    (rsOk, [], igmpReport p g out true
      { s with host := { s.host with groups := dropGroup p g s.host.groups ++ keep } })

/-- The words little-endian bytes spell, at most n. -/
def wordsOf : Nat → List Byte → List Nat
  | 0, _ => []
  | n + 1, b => if b.isEmpty then [] else leNat (b.take 4) :: wordsOf n (b.drop 4)

/-- CONTINUE: start-up goes on where it waits for it. -/
def mbxContinue (s : State) : Answer :=
  if bit Sys.BOOT_STAGE 8 s then (rsOk, [], { s with boot := { s.boot with contSent := true } })
  else (rsOk, [], s)

/-- R417: DRAM the host may have written by Renro. -/
def hostDram (a n : Nat) : Bool := isDram a n && (a + n ≤ renroBase || dumpEnd ≤ a)

/-- READ_SUMMARY. -/
def mbxReadSummary (s : State) : Answer :=
  let slot := mbxArg 0 s
  let a := mbxArg 1 s
  let b := if slot = 0 then s.boot.firstSummary else s.boot.latestSummary
  if 1 < slot ∨ !hostDram a b.length then (rsBadArgs, [], s)
  else (rsOk, [b.length], writeBy renroReq a b s)

/-- CLEAR_SUMMARY. -/
def mbxClearSummary (s : State) : Answer :=
  let m := mbxArg 0 s
  if 3 < m then (rsBadArgs, [], s)
  else (rsOk, [], { s with boot :=
    { s.boot with
      firstSummary := if m.testBit 0 then [] else s.boot.firstSummary
      latestSummary := if m.testBit 1 then [] else s.boot.latestSummary } })

/-- What a command does and answers, by its opcode. -/
def mbxExec (p : Picks) (s : State) : Answer :=
  match mbxWord 0 s % 256 with
  | 0x01 => mbxLoad p s
  | 0x02 => unloadImage (mbxArg 0 s) s
  | 0x03 => mapCmd (mbxArg 0 s) (mbxArg 1 s) (mbxArg 2 s) (mbxArg 3 s) (mbxArg 4 s) s
  | 0x04 => unmapCmd (mbxArg 0 s) (mbxArg 1 s) (mbxArg 2 s) s
  | 0x05 => setStream (mbxArg 0 s) (mbxArg 1 s) (mbxArg 2 s) s
  | 0x06 => mbxJoin s
  | 0x07 => mbxLeave s
  | 0x08 => (rsOk, wordsOf 16 p.tlv, s)
  | 0x09 => mbxContinue s
  | 0x0A => mbxReadSummary s
  | 0x0B => mbxClearSummary s
  | _ => (rsBadCmd, [], s)

/-- R420, R451: what keeps Renro from taking a command. -/
def mbxTurned (s : State) : Option Nat :=
  if s.boot.quartz then some rsRejected
  else if frozen s ∨ fld Sys.BOOT_STAGE 3 0 s < 5 then some rsBusy
  else none

/-- UNLOAD_IMAGE and UNMAP complete after R182 step 4. -/
def mbxWaits (s : State) : Bool := mbxWord 0 s % 256 == 2 || mbxWord 0 s % 256 == 4

/-- MBX_GO (R420): the command takes effect; its answer comes with MBX_DONE. -/
def mbxGo (p : Picks) (s : State) : State :=
  if s.host.mbx.isSome then orReg Hst.HOST_ERR 0x20 s
  else
    let put (m : Mbx) (t : State) : State := { t with host := { t.host with mbx := some m } }
    match mbxTurned s with
    | some r =>
      put
        { result := r
          resp := [] } s
    | none =>
      let a := mbxExec p s
      put
        { result := a.1
          resp := a.2.1
          wait := mbxWaits s && a.1 == rsOk } a.2.2

/-- R182: an invalidation is under way. -/
def tlbiGoing (s : State) : Bool :=
  !s.host.tlbiDue.isEmpty || (List.range 5).any fun t => bit (Mmu.TLBI_CTRL t) 2 s

/-- MBX_DONE (R420). -/
def mbxDone (s : State) : State :=
  match s.host.mbx with
  | none => s
  | some m =>
    if m.wait && tlbiGoing s then s
    else
      let s := upTo m.resp.length (fun i s => wr (Hst.MBX_RESP i) (m.resp.getD i 0) s) s
      let s := setFld Hst.MBX_STATUS 15 8 m.result { s with host := { s.host with mbx := none } }
      orReg Hst.INT_STATUS 1 s
def execMbxDone (s : State) : Host.Outcome State Fault Refusal := atOnce (unlessShed mbxDone) s

/-! ### The commands as the host gives them: MBX_CMD written, then MBX_GO -/

def putCmd (ws : List Nat) (s : State) : State :=
  upTo ws.length (fun i s => wr (Hst.MBX_CMD i) (ws.getD i 0) s) s

/-- The words of an opcode and its 64-bit arguments. -/
def cmdWords (op : Nat) (args : List Nat) : List Nat :=
  op :: args.flatMap fun a => [a % 2 ^ 32, a / 2 ^ 32]

def hostCommand (ws : List Nat) (p : Picks) (s : State) : State :=
  if shed s then s else mbxGo p (putCmd ws s)
def plainCommand (op : Nat) (args : List Nat) (s : State) : State :=
  hostCommand (cmdWords op args) ⟨0, 0, 0, []⟩ s

/-- LOAD_IMAGE (R420, R103): `id`, `asid` and `place` are Renro's picks. -/
def execLoadImage (addr len : Word) (mask : BitVec 4) (id : BitVec 6) (asid : BitVec 16) (place : BitVec 33)
    (s : State) : Host.Outcome State Fault Refusal :=
  atOnce (hostCommand (cmdWords 1 [addr.toNat, len.toNat, mask.toNat])
    ⟨id.toNat, asid.toNat, place.toNat, []⟩) s
/-- UNLOAD_IMAGE (R420). -/
def execUnloadImage (id : Word) (s : State) : Host.Outcome State Fault Refusal :=
  atOnce (plainCommand 2 [id.toNat]) s
/-- MAP (R420, R182). -/
def execMap (asid va pa len perm : Word) (s : State) : Host.Outcome State Fault Refusal :=
  atOnce (plainCommand 3 [asid.toNat, va.toNat, pa.toNat, len.toNat, perm.toNat]) s
/-- UNMAP (R420, R182). -/
def execUnmap (asid va len : Word) (s : State) : Host.Outcome State Fault Refusal :=
  atOnce (plainCommand 4 [asid.toNat, va.toNat, len.toNat]) s
/-- SET_STREAM (R420, R184). -/
def execSetStream (stream asid enable : Word) (s : State) : Host.Outcome State Fault Refusal :=
  atOnce (plainCommand 5 [stream.toNat, asid.toNat, enable.toNat]) s

def groupWords (op port group : Nat) (sources : List (BitVec 32)) : List Nat :=
  cmdWords op [port, group]
    ++ ((sources.map BitVec.toNat) ++ List.replicate 8 0).take 8
/-- JOIN_GROUP (R420). -/
def execJoinGroup (port : Word) (group : BitVec 32) (sources : List (BitVec 32)) (s : State) :
    Host.Outcome State Fault Refusal :=
  atOnce (hostCommand (groupWords 6 port.toNat group.toNat sources) ⟨0, 0, 0, []⟩) s
/-- LEAVE_GROUP (R420). -/
def execLeaveGroup (port : Word) (group : BitVec 32) (sources : List (BitVec 32)) (s : State) :
    Host.Outcome State Fault Refusal :=
  atOnce (hostCommand (groupWords 7 port.toNat group.toNat sources) ⟨0, 0, 0, []⟩) s
/-- READ_TLV (R420): `tlv` is what Renro last received. -/
def execReadTlv (tlv : List Byte) (s : State) : Host.Outcome State Fault Refusal :=
  atOnce (hostCommand (cmdWords 8 []) ⟨0, 0, 0, tlv⟩) s
/-- CONTINUE (R420, R425). -/
def execContinue (s : State) : Host.Outcome State Fault Refusal := atOnce (plainCommand 9 []) s
/-- READ_SUMMARY (R420, R436). -/
def execReadSummary (slot addr : Word) (s : State) : Host.Outcome State Fault Refusal :=
  atOnce (plainCommand 10 [slot.toNat, addr.toNat]) s
/-- CLEAR_SUMMARY (R420, R436). -/
def execClearSummary (mask : Word) (s : State) : Host.Outcome State Fault Refusal :=
  atOnce (plainCommand 11 [mask.toNat]) s

end Sys2Proof.Machine
end

