-- ==== Sys2Proof/Machine/Bus.lean ====
section
/-! DEFINITION. Register writes (R6 to R9, R13, R411 to R414): what a write of each register does,
the BAR2 window (R415 to R417) and the interrupt vectors (R419).  A write whose action is a row of
its own runs that row's operation. -/

namespace Sys2Proof.Machine

/-! ### Storing -/

/-- A register write takes effect by its access code (R8): only the bits a write can act on; a
sticky bit that the module has set on this clock stays (R9). -/
def plainWrite (f : Found) (a v : Nat) (s : State) : State :=
  let r := f.reg a
  let old := rd r s
  let m := f.row.mask
  match f.row.acc with
  | .rw => wr r (((2 ^ 64 - 1 - m) &&& old) ||| (v &&& m)) s
  | .w1c => wr r (old &&& (2 ^ 64 - 1 - (v &&& m)) ||| (old &&& setOnClock r s)) s
  | .w1s => wr r (old ||| (v &&& m)) s
  | .wo => if m = 0 then s else wr r (v &&& m) s
  | .ro | .rc | .sc => s

/-- A write that a rule lets through, or that is ignored with an error flag. -/
def guarded (ok : Bool) (err : Reg) (m : Nat) (f : State → State) (s : State) : State :=
  if ok then f s else orReg err m s

/-- A write the host may not make: it is ignored. -/
def renroWrite (who : Req) (f : State → State) (s : State) : State := renroOnly who f s

/-! ### Slice control and scheduler -/

/-- R30: SLC_COMMIT_CFG. -/
def slcCommitCfg (sl v : Nat) (s : State) : State :=
  let lines := bitsOf v 15 8
  let ok := slcStatus sl s == 0 && decide (1 ≤ lines ∧ lines ≤ 64)
    && decide (lines ≤ rAct (rasterV (8 * sl + bitsOf v 2 0) s))
  guarded ok (Slc.SLC_ERR sl) 1 (wr (Slc.SLC_COMMIT_CFG sl) (v &&& 0xFF07)) s

def slcWrite (f : Found) (a v : Nat) (s : State) : State :=
  if f.row.off = 4 then slcRun f.i0 (v.testBit 0) s
  else if f.row.off = 0x10 then slcCommitCfg f.i0 v s
  else plainWrite f a v s

/-- R163: TICK_CFG; the frame grid takes the F that is written (DEDUCED, log entry 104: limited as
when the timeline enters RUNNING). -/
def tickCfg (sl v : Nat) (s : State) : State :=
  let us := bitsOf v 9 0
  let div := bitsOf v 29 17
  let ok := (delayedOf sl s).isEmpty && decide (1 ≤ us ∧ us ≤ 1000) && decide (1 ≤ div ∧ div ≤ 4096)
  guarded ok (Sched.SCHED_ERR sl) 1 (fun s =>
    updSched sl (fun c => { c with grid := c.grid.map fun g => (g.1, g.2.1, g.2.2.1, gridDiv g.2.1 g.2.2.1 div) })
      (wr (Sched.TICK_CFG sl) (v &&& 0x3FFF03FF) s)) s

/-- R156, R171: the save pool's registers: only Renro's, only while nothing runs or is saved. -/
def poolWrite (f : Found) (a : Nat) (who : Req) (v : Nat) (s : State) : State :=
  let sl := f.i0
  let n := bitsOf v 10 0
  let sizeOk := f.row.off = 0x20 || n = 0 || (32 ≤ n && n ≤ 1024)
  let ok := who == .renro && !sliceRun sl s && (schedAt sl s).slots.isEmpty && sizeOk
  guarded ok (Sched.SCHED_ERR sl) 2 (plainWrite f a v) s

/-- R161: FLOW_CFG, with its RESET bit. -/
def flowCfg (f : Found) (a v : Nat) (s : State) : State :=
  let s := plainWrite f a v s
  if v.testBit 2 then flowReset f.i0 f.k0 s else s

/-- R166: enabling an event-triggered entry clears PEND, LOST and ETS_SEQ. -/
def etsCtl (f : Found) (a v : Nat) (s : State) : State :=
  let was := bit (Sched.ETS_CTL f.i0 f.k0) 0 s
  let s := plainWrite f a v s
  if v.testBit 0 && !was then
    wr (Sched.ETS_STATUS f.i0 f.k0) 0 (wr (Sched.ETS_SEQ f.i0 f.k0) 0 s)
  else s

def schedWrite (f : Found) (a : Nat) (who : Req) (v : Nat) (s : State) : State :=
  match f.row.off with
  | 0x14 => tickCfg f.i0 v s
  | 0x20 | 0x28 => poolWrite f a who v s
  | 0x50 => killWrite f.i0 v s
  | 0xC0 => coreCtrlWrite f.i0 f.k0 (v.testBit 0) (v.testBit 1) s
  | 0x100 => flowCfg f a v s
  | 0x440 => submitWrite f.i0 s
  | 0x804 => etsCtl f a v s
  | 0x1020 | 0x1024 | 0x1028 | 0x1030 => renroWrite who (plainWrite f a v) s
  | _ => plainWrite f a v s

/-! ### DMA, translators, memory controllers -/

/-- CH_CTRL: weight and trigger first, then ENABLE and STOP (R194). -/
def chCtrl (k v : Nat) (s : State) : State :=
  let r := Dma.CH_CTRL k
  let s := wr r ((rd r s &&& 3) ||| (v &&& 0x7FF0)) s
  let s := dmaEnableWrite k (v.testBit 0) s
  if v.testBit 1 then dmaStop k s else s

def dmaWrite (f : Found) (a v : Nat) (s : State) : State :=
  let k := f.chan
  match f.row.off with
  | 0 => chCtrl k v s
  | 8 | 0x10 | 0x18 =>
    guarded (!chEnabled k s && chState k s == chIdle) (DmaB.DMA_ERR (chBlock k)) 1 (plainWrite f a v) s
  | 0x20 => doorbell k s
  | _ => plainWrite f a v s

/-- FAULT_RESP (R188): ACTION 1 resumes, 2 terminates. -/
def faultResp (t v : Nat) (s : State) : State :=
  let act := bitsOf v 17 16
  if act = 1 ∨ act = 2 then respond t (v % 65536) (act = 1) s else badToken t s

def mmuWrite (f : Found) (a : Nat) (who : Req) (v : Nat) (s : State) : State :=
  let t := f.blk4
  match f.row.off with
  | 0x24 | 0x28 => plainWrite f a v s
  | 0x10 =>
    renroWrite who (tlbiWrite t (bitsOf v 2 2) (bitsOf v 1 0) (bitsOf v 8 4) (bitsOf v 31 16)) s
  | 0x60 => renroWrite who (fqPop t) s
  | 0x64 => renroWrite who (faultResp t v) s
  | _ => renroWrite who (plainWrite f a v) s

/-! ### Ports and trunks -/

/-- LINE_CMP (R50): it acts from the first line that starts after the landing. -/
def lineCmp (f : Found) (a v : Nat) (s : State) : State :=
  let p := f.port
  let s := plainWrite f a v s
  if rastering p s then
    updPort p (fun x => { x with matchDone := decide (lineAt p (matchLine p s) s ≤ s.clk) }) s
  else s

def scanWrite (f : Found) (a v : Nat) (s : State) : State :=
  if f.row.off = 0x14 then lineCmp f a v s else plainWrite f a v s

/-- TRK_CTRL (R235, R265). -/
def trkCtrlWrite (p v : Nat) (s : State) : State :=
  let s := wr (trkCtrl p) ((rd (trkCtrl p) s &&& 1) ||| (v &&& 0xE)) s
  if v.testBit 0 then trunkEnable p s else trunkDisable p s

def trunkWrite (f : Found) (a v : Nat) (s : State) : State :=
  let p := f.port
  match f.row.off with
  | 0 => trkCtrlWrite p v s
  | 0x38 => guarded (!bit (trkCtrl p) 2 s) (trkErr p) 0x20 (plainWrite f a v) s
  | 0x60 => cmdPush p s
  | _ => plainWrite f a v s

/-! ### Check-value units -/

def crcWrite (f : Found) (a : Nat) (who : Req) (v : Nat) (s : State) : State :=
  let u := f.unit
  crcGuard u who (fun s =>
    match f.row.off with
    | 0 => crcCfgWrite u (v % 4) (v.testBit 2) s
    | 4 => if v.testBit 0 then crcInitUnit u s else s
    | 0x10 => crcFeedUnit u (p1 v) s
    | 0x14 => crcFeedUnit u (p2 v) s
    | 0x18 => crcFeedUnit u (p4 v) s
    | 0x20 => crcPutUnit u v s
    | _ => plainWrite f a v s) s

/-! ### SYS and time -/

/-- GPI_CFG (R430): a change of FILTER restarts the count in progress. -/
def gpiCfg (f : Found) (a v : Nat) (s : State) : State :=
  let i := f.k0
  let old := gpiFilter i s
  let s := plainWrite f a v s
  if gpiFilter i s = old then s else setGpi i { gpiAt i s with count := 0 } s

def sysWrite (f : Found) (a v : Nat) (s : State) : State :=
  match f.row.off with
  | 0x10 => sysReset v s
  | 0x3C => dumpAck v s
  | 0x58 => pwrClear s
  | 0x100 => gpiCfg f a v s
  | _ => plainWrite f a v s

/-- STEP_CMD (R279): both bits together are refused. -/
def stepCmd (who : Req) (v : Nat) (s : State) : State :=
  match v % 4 with
  | 1 => stepCmdStep who s
  | 2 => stepCmdSet who s
  | 3 => orReg Time.TIME_ERR 2 s
  | _ => s

/-- FI_CFG (R285): ENABLE needs a period in the range of R39. -/
def fiCfg (f : Found) (a v : Nat) (s : State) : State :=
  let num := rd Time.FI_PERIOD_NUM s
  let den := rd Time.FI_PERIOD_DEN s
  let ok := den ≠ 0 && 12500000 * den ≤ 3 * num && 3 * num ≤ 125125000 * den
  if v.testBit 0 ∧ ¬ bit Time.FI_CFG 0 s ∧ ¬ ok then
    orReg Time.TIME_ERR 0x20 (plainWrite f a (putBits v 0 0 0) s)
  else plainWrite f a v s

def timeWrite (f : Found) (a : Nat) (who : Req) (v : Nat) (s : State) : State :=
  let stopped := ftState s == ftStopped
  match f.row.off with
  | 0 => timeCtrlWrite v s
  | 0x20 => timeSnap s
  | 0x54 => stepCmd who v s
  | 0x68 => servoSample v s
  | 0x78 => guarded (1 ≤ v && v ≤ 50000) Time.TIME_ERR 0x20 (plainWrite f a v) s
  | 0x84 => guarded (10 ≤ v && v ≤ 60000) Time.TIME_ERR 0x20 (plainWrite f a v) s
  | 0x120 => tsqPop f.k0 s
  | 0x200 => trigCtrlWrite f.k0 v s
  | 0x208 | 0x210 | 0x214 => guarded (!trigEnabled f.k0 s) Time.TIME_ERR 4 (plainWrite f a v) s
  | 0x320 => ltcPop s
  | 0x380 => fiCfg f a v s
  | 0x384 | 0x390 | 0x398 => if bit Time.FI_CFG 0 s then s else plainWrite f a v s
  | 0x388 =>
    if bit Time.FI_CFG 0 s then s
    else guarded (decide (1 ≤ v ∧ v ≤ 65535)) Time.TIME_ERR 0x20 (plainWrite f a v) s
  | 0x400 => if v.testBit 0 then timelineArm s else timelineStop s
  | 0x408 | 0x40C | 0x410 => guarded stopped Time.FT_ERR 1 (plainWrite f a v) s
  | 0x418 => guarded (stopped && v ≤ 999999999) Time.FT_ERR 1 (plainWrite f a v) s
  | _ => plainWrite f a v s

/-! ### Network -/

def netWrite (f : Found) (a : Nat) (who : Req) (v : Nat) (s : State) : State :=
  let p := f.k0
  let r := f.k1
  match f.row.off with
  | 0x1000 => portCtrlWrite p who v s
  | 0x1400 => rxrCtrlWrite p r who v s
  | 0x1408 => ringWriter who r (guarded (!bit (Net.RXR_CTRL p r) 0 s) (Net.PORT_ERR p) 1 (plainWrite f a v)) s
  | 0x1410 | 0x1418 => ringWriter who r (plainWrite f a v) s
  | 0x1600 => txrCtrlWrite p r who v s
  | 0x1608 => ringWriter who r (guarded (!bit (Net.TXR_CTRL p r) 0 s) (Net.PORT_ERR p) 1 (plainWrite f a v)) s
  | 0x1610 => ringWriter who r (plainWrite f a v) s
  | 0x1800 => gclCtrlWrite p who v s
  | 0x1808 | 0x1810 | 0x1814 | 0x1818 => gclWriter p who (plainWrite f a v) s
  | 0x1A00 => gclEntryWrite p r (f.idx.getD 2 0) who v s
  | 0x8000 => flowCtrlWrite p (v &&& 0xFFF3FFF) s
  | 0x8034 => flowRelease p (v % 16) s
  | _ => plainWrite f a v s

/-! ### LED, converters, calibration -/

/-- LED_CTRL (R341, R343). -/
def ledCtrl (v : Nat) (s : State) : State :=
  let s := setFreeze (v.testBit 2) s
  let s := wr Led.LED_CTRL ((rd Led.LED_CTRL s &&& 4) ||| (v &&& 3)) s
  if v.testBit 0 then s else channelsOff s

/-- R355: TH_CFG; a disabled thermistor has the factor 0x8000. -/
def thCfg (f : Found) (a v : Nat) (s : State) : State :=
  let ok := decide (sgn 8 (bitsOf v 15 8) < sgn 8 (bitsOf v 23 16))
  let t := f.k0
  guarded ok Led.LED_ERR 1 (fun s =>
    let s := plainWrite f a v s
    if v.testBit 0 then s
    else putFactor t 0x8000 (sgn 16 (fld (Led.TH_STATUS t) 15 0 s)) s) s

/-- R342: a host write that the STANDBY module ignores. -/
def ledStandby (who : Req) (f : State → State) (s : State) : State :=
  if who = .host ∧ roleOf s = rStandby then
    logPer 0x080E noInst oneMinute [] (orReg Led.LED_ERR 2 s)
  else f s

/-- A write of CH_DUTY, CH_CFG or CH_CURRENT waits for a start 2 clocks later (R347); a channel
that is disabled stops conducting (R341). -/
def chWrite (f : Found) (a v : Nat) (s : State) : State :=
  let s := plainWrite f a v (noteLedWrite f.k0 s)
  if f.row.off = 0x1004 ∧ ¬ v.testBit 0 then chOff f.k0 s else s

/-- R346: a valid write of PWM_PERIOD waits for the wrap. -/
def pwmPeriod (f : Found) (a v : Nat) (s : State) : State :=
  let s := ledNorm s
  plainWrite f a v { s with led := { s.led with written := true } }

/-- R359: HR_CTRL: the loop's first interval begins as it is enabled. -/
def hrCtrl (f : Found) (a v : Nat) (s : State) : State :=
  plainWrite f a v (if v.testBit 0 ∧ ¬ bit Led.HR_CTRL 0 s then hrBegin s else s)

def ledWrite (f : Found) (a : Nat) (who : Req) (v : Nat) (s : State) : State :=
  match f.row.off with
  | 0 => ledCtrl v s
  | 0x14 => guarded (10000 ≤ v && v ≤ 200000) Led.LED_ERR 1 (pwmPeriod f a v) s
  | 0x24 => guarded (v ≤ 30000) Led.LED_ERR 1 (plainWrite f a v) s
  | 0x30 => hrCtrl f a v s
  | 0x38 => if bit Led.HR_CTRL 0 s then s else plainWrite f a v s
  | 0x40 => guarded (v ≤ 75000) Led.LED_ERR 1 (plainWrite f a v) s
  | 0x50 => thCfg f a v s
  | 0x100 | 0x108 | 0x400 => ledStandby who (plainWrite f a v) s
  | 0x1000 => ledStandby who (chWrite f a v) s
  | 0x1004 => chWrite f a v s
  | 0x1008 => guarded (v ≤ 700) Led.LED_ERR 1 (chWrite f a v) s
  | 0x1010 => chClear f.k0 s
  | _ => plainWrite f a v s

/-- CONV_CTRL, CONV_TRIG_CFG and SLOT take no write while ENABLE is 1 (R368; DEDUCED, log entry 13). -/
def convWrite (f : Found) (a v : Nat) (s : State) : State :=
  guarded (!bit (Adc.CONV_CTRL f.k0) 0 s) Adc.ADC_ERR 1 (plainWrite f a v) s

/-- CAL_CTRL (R372, R373): START takes what it measures from free values. -/
def calCtrl (f : Found) (a v : Nat) (s : State) : State :=
  let s := plainWrite f a v s
  let s := if v.testBit 2 then
      let (x, s) := fresh s
      let (y, s) := fresh s
      calStart (v % 4) ⟨x.toNat % 2 ^ 32, x.toNat / 2 ^ 32, y.getLsbD 48, y.toNat % 2 ^ 48⟩ s
    else s
  if v.testBit 3 then calInterrupt 0 s else s

def adcWrite (f : Found) (a v : Nat) (s : State) : State :=
  match f.row.off with
  | 0x100 | 0x104 | 0x140 => convWrite f a v s
  | 0x108 => convGo f.k0 s
  | 0x118 => fifoPop f.k0 s
  | 0x1000 => calCtrl f a v s
  | _ => plainWrite f a v s

/-! ### Recorder, update, redundancy, host -/

/-- REC_CTRL (R387, R393): FLUSH_MS outside its range is refused, the other fields take effect. -/
def recCtrl (v : Nat) (s : State) : State :=
  let ms := bitsOf v 31 16
  let s := setFld Rec.REC_CTRL 15 8 (bitsOf v 15 8) s
  let s := guarded (10 ≤ ms && ms ≤ 60000) Rec.REC_ERR 1 (setFld Rec.REC_CTRL 31 16 ms) s
  recFreeze (v.testBit 1) (recDirectWrite (v.testBit 0) s)

/-- REC_CMD (R387, R391). -/
def recCmd (who : Req) (v : Nat) (s : State) : State :=
  let s := if v.testBit 0 then recClear who (bitsOf v 31 16) s else s
  if v.testBit 1 then recFlush s else s

def recWrite (f : Found) (a : Nat) (who : Req) (v : Nat) (s : State) : State :=
  match f.row.off with
  | 0 => recCtrl v s
  | 0x20 => guarded (v % 256 == 0 && v ≤ 32768) Rec.REC_ERR 1 (plainWrite f a v) s
  | 0x3C => recCmd who v s
  | 0x40 => recRead (v % 131072) s
  | 0x120 => hostLogSubmit s
  | _ => plainWrite f a v s

/-- UPD_CMD (R445): what the checks of R443 and the flash find are free values. -/
def updCmd (v : Nat) (s : State) : State :=
  let (x, s) := fresh s
  let b := x.getLsbD
  updCommand (match v % 256 with
    | 1 => updBegin (b 0) (b 3)
    | 2 => updChunk (b 3)
    | 3 => updVerify (b 0) (b 1) (b 2)
    | 4 => updActivate
    | 5 => updConfirm
    | 6 => updRevert
    | 7 => updAbort
    | op => refuseUpd op rBadCmd) s

def updWrite (f : Found) (a v : Nat) (s : State) : State :=
  if f.row.off = 0x20 then updCmd v s else plainWrite f a v s

/-- RED_CTRL: HB_MISS outside 2 to 15 is refused, the other field takes effect. -/
def redCtrl (v : Nat) (s : State) : State :=
  let n := bitsOf v 11 8
  let s := setBit Red.RED_CTRL 0 (v.testBit 0) s
  guarded (2 ≤ n) Red.RED_ERR 1 (setFld Red.RED_CTRL 11 8 n) s

/-- R325: host writes of SHOW_* on the standby are ignored. -/
def showWrite (who : Req) (f : State → State) (s : State) : State :=
  if who = .host ∧ roleOf s = rStandby then s else f s

def redWrite (f : Found) (a : Nat) (who : Req) (v : Nat) (s : State) : State :=
  match f.row.off with
  | 0 => redCtrl v s
  | 0x14 => guarded (v % 65536 ≠ 0) Red.RED_ERR 1 (fun s => putClaim (plainWrite f a v s)) s
  | 0x24 => switchCmd v s
  | 0x80 | 0x88 | 0x90 | 0x100 => showWrite who (plainWrite f a v) s
  | _ => plainWrite f a v s

/-! ### Interrupt vectors (R419) -/

def vecMasked (v : Nat) (s : State) : Bool := bit (Hst.MSIX v 3) 0 s
def setPba (v : Nat) (x : Bool) (s : State) : State := setBit (Hst.MSIX_PBA (v / 32)) (v % 32) x s
def inService (v : Nat) (s : State) : Bool := s.host.inService.contains v

/-- The message: its data to its address, in host memory. -/
def sendVector (v : Nat) (s : State) : State :=
  let addr := rd (Hst.MSIX v 0) s + 2 ^ 32 * rd (Hst.MSIX v 1) s
  let s := putHost addr (p4 (rd (Hst.MSIX v 2) s)) s
  setPba v false { s with host := { s.host with inService := s.host.inService ++ [v] } }

/-- A vector is evaluated: idle, unmasked and with its condition true, it sends. -/
def vecFire (v : Nat) (s : State) : State :=
  if 62 ≤ v then s
  else if inService v s then s
  else if !vecCond v s then setPba v false s
  else if vecMasked v s then setPba v true s
  else sendVector v s

/-- VEC_ACK: the vector becomes idle and is evaluated again; a vector that is not in service has
nothing to acknowledge. -/
def vecAck (v : Nat) (s : State) : State :=
  if inService v s then
    vecFire v { s with host := { s.host with inService := s.host.inService.filter (· ≠ v) } }
  else s

/-- R415: BAR2_BASE. -/
def bar2Base (v : Nat) (s : State) : State :=
  guarded (v % 0x40000000 == 0 && v ≤ 0x700000000) Hst.HOST_ERR 8 (wr Hst.BAR2_BASE v) s

/-- MBX_GO written by itself (DESIGN CHOICE, log entry 61). -/
def plainGo (s : State) : State :=
  let (p, s) := autoPicks s
  mbxGo p s

def hstWrite (f : Found) (a v : Nat) (s : State) : State :=
  match f.row.off with
  | 0x10 => bar2Base v s
  | 0x20 => vecAck (v % 64) s
  | 0x140 => if shed s then s else plainGo s
  | _ => plainWrite f a v s

/-! ### Stored settings (R452) -/

/-- The registers whose host writes Renro keeps. -/
def storable (f : Found) : Bool :=
  match f.blk with
  | .led => f.row.off ∈ [0x30, 0x1004, 0x1008, 0x4000, 0x8000]
  | .upd => f.row.off == 0
  | .red => f.row.off ∈ [0, 0x14, 0x20, 0x200]
  | _ => false

/-- A host change joins the settings as the register now holds it; HOP_SKEW is written at once. -/
def storeSetting (f : Found) (a : Nat) (who : Req) (s : State) : State :=
  if who = .host ∧ storable f then
    let urgent := f.blk == .red && f.row.off == 0x200
    { s with upd := { s.upd with
        cur := { s.upd.cur with stored := kset 0 (a - f.half) (rd (f.reg a) s + 1) s.upd.cur.stored }
        dirty := true
        urgent := s.upd.urgent || urgent } }
  else s

/-! ### One register (R6, R13) -/

/-- An IMM write lands. -/
def immWrite (f : Found) (a : Nat) (who : Req) (v : Nat) (s : State) : State :=
  let s := match f.blk with
    | .slc => slcWrite f a v s
    | .sched => schedWrite f a who v s
    | .dma => dmaWrite f a v s
    | .mmu => mmuWrite f a who v s
    | .mc => plainWrite f a v s
    | .iommu => renroWrite who (plainWrite f a v) s
    | .scan => scanWrite f a v s
    | .trunk => trunkWrite f a v s
    | .crc => crcWrite f a who v s
    | .sys => sysWrite f a v s
    | .time => timeWrite f a who v s
    | .net => netWrite f a who v s
    | .led => ledWrite f a who v s
    | .adc => adcWrite f a v s
    | .recorder => recWrite f a who v s
    | .upd => updWrite f a v s
    | .red => redWrite f a who v s
    | .hst => hstWrite f a v s
    | .dmaB | .layer | .seg => plainWrite f a v s
  storeSetting f a who s

/-- The slices whose commit logic an SHD or WIN write of this register meets. -/
def commitSlices (f : Found) : List Nat :=
  if f.blk = .time then (if f.row.off = 0x440 then [f.k0] else List.range 4) else [f.i0]

/-- R52: a commit point due by now has passed before an SHD write counts. -/
def passCommits (f : Found) (s : State) : State := forAll commitIfDue (commitSlices f) s

/-- R33, R51: a WIN write on the commit point's own clock still replaces what is armed; one after
it does not. -/
def passEarlier (f : Found) (s : State) : State :=
  forAll (fun sl s => if cpInstant sl s < s.clk then commitIfDue sl s else s) (commitSlices f) s

/-- A write of one register, by its commit class. -/
def landWrite (f : Found) (a : Nat) (who : Req) (v : Nat) (s : State) : State :=
  match f.row.cls with
  | .imm => immWrite f a who v s
  | .shd => plainWrite f a v (passCommits f s)
  | .win =>
    if f.row.acc = .rw then winLand f (a - f.half) (v &&& f.row.mask) (passEarlier f s) else s

/-! ### Accesses of 4 and 8 bytes (R6, R35) -/

/-- What a write latches: a 64-bit register takes its low half from the holding register, or keeps
its present one: of a WIN register with a write armed in time, that write's low half (DESIGN
CHOICE, log entry 107: R6 does not say which is present). -/
def latch64 (f : Found) (base : Nat) (who : Req) (hi : Nat) (s : State) : State :=
  let lo := (heldLow who base s).getD (nextVal (f.reg base) s % 2 ^ 32)
  landWrite { f with half := 0 } base who (lo + 2 ^ 32 * (hi % 2 ^ 32)) (setHeldLow who base none s)

/-- A write of 32 bits. -/
def writeWord (who : Req) (a v : Nat) (s : State) : State :=
  match findReg a with
  | none => s
  | some f =>
    let v := v % 2 ^ 32
    if f.row.w64 then
      if f.half = 0 then
        if f.row.acc = .ro then s else setHeldLow who a (some v) s
      else latch64 f (a - 4) who v s
    else landWrite f a who v s

/-- R35: a 64-bit access to two words of the segment map, a matrix or a curve is one late write. -/
def segPair (f : Found) (a v : Nat) (s : State) : State :=
  let s := passEarlier f s
  let t := armWin f a (v % 2 ^ 32 &&& f.row.mask) s
  let t := match findReg (a + 4) with
    | some g => armWin g (a + 4) (v / 2 ^ 32 &&& g.row.mask) t
    | none => t
  if countsLate f.i0 s then noteLate f a t else t

/-- A write of 64 bits: one register, or two of 32 bits. -/
def writeWide (who : Req) (a v : Nat) (s : State) : State :=
  match findReg a with
  | some f =>
    if f.row.w64 ∧ f.half = 0 then landWrite f a who (v % 2 ^ 64) (setHeldLow who a none s)
    else if f.blk = .seg then segPair f a v s
    else writeWord who (a + 4) (v / 2 ^ 32) (writeWord who a v s)
  | none => writeWord who (a + 4) (v / 2 ^ 32) s

/-! ### The bus (R411 to R414) -/

/-- R410: in D3hot a host access completes as Unsupported Request. -/
def hostAsleep (who : Req) (s : State) : Bool := who == .host && bit Hst.HOST_STATUS 9 s

/-- R411: an access that is not 4 or 8 aligned bytes. -/
def hostUr (off : Nat) (s : State) : State :=
  logPer 0x0D01 noInst oneSecond (p8 off) (orReg Hst.HOST_ERR 1 s)

/-- A write to the register space. -/
def regWrite (who : Req) (off : Nat) (wide : Bool) (v : Nat) (s : State) : State :=
  let a := physOf off
  if hostAsleep who s then s
  else if !aligned off wide then (match who with | .host => hostUr off s | .renro => s)
  else if domainOff who a s then orReg Hst.HOST_ERR 2 s
  else if wide then writeWide who a v s
  else writeWord who a v s

/-- REGISTER_WRITE (R8): a write of 4 or 8 bytes at an offset of the register space (R5) lands. -/
def execRegisterWrite (who : Req) (off : BitVec 26) (wide : Bool) (v : Word) (s : State) :
    Host.Outcome State Fault Refusal :=
  timed (busyHop (physOf off.toNat)) (regWrite who off.toNat wide v.toNat) s

/-- WIN_WRITE (R51): a write to a WIN register lands in TIME. -/
def execWinWrite (who : Req) (off : BitVec 26) (wide : Bool) (v : Word) (s : State) :
    Host.Outcome State Fault Refusal :=
  atOnce (fun s =>
    match findReg (physOf off.toNat) with
    | some f => if f.row.cls = .win then regWrite who off.toNat wide v.toNat s else s
    | none => s) s

/-- LOW_HALF_WRITE (R6): a 32-bit write to the low half of a 64-bit register is held. -/
def execLowHalfWrite (who : Req) (off : BitVec 26) (v : BitVec 32) (s : State) :
    Host.Outcome State Fault Refusal :=
  atOnce (fun s =>
    match findReg (physOf off.toNat) with
    | some f => if f.row.w64 ∧ f.half = 0 then regWrite who off.toNat false v.toNat s else s
    | none => s) s

/-- LOW_HALF_READ (R6): the live low half, and the whole value captured. -/
def execLowHalfRead (who : Req) (off : BitVec 26) (s : State) : Host.Outcome State Fault Refusal :=
  timed (busyHop (physOf off.toNat))
    (fun s =>
      match findReg (physOf off.toNat) with
      | some f =>
        if f.row.w64 ∧ f.half = 0 ∧ ¬ hostAsleep who s then
          regRead who (physOf off.toNat) false true s
        else s
      | none => s) s

/-- RC_READ (R10): a register is read; `completes` says whether the read reaches its requester. -/
def execRcRead (who : Req) (off : BitVec 26) (wide completes : Bool) (s : State) :
    Host.Outcome State Fault Refusal :=
  timed (busyHop (physOf off.toNat))
    (fun s =>
      if hostAsleep who s then s
      else if aligned off.toNat wide then regRead who (physOf off.toNat) wide completes s
      else match who with
        | .host => hostUr off.toNat s
        | .renro => s) s

/-- SHD_COMMIT (R52): a write of LY_COMMIT of a slice (groups 0 to 3) or of FT_PD_COMMIT (4). -/
def execShdCommit (grp : Fin 5) (who : Req) (v : BitVec 32) (s : State) :
    Host.Outcome State Fault Refusal :=
  let r := if grp.val < 4 then Layer.LY_COMMIT grp.val else Time.FT_PD_COMMIT
  atOnce (regWrite who (r.addr - physOf 0) false v.toNat) s

/-- SLC_COMMIT_CFG_WRITE (R30). -/
def execSlcCommitCfgWrite (slice : Fin 4) (who : Req) (v : BitVec 32) (s : State) :
    Host.Outcome State Fault Refusal :=
  atOnce (landing who false (slcCommitCfg slice.val v.toNat)) s

/-- HOST_UR (R411): an access that BAR0 does not accept, at this offset. -/
def execHostUr (off : BitVec 26) (s : State) : Host.Outcome State Fault Refusal :=
  atOnce (hostUr off.toNat) s

/-! ### BAR2 (R415 to R417) -/

/-- Does an access touch a range. -/
def touches (a n lo hi : Nat) : Bool := 0 < n && a < hi && lo < a + n

/-- A read or a write of BAR2 at offset o; the read's bytes go to the host. -/
def bar2 (write : Bool) (o n : Nat) (data : List Byte) (e : Ecc) (s : State) : State :=
  let a := rd Hst.BAR2_BASE s + o
  let n := if write then data.length else n
  if hostAsleep .host s ∨ 0x100000000 < o + n then s
  else if touches a n renroBase dumpBase then
    putRead .host [] (orReg Hst.HOST_ERR 4 s)
  else if write then
    if touches a n dumpBase dumpEnd then orReg Hst.HOST_ERR 4 s
    else writeBy ⟨7, 0⟩ a data s
  else
    let s := meet ⟨7, 0⟩ a n (eccEvent e a ⟨7, 0⟩ s)
    let s := if poisoned a n s then orReg Hst.HOST_ERR 0x10 s else s
    putRead .host (memBytes a n s) s

/-- BAR2_ACCESS: n bytes are read, or the data is written; a read's ECC is an observation. -/
def execBar2Access (write : Bool) (off : BitVec 32) (len : BitVec 13) (data : List Byte) (e : Ecc)
    (s : State) : Host.Outcome State Fault Refusal :=
  atOnce (unlessShed (bar2 write off.toNat len.toNat data e)) s

/-- BAR2_BASE_WRITE (R415, R416). -/
def execBar2BaseWrite (who : Req) (v : Word) (s : State) : Host.Outcome State Fault Refusal :=
  atOnce (landing who false (latching who Hst.BAR2_BASE (bar2Base v.toNat))) s

/-- VEC_ACK (R419). -/
def execVecAck (v : BitVec 6) (s : State) : Host.Outcome State Fault Refusal := atOnce (vecAck v.toNat) s

/-- MSIX_MESSAGE (R419): a vector is evaluated. -/
def execMsixMessage (v : Fin 64) (s : State) : Host.Outcome State Fault Refusal :=
  atOnce (vecFire v.val) s

end Sys2Proof.Machine
end

