-- ==== Sys2Proof/Machine/Boot.lean ====
section
/-! DEFINITION. Start-up (R425, R426): what Renro sets up at each step. -/

namespace Sys2Proof.Machine

/-! ### TH_LUT for the standard NTC (R354) -/

/-! Entries 1 to 255 in 1/16 degC, nearest: an NTC of 10 kOhm at 25 degC with B = 3,435 K against
10.0 kOhm, at r = j / 256.  At j = 0 and j = 256 the formula has no value. -/

def ntc0 : List Int :=
  [4821, 3861, 3385, 3079, 2856, 2684, 2543, 2426, 2325, 2237, 2159, 2089, 2026, 1968, 1915,
   1866, 1820, 1778, 1738, 1701, 1665, 1632, 1600, 1570, 1541, 1513, 1487, 1462, 1437, 1414,
   1391, 1369, 1348, 1328, 1308, 1289, 1271, 1253, 1235, 1218, 1201, 1185, 1169, 1154, 1139,
   1124, 1110, 1096, 1082, 1068, 1055, 1042, 1029, 1017, 1005, 993, 981, 969, 958, 946, 935, 924,
   913, 903]
def ntc1 : List Int :=
  [892, 882, 872, 862, 852, 842, 832, 823, 814, 804, 795, 786, 777, 768, 759, 750, 742, 733, 725,
   716, 708, 700, 692, 684, 676, 668, 660, 652, 644, 637, 629, 621, 614, 606, 599, 592, 584, 577,
   570, 562, 555, 548, 541, 534, 527, 520, 513, 506, 500, 493, 486, 479, 472, 466, 459, 452, 446,
   439, 433, 426, 419, 413, 406, 400]
def ntc2 : List Int :=
  [394, 387, 381, 374, 368, 361, 355, 349, 342, 336, 330, 323, 317, 311, 304, 298, 292, 286, 279,
   273, 267, 260, 254, 248, 242, 235, 229, 223, 216, 210, 204, 197, 191, 185, 178, 172, 166, 159,
   153, 146, 140, 134, 127, 121, 114, 108, 101, 94, 88, 81, 75, 68, 61, 54, 48, 41, 34, 27, 20,
   13, 6, -1, -8, -15]
def ntc3 : List Int :=
  [-23, -30, -37, -44, -52, -59, -67, -75, -82, -90, -98, -106, -114, -122, -130, -139, -147,
   -156, -164, -173, -182, -191, -200, -209, -219, -228, -238, -248, -258, -268, -279, -289,
   -300, -311, -323, -335, -347, -359, -372, -385, -398, -412, -427, -442, -457, -473, -490,
   -508, -526, -546, -567, -589, -612, -638, -665, -695, -729, -767, -810, -862, -926, -1012,
   -1149]

/-- Renro loads the table; its ends are free values (DESIGN CHOICE, log entry 63). -/
def loadThLut (s : State) : State :=
  let t := ntc0 ++ ntc1 ++ ntc2 ++ ntc3
  let s := upTo 255 (fun i s => wr (Led.TH_LUT (i + 1)) (unsgn 16 (t.getD i 0)) s) s
  let (a, s) := fresh s
  let (b, s) := fresh s
  wr (Led.TH_LUT 256) (b.toNat % 65536) (wr (Led.TH_LUT 0) (a.toNat % 65536) s)

/-! ### Steps -/

def bootStep (s : State) : Nat := fld Sys.BOOT_STAGE 3 0 s

/-- Every step sets BOOT_STAGE.STEP, logs STARTUP_STEP and, once the ring is enabled, notifies. -/
def reachStep (n : Nat) (s : State) : State :=
  let s := orReg Sys.SYS_INT_STATUS 2 (wr Sys.BOOT_STAGE n s)
  notifyFree 3 (logRenro 0x0104 noInst (p1 n) s)

def holdForHost (s : State) : State := setBit Sys.BOOT_STAGE 8 true s

/-- A stored register value is loaded: only what a write may set. -/
def loadStored (q : Nat × Nat) (s : State) : State :=
  match findReg q.1 with
  | some f => if f.row.acc = .rw ∧ 0 < q.2 then landWrite f q.1 .renro (q.2 - 1) s else s
  | none => s

/-- The stored values, of UPD_CTRL (`early`) or of the others. -/
def loadSettings (early : Bool) (s : State) : State :=
  forAll loadStored (s.upd.cur.stored.filter fun q => (q.1 == Upd.UPD_CTRL.addr) == early) s

/-- Renro enables a network port with its MODE: its latencies (R271) and ring 3 (R289, R308) are set. -/
def enableNet (p mode : Nat) (mac : BitVec 48) (s : State) : State :=
  let v := putBits (rd (Net.PORT_CTRL p) s) 2 1 mode
  let s := putPortLatency p (portCtrlWrite p .renro v s)
  openRing3 p (wr (Net.MAC_ADDR p) mac.toNat (portCtrlWrite p .renro (putBits v 0 0 1) s))

/-- R318, R322: T0: mirror frames of 9,018 bytes, and the gate list of the beats: a cycle of 250 us from
the beat instants, 40 us for ring 3 alone and 210 us for all. -/
def setTwinPort (s : State) : State :=
  let s := setFld (Net.PORT_CTRL 3) 29 16 9018 s
  let b := 1 - operBank 3 s
  let s := wr (Net.GCL_ENTRY 3 b 0) (8 + 16 * 5000) (wr (Net.GCL_ENTRY 3 b 1) (15 + 16 * 26250) s)
  let s := wr (Net.ADMIN_CYCLE 3) 250000 (wr (Net.ADMIN_LEN 3) 2 s)
  let s := wr (Net.ADMIN_BASE_SEC 3) 0 (wr (Net.ADMIN_BASE_NS 3) 0 s)
  gclSwitchCmd 3 (setBit (Net.GCL_CTRL 3) 0 true s)

/-- Step 3: Renro runs from the slot that the boot stage chose, with the settings it can read. -/
def startThree (u : StartUp) (s : State) : State :=
  let s := reachStep 3 s
  let s := bootStage u.slotA u.slotB (noteCopies u.copies s)
  let s := selectSettings false (u.fails.map BitVec.toNat) s
  let s := logRenro 0x0101 noInst (p1 (fld Sys.RESET_CAUSE 3 0 s) ++ p1 (running s)) s
  let s := enableNet 2 2 (u.macs.getD 2 0) (loadSettings true s)
  let s := if s.boot.dumpLogged then s
    else
      let n := if s.boot.dumpKept then 0 else rd Sys.DUMP_LEN s
      { logRenro 0x0105 noInst (p4 n) s with boot := { s.boot with dumpLogged := true } }
  let s := match s.power.restored with
    | some t => { logRenro 0x0111 noInst (p8 t) s with power := { s.power with restored := none } }
    | none => s
  if running s = 2 then { holdForHost s with boot := { s.boot with quartz := true } } else s

/-- The ASID tables of the five translators, the first at address a. -/
def asidTable (a t : Nat) : Nat := a + 0x80000 * t

/-- Step 4: DRAM runs, the tables are set and the translators enabled; the mirror engine's stream
bypasses (R184). -/
def startFour (u : StartUp) (s : State) : State :=
  let a := renroBase + 4096 * u.tables.toNat
  let s := zeroMem a (asidTable 0 5) (reachStep 4 s)
  let s := { s with host := { s.host with nextTable := asidTable a 5 } }
  let s := upTo 5 (fun t s => wr (Mmu.MMU_CTRL t) 1 (wr (Mmu.ASID_TABLE_BASE t) (asidTable a t) s)) s
  wr (Iommu.STE 0xA0) 0x30000 s

/-- R155, R171: the save pool of a slice, 128 slots in Renro memory. -/
def savePool (sl : Nat) (s : State) : State :=
  match allocPages 0x880 s with
  | some (a, s) => wr (Sched.SAVE_POOL_CFG sl) 128 (wr (Sched.SAVE_POOL_BASE sl) a s)
  | none => s

/-- R311: RANK from the store; else from the module's identity, which is stored. -/
def loadRank (s : State) : State :=
  let st := kget 0 Red.RANK.addr s.upd.cur.stored
  let low := Config.moduleId.toNat % 65536
  let r := if 0 < st then st - 1 else if low = 0 then 1 else low
  let s := if 0 < st then s
    else { s with upd := { s.upd with
      cur := { s.upd.cur with stored := kset 0 Red.RANK.addr (r + 1) s.upd.cur.stored }
      dirty := true } }
  putClaim (wr Red.RANK r s)

/-- R432: start-up after the third fatal error within 600 s stops here. -/
def stopLoop (s : State) : State :=
  if fatalLoop s then
    holdForHost { logRenro 0x0103 noInst [] s with boot := { s.boot with fatals := [] } }
  else s

/-- Step 5: slices held, schedulers and ports set, tables and trims loaded. -/
def startFive (u : StartUp) (s : State) : State :=
  let s := reachStep 5 s
  let s := upTo 4 (fun sl s => savePool sl (upTo 8 (fun c s => coreCtrlWrite sl c true false s) s)) s
  let s := upTo 32 trunkEnable s
  let s := enableNet 0 0 (u.macs.getD 0 0) (enableNet 1 0 (u.macs.getD 1 0)
    (setTwinPort (enableNet 3 2 (u.macs.getD 3 0) s)))
  let s := setServoRegs (loadSettings false (loadTrims (loadThLut s)))
  stopLoop (loadRank s)

/-- Step 6: the stored show image, or a wait for the host. -/
def startSix (u : StartUp) (s : State) : State :=
  let s := reachStep 6 s
  if s.upd.cur.autostart then
    let r := loadImage u.image 15 u.id.toNat u.asid.toNat u.place.toNat s
    let s := notifyFree 2 r.2.2
    if r.1 = rsOk then s else holdForHost s
  else holdForHost s

/-- R65: LOW_RATE with D = 8. -/
def lowRateEight (p : Nat) (s : State) : State :=
  let r := Scan.SCAN_CTRL (pSl p) (pPl p)
  match findReg r.addr with
  | some f => armWin f r.addr (putBits (putBits (nextVal r s) 5 4 2) 1 0 1) s
  | none => s

/-- Step 7. -/
def startSeven (s : State) : State :=
  let s := timelineArm (upTo 32 lowRateEight (reachStep 7 s))
  { s with boot := { s.boot with step7At := s.clk } }

/-- R426: the node counts have stood for 1 s and every counted node has a latency. -/
def nodesReady (s : State) : Bool :=
  s.boot.countsAt + realNs oneSecond ≤ s.clk
    && (List.range 32).all fun p => !bit (trkCtrl p) 0 s
      || (List.range (fld (trkStatus p) 14 8 s)).all fun k => latValid (nodeLat p k s)
/-- R426: the servo is LOCKED, or TIME_WAIT has expired. -/
def timeReady (s : State) : Bool :=
  servoState s == sLocked
    || s.boot.step7At + realNs oneSecond * min 600 s.upd.cur.timeWait ≤ s.clk

/-- Step 8, before every slice's Bezel. -/
def startEight (s : State) : State :=
  let s := upTo 4 (fun sl s => slcRun sl true s) (reachStep 8 s)
  upTo 32 (fun p s => armMode p 2 s) s

/-- Step 9 (R309, R425): SOLO takes the sinks; a paired module seeks its peer. -/
def startNine (s : State) : State :=
  let s := reachStep 9 s
  let paired := bit Red.RED_CTRL 0 s
  let s := { s with red := { s.red with paired := paired, seekAt := s.clk } }
  if paired then setRole rSeeking 1 s else trySinksAll (setRole rSolo 0 (raiseEpoch s))

/-- Start-up holds for the host until CONTINUE. -/
def bootHeld (s : State) : Bool := bit Sys.BOOT_STAGE 8 s && !s.boot.contSent

/-- STARTUP_STEP (R425): the next step, when what it needs holds. -/
def startupStep (u : StartUp) (s : State) : State :=
  if shed s ∨ frozen s ∨ s.boot.quartz ∨ bootHeld s then s
  else match bootStep s with
    | 2 => startThree u s
    | 3 => startFour u s
    | 4 => startFive u s
    | 5 => startSix u s
    | 6 => startSeven s
    | 7 =>
      if nodesReady s && timeReady s && !(List.range 4).any (fun sl => inBezelNow sl s) then startEight s
      else s
    | 8 => startNine s
    | _ => s
def execStartupStep (u : StartUp) (s : State) : Host.Outcome State Fault Refusal :=
  atOnce (startupStep u) s

end Sys2Proof.Machine
end

