-- ==== Sys2Proof/Machine/Dump.lean ====
section
/-! DEFINITION. The dump and the flash summaries of a fatal error (R432 steps 7 to 9, R434 to
R436). -/

namespace Sys2Proof.Machine

/-! ### Sections (R435) -/

def padEight (bs : List Byte) : List Byte := bs ++ List.replicate ((8 - bs.length % 8) % 8) 0

/-- TYPE, SFLAGS, LENGTH and the body; nothing in the model is unreadable, so PARTIAL is 0. -/
def dumpSection (type : Nat) (body : List Byte) : List Byte :=
  p2 type ++ p2 0 ++ p4 body.length ++ padEight body

/-- CAUSE: the cause, then the detail fields as the FATAL record has them. -/
def causeSection (s : State) : List Byte :=
  dumpSection 1 ((p1 (fld Sys.FATAL_CAUSE 7 0 s) ++ s.boot.fatalDetail ++ List.replicate 32 0).take 32)

/-- A word of the register space, read without side effects. -/
def quietWord (a : Nat) (s : State) : Nat :=
  match findReg a with
  | some f => live f a .renro s / 2 ^ (8 * f.half) % 2 ^ 32
  | none => 0

/-- An entry of REGISTERS: n words from physical address a. -/
def regEntry (s : State) (a n : Nat) : List Byte :=
  p8 a ++ p4 n ++ p4 0 ++ (List.range n).flatMap fun i => p4 (quietWord (a + 4 * i) s)

/-- Every shared block (R19) and every slice window. -/
def allRegisters (s : State) : List Byte :=
  dumpSection 2 (((List.range 11).flatMap fun b => regEntry s (0x1000000000 + 0x10000 * b) 0x4000)
    ++ (List.range 4).flatMap fun sl => regEntry s (winBase sl) 0x40000)

/-- R76's states, in its order. -/
def ctxStateCode : CtxState → Nat
  | .free => 0 | .loading => 1 | .ready => 2 | .stalled => 3 | .waiting => 4 | .faulted => 5
  | .saving => 6

def contextSection (k : Nat) (s : State) : List Byte :=
  let c := ctxAt k s
  let e := descAt (descOf (ctxSlice k) c.desc) s
  dumpSection 3 (p2 (ctxSlice k) ++ p2 (ctxCore k) ++ p2 (k % 4) ++ p2 (ctxStateCode c.st)
    ++ p2 c.desc ++ p2 (if e.flowValid then e.flow else 0xFFFF) ++ p2 e.wg ++ p2 c.asid
    ++ stateBytes c ++ List.replicate 1696 0 ++ tlmBytes k 0 65536 s)

def contextSections (s : State) : List (List Byte) :=
  ((List.range 128).filter fun k => (ctxAt k s).st ≠ .free).map fun k => contextSection k s

/-- A delay entry: the task's handle and its due time. -/
def delayEntry (s : State) (q : Nat × Nat) : List Byte := p8 (handleOf q.2 s) ++ p8 q.1

/-- Bytes a flow's tasks hold in the release buffer. -/
def flowHeld (sl f : Nat) (s : State) : Nat :=
  ((s.descs.filter fun p => descSlice p.1 == sl && p.2.flowValid && p.2.flow == f).map fun p =>
    heldBytes p.2.held).sum

def flowRecord (sl f : Nat) (s : State) : List Byte :=
  p4 (rd (Sched.FLOW_RELEASE_NEXT sl f) s) ++ p4 (rd (Sched.FLOW_NEXT_SEQ sl f) s)
    ++ p4 (fld (Sched.FLOW_CFG sl f) 16 8 s) ++ p4 (flowHeld sl f s)

def schedSection (sl : Nat) (s : State) : List Byte :=
  dumpSection 4 (p8 sl
    ++ ((List.range 4096).flatMap fun d => (delayBody (descOf sl d) s).take 64)
    ++ ((List.range 4096).flatMap fun d => p4 (descState (descAt (descOf sl d) s)))
    ++ (((schedAt sl s).delay.flatMap (delayEntry s)) ++ List.replicate 16384 0).take 16384
    ++ (List.range 64).flatMap fun f => flowRecord sl f s)

def slotSeq (b : List Byte) : Nat := leNat (b.take 8)

def seqInsert (b : List Byte) : List (List Byte) → List (List Byte)
  | [] => [b]
  | x :: t => if slotSeq x ≤ slotSeq b then x :: seqInsert b t else b :: x :: t

/-- The valid records of the store in SEQ order. -/
def recordsInOrder (s : State) : List (List Byte) :=
  ((s.rcd.store.map Prod.snd).filter slotValid).foldl (fun l b => seqInsert b l) []

/-- EVENTS: the last 256 records. -/
def eventsSection (s : State) : List Byte :=
  let l := recordsInOrder s
  dumpSection 5 (l.drop (l.length - 256)).flatten

def faultSection (t : Nat) (s : State) : List Byte :=
  let q := (fqAt t s).recs
  dumpSection 6 (p4 t ++ p4 q.length ++ q.flatMap faultBytes)

/-! ### The header (R434) -/

/-- The FW_VERSION of the slot that ran at detection. -/
def versionRunning (s : State) : Nat :=
  if running s = 2 then rd Upd.FW_VERSION_Q s else fwVersion (slotOf (running s) s).header

/-- The header with a given LENGTH, section count, FLAGS and CHECK. -/
def dumpHeader (len count later flags check : Nat) (s : State) : List Byte :=
  [0x54, 0x4B, 0x44, 0x50] ++ p2 1 ++ p2 64 ++ p4 len ++ p2 count
    ++ p1 (fld Sys.FATAL_CAUSE 7 0 s) ++ p1 later ++ p8 s.boot.fatalSeq ++ p8 s.boot.fatalUptime
    ++ leBytes 6 s.boot.fatalSec ++ p2 s.boot.fatalFlags ++ p4 s.boot.fatalNs
    ++ p4 (versionRunning s) ++ p8 Config.moduleId.toNat ++ p2 (running s) ++ p2 flags ++ p4 check

/-- A whole dump or summary: the sections behind a header whose CHECK covers both. -/
def dumpBytes (flags : Nat) (sections : List (List Byte)) (s : State) : List Byte :=
  let body := sections.flatten
  let len := 64 + body.length
  let head := dumpHeader len sections.length s.boot.later flags
  head (crc32c (head 0 s ++ body)) s ++ body

def dumpSections (fw : List Byte) (s : State) : List (List Byte) :=
  [causeSection s, allRegisters s] ++ contextSections s
    ++ ((List.range 4).map fun sl => schedSection sl s)
    ++ [eventsSection s] ++ ((List.range 5).map fun t => faultSection t s)
    ++ [dumpSection 7 (fw.take 0x800000), dumpSection 8 []]

/-- R436: SYS, TIME, RED and HOST, and each SLC and SCAN block. -/
def summaryRegisters (s : State) : List Byte :=
  dumpSection 2 (([sysBase, timeBase, redBase, hstBase].flatMap fun a => regEntry s a 0x4000)
    ++ ((List.range 4).flatMap fun sl => regEntry s (slcBase sl) 10)
    ++ (List.range 32).flatMap fun p => regEntry s (scanBase (pSl p) (pPl p)) 0x400)

def summarySections (fw : List Byte) (s : State) : List (List Byte) :=
  [causeSection s, summaryRegisters s, eventsSection s, dumpSection 7 (fw.take 0x40000),
    dumpSection 8 []]

/-! ### DUMP_WRITTEN (R432 step 7, R434) -/

/-- R417: the dump region. -/
def dumpRegion : Nat := 0x1FC000000

/-- R433, R434: LATER_FATALS of the dump in the region, its CHECK over that (DESIGN CHOICE, log
entry 64). -/
def putLater (k : Nat) (s : State) : State :=
  let n := rd Sys.DUMP_LEN s
  let s := writeMem (dumpRegion + 0x3C) (p4 0) (writeMem (dumpRegion + 0xF) (p1 k) s)
  let s := writeMem (dumpRegion + 0x3C) (p4 (crc32c (memBytes dumpRegion n s))) s
  setFld Sys.DUMP_STATUS 15 8 k s

def laterInDump (s : State) : Nat := (memByte (dumpRegion + 0xF) s).toNat

/-- R433, R434: the earlier dump is kept, its LATER_FATALS one more, and one more for each fatal error
of the sequence. -/
def keepDump (s : State) : State := putLater (min 255 (laterInDump s + 1 + s.boot.later)) s

/-- R433: fatal errors since the dump was written. -/
def noteLater (s : State) : State :=
  if bit Sys.DUMP_STATUS 0 s ∧ laterInDump s ≠ fld Sys.DUMP_STATUS 15 8 s then
    putLater (fld Sys.DUMP_STATUS 15 8 s) s
  else s

/-- A new dump overwrites the region. -/
def newDump (fw : List Byte) (s : State) : State :=
  let b := dumpBytes 0 (dumpSections fw s) s
  wr Sys.DUMP_LEN b.length (wr Sys.DUMP_STATUS (1 + 256 * s.boot.later) (writeMem dumpRegion b s))

/-- Is an earlier dump in the region that the host has not acknowledged. -/
def dumpWaits (s : State) : Bool := bit Sys.DUMP_STATUS 0 s && !bit Sys.DUMP_STATUS 1 s

def dumpWritten (fw : List Byte) (s : State) : State :=
  if s.boot.fatalStep ≠ 1 ∨ shed s then s
  else
    let s := flushForReset s
    let kept := dumpWaits s
    let s := if kept then keepDump s else newDump fw s
    { s with boot := { s.boot with fatalStep := 7, dumpLogged := false, dumpKept := kept } }

/-- DUMP_WRITTEN (R434): `fw` is Renro's state and trace, whose format is the firmware's own. -/
def execDumpWritten (fw : List Byte) (s : State) : Host.Outcome State Fault Refusal :=
  atOnce (dumpWritten fw) s

/-! ### FATAL_SUMMARY_DONE (R432 steps 8 and 9, R436) -/

def writeSummaries (fw : List Byte) (s : State) : State :=
  let b := dumpBytes 1 (summarySections fw s) s
  { s with boot := { s.boot with
      firstSummary := if s.boot.firstSummary.isEmpty then b else s.boot.firstSummary
      latestSummary := b } }

/-- R432 step 9: a warm reset, or the wait for the host's. -/
def endFatal (s : State) : State :=
  if s.upd.cur.fatalRestart then warmReset 2 s
  else orReg Sys.SYS_INT_STATUS 4 { s with boot := { s.boot with fatalStep := 8 } }

def fatalSummaryDone (fw : List Byte) (s : State) : State :=
  if s.boot.fatalStep ≠ 7 ∨ shed s then s else endFatal (writeSummaries fw (noteLater (flushForReset s)))

/-- FATAL_SUMMARY_DONE (R432, R436). -/
def execFatalSummaryDone (fw : List Byte) (s : State) : Host.Outcome State Fault Refusal :=
  atOnce (fatalSummaryDone fw) s

end Sys2Proof.Machine
end

