-- ==== Sys2Proof/Machine/Ring3.lean ====
section
/-! DEFINITION. A received Ethernet frame (R290 to R295), and what Renro and the supervisor take from
receive ring 3: PTP messages (R269), beats (R318) and mirror frames (R322). -/

namespace Sys2Proof.Machine

/-- The PTP message a frame carries, over Ethernet or over UDP (R269). -/
def ptpPayload (bs : List Byte) : Option (List Byte) :=
  let h := headerOf bs
  if h.etype = 0x88F7 then some (bs.drop h.at_)
  else if isPtp bs h then some (udpPayload bs h)
  else none

/-- R269: the frames that an interface in a VLAN takes carry its tag. -/
def ptpTagged (bs : List Byte) (s : State) : Bool :=
  match s.upd.cur.ptp.vlan with
  | some v => (headerOf bs).tag.any fun t => t % 4096 == v % 4096
  | none => true

/-- R318, R322: what the supervisor takes from a frame of T0, as its SUBTYPE says. -/
def twinFrame (back : Nat) (body : List Byte) (s : State) : State :=
  match at_ 1 1 body with
  | 1 => heartbeatReceived 0 back (body.take 40) s
  | 2 => mirrorFrame (at_ 4 4 body) (at_ 8 4 body) (body.drop 16) s
  | _ => s

/-- A good frame of ring 3 reaches Renro; ARP, ICMP and IGMP frames are counted only
(DESIGN CHOICE, log entry 121). -/
def renroReceives (p : Nat) (x : RxIn) (s : State) : State :=
  let h := headerOf x.bytes
  if p = 3 then
    if isTwinFrame h then twinFrame (x.back / 65536) (x.bytes.drop h.at_) s else s
  else match ptpPayload x.bytes with
    | some m =>
      let (t, step) := rxTime p x.back s
      if ptpTagged x.bytes s then ptpReceive p m ((t / 2 ^ 16 : Nat) : Int) step s else s
    | none => s

/-- R289, R290: a frame of ring 3: Renro keeps a buffer posted. -/
def ring3Frame (p : Nat) (bad : Bool) (x : RxIn) (s : State) : State :=
  if rxState p 3 s = 0 then bump (Net.RX_FILTER_DROPS p) s
  else if bad then bump (Net.RXR_BAD_DROPS p 3) s
  else
    let step (r : Reg) (s : State) := wr r ((rd r s + 1) % ring3Size) s
    let s := step (Net.RXR_TAIL p 3) (step (Net.RXR_HEAD p 3) (bump (Net.RXR_FRAMES p 3) s))
    renroReceives p x s

/-- RX_FRAME: a frame ends at the MAC: classified, written to a ring or flow, or dropped.  Only RTP over
UDP and IPv4 reaches a flow (R303). -/
def rxFrame (p : Nat) (full : Bool) (x : RxIn) (s : State) : State :=
  let len := x.bytes.length + 4
  let tooLong := maxFrame p s < len
  let bad := x.fcs || x.code || tooLong
  if !netUp p s then s
  else if len < 64 ∨ x.preamble then bump (Net.RX_RUNTS p) s
  else if full then logPer 0x0708 p oneSecond [] (bump (Net.RX_FIFO_DROPS p) s)
  else
    let s := rxErrors p x tooLong (rxCount p len s)
    match classify p x.bytes s with
    | .drop => s
    | .filtered => bump (Net.RX_FILTER_DROPS p) s
    | .pause => if bad then s else controlFrame p x.bytes s
    | .flow f =>
      let h := headerOf x.bytes
      if bad ∨ ¬ isUdp x.bytes h then s else depkt f p (udpPayload x.bytes h) s
    | .ring r k =>
      if r = 3 then ring3Frame p bad x s
      else rxToRing p r bad (stripTag (x.bytes.take (maxFrame p s))) (rxMeta p k x tooLong s) s

def execRxFrame (p : Fin 4) (bytes : List Byte) (full preamble fcs code : Bool) (back : BitVec 48)
    (s : State) : Host.Outcome State Fault Refusal :=
  atOnce (rxFrame p.val full ⟨bytes, preamble, fcs, code, back.toNat⟩) s

end Sys2Proof.Machine
end

