-- ==== Sys2Proof/Machine/Dispatch.lean ====
section
/-! DEFINITION. The dispatch: one arm per command, each one direct call of its meaning. -/

namespace Sys2Proof.Machine

def exec (i : Instr) (s : State) : Host.Outcome State Fault Refusal :=
  match i with
  -- Registers, commit and frame timing
  | .registerWrite who off wide v => Sys2Proof.Machine.execRegisterWrite who off wide v s
  | .lowHalfWrite who off v => Sys2Proof.Machine.execLowHalfWrite who off v s
  | .lowHalfRead who off => Sys2Proof.Machine.execLowHalfRead who off s
  | .rcRead who off wide completes => Sys2Proof.Machine.execRcRead who off wide completes s
  | .winWrite who off wide v => Sys2Proof.Machine.execWinWrite who off wide v s
  | .shdCommit grp who v => Sys2Proof.Machine.execShdCommit grp who v s
  | .slcRunSet slice who => Sys2Proof.Machine.execSlcRunSet slice who s
  | .slcRunClear slice who => Sys2Proof.Machine.execSlcRunClear slice who s
  | .slcCommitCfgWrite slice who v => Sys2Proof.Machine.execSlcCommitCfgWrite slice who v s
  | .timelineArm who => Sys2Proof.Machine.execTimelineArm who s
  | .timelineStop who => Sys2Proof.Machine.execTimelineStop who s
  | .frameStart slice bad ce => Sys2Proof.Machine.execFrameStart slice bad ce s
  | .commitPoint slice => Sys2Proof.Machine.execCommitPoint slice s
  | .telemetryCopyDone slice => Sys2Proof.Machine.execTelemetryCopyDone slice s
  | .vblankStart p => Sys2Proof.Machine.execVblankStart p s
  | .lineMatch p => Sys2Proof.Machine.execLineMatch p s
  | .frameDone p => Sys2Proof.Machine.execFrameDone p s
  | .completionMarkWrite slice => Sys2Proof.Machine.execCompletionMarkWrite slice s
  | .tstWriteArrive slice => Sys2Proof.Machine.execTstWriteArrive slice s
  | .storeMgmtWrite slice off wide v => Sys2Proof.Machine.execStoreMgmtWrite slice off wide v s
  -- Cue instructions: scalar
  | .add c f => Sys2Proof.Machine.execAdd c f s
  | .sub c f => Sys2Proof.Machine.execSub c f s
  | .andG c f => Sys2Proof.Machine.execAnd c f s
  | .orG c f => Sys2Proof.Machine.execOr c f s
  | .xor c f => Sys2Proof.Machine.execXor c f s
  | .andn c f => Sys2Proof.Machine.execAndn c f s
  | .sll c f => Sys2Proof.Machine.execSll c f s
  | .srl c f => Sys2Proof.Machine.execSrl c f s
  | .sra c f => Sys2Proof.Machine.execSra c f s
  | .slt c f => Sys2Proof.Machine.execSlt c f s
  | .sltu c f => Sys2Proof.Machine.execSltu c f s
  | .min c f => Sys2Proof.Machine.execMin c f s
  | .minu c f => Sys2Proof.Machine.execMinu c f s
  | .max c f => Sys2Proof.Machine.execMax c f s
  | .maxu c f => Sys2Proof.Machine.execMaxu c f s
  | .clz c f => Sys2Proof.Machine.execClz c f s
  | .ctz c f => Sys2Proof.Machine.execCtz c f s
  | .popc c f => Sys2Proof.Machine.execPopc c f s
  | .sextB c f => Sys2Proof.Machine.execSextB c f s
  | .sextH c f => Sys2Proof.Machine.execSextH c f s
  | .sextW c f => Sys2Proof.Machine.execSextW c f s
  | .zextW c f => Sys2Proof.Machine.execZextW c f s
  | .mtp c f => Sys2Proof.Machine.execMtp c f s
  | .mfp c f => Sys2Proof.Machine.execMfp c f s
  | .pand c f => Sys2Proof.Machine.execPand c f s
  | .por c f => Sys2Proof.Machine.execPor c f s
  | .pxor c f => Sys2Proof.Machine.execPxor c f s
  | .pandn c f => Sys2Proof.Machine.execPandn c f s
  | .addi c f => Sys2Proof.Machine.execAddi c f s
  | .andi c f => Sys2Proof.Machine.execAndi c f s
  | .ori c f => Sys2Proof.Machine.execOri c f s
  | .xori c f => Sys2Proof.Machine.execXori c f s
  | .slti c f => Sys2Proof.Machine.execSlti c f s
  | .sltiu c f => Sys2Proof.Machine.execSltiu c f s
  | .slli c f => Sys2Proof.Machine.execSlli c f s
  | .srli c f => Sys2Proof.Machine.execSrli c f s
  | .srai c f => Sys2Proof.Machine.execSrai c f s
  | .orhi c f => Sys2Proof.Machine.execOrhi c f s
  | .mul c f => Sys2Proof.Machine.execMul c f s
  | .mulh c f => Sys2Proof.Machine.execMulh c f s
  | .mulhu c f => Sys2Proof.Machine.execMulhu c f s
  | .mulhsu c f => Sys2Proof.Machine.execMulhsu c f s
  | .beq c f => Sys2Proof.Machine.execBeq c f s
  | .bne c f => Sys2Proof.Machine.execBne c f s
  | .blt c f => Sys2Proof.Machine.execBlt c f s
  | .bge c f => Sys2Proof.Machine.execBge c f s
  | .bltu c f => Sys2Proof.Machine.execBltu c f s
  | .bgeu c f => Sys2Proof.Machine.execBgeu c f s
  | .bpany c f => Sys2Proof.Machine.execBpany c f s
  | .bpall c f => Sys2Proof.Machine.execBpall c f s
  | .bpnone c f => Sys2Proof.Machine.execBpnone c f s
  | .call c f => Sys2Proof.Machine.execCall c f s
  | .callr c f => Sys2Proof.Machine.execCallr c f s
  | .jr c f => Sys2Proof.Machine.execJr c f s
  | .ldB c f => Sys2Proof.Machine.execLdB c f s
  | .ldBu c f => Sys2Proof.Machine.execLdBu c f s
  | .ldH c f => Sys2Proof.Machine.execLdH c f s
  | .ldHu c f => Sys2Proof.Machine.execLdHu c f s
  | .ldW c f => Sys2Proof.Machine.execLdW c f s
  | .ldWu c f => Sys2Proof.Machine.execLdWu c f s
  | .ldD c f => Sys2Proof.Machine.execLdD c f s
  | .stB c f => Sys2Proof.Machine.execStB c f s
  | .stH c f => Sys2Proof.Machine.execStH c f s
  | .stW c f => Sys2Proof.Machine.execStW c f s
  | .stD c f => Sys2Proof.Machine.execStD c f s
  | .amoSwap c f => Sys2Proof.Machine.execAmoSwap c f s
  | .amoAdd c f => Sys2Proof.Machine.execAmoAdd c f s
  | .amoAnd c f => Sys2Proof.Machine.execAmoAnd c f s
  | .amoOr c f => Sys2Proof.Machine.execAmoOr c f s
  | .amoXor c f => Sys2Proof.Machine.execAmoXor c f s
  | .amoMin c f => Sys2Proof.Machine.execAmoMin c f s
  | .amoMax c f => Sys2Proof.Machine.execAmoMax c f s
  | .amoMinu c f => Sys2Proof.Machine.execAmoMinu c f s
  | .amoMaxu c f => Sys2Proof.Machine.execAmoMaxu c f s
  | .cas c f => Sys2Proof.Machine.execCas c f s
  | .atomicComplete c e => Sys2Proof.Machine.execAtomicComplete c e s
  -- Cue instructions: vector
  | .vadd c f => Sys2Proof.Machine.execVadd c f s
  | .vsub c f => Sys2Proof.Machine.execVsub c f s
  | .vadds c f => Sys2Proof.Machine.execVadds c f s
  | .vsubs c f => Sys2Proof.Machine.execVsubs c f s
  | .vmul c f => Sys2Proof.Machine.execVmul c f s
  | .vmulhu c f => Sys2Proof.Machine.execVmulhu c f s
  | .vminu c f => Sys2Proof.Machine.execVminu c f s
  | .vmaxu c f => Sys2Proof.Machine.execVmaxu c f s
  | .vmin c f => Sys2Proof.Machine.execVmin c f s
  | .vmax c f => Sys2Proof.Machine.execVmax c f s
  | .vand c f => Sys2Proof.Machine.execVand c f s
  | .vor c f => Sys2Proof.Machine.execVor c f s
  | .vxor c f => Sys2Proof.Machine.execVxor c f s
  | .vandn c f => Sys2Proof.Machine.execVandn c f s
  | .vsll c f => Sys2Proof.Machine.execVsll c f s
  | .vsrl c f => Sys2Proof.Machine.execVsrl c f s
  | .vsra c f => Sys2Proof.Machine.execVsra c f s
  | .vabsdu c f => Sys2Proof.Machine.execVabsdu c f s
  | .vavgu c f => Sys2Proof.Machine.execVavgu c f s
  | .vmov c f => Sys2Proof.Machine.execVmov c f s
  | .vsel c f => Sys2Proof.Machine.execVsel c f s
  | .vcmpEq c f => Sys2Proof.Machine.execVcmpEq c f s
  | .vcmpNe c f => Sys2Proof.Machine.execVcmpNe c f s
  | .vcmpLtu c f => Sys2Proof.Machine.execVcmpLtu c f s
  | .vcmpLeu c f => Sys2Proof.Machine.execVcmpLeu c f s
  | .vcmpLt c f => Sys2Proof.Machine.execVcmpLt c f s
  | .vcmpLe c f => Sys2Proof.Machine.execVcmpLe c f s
  | .vmulFx c f => Sys2Proof.Machine.execVmulFx c f s
  | .vmadFx c f => Sys2Proof.Machine.execVmadFx c f s
  | .vblend c f => Sys2Proof.Machine.execVblend c f s
  | .vlutN c f => Sys2Proof.Machine.execVlutN c f s
  | .vlutI c f => Sys2Proof.Machine.execVlutI c f s
  | .vcvtFxU8 c f => Sys2Proof.Machine.execVcvtFxU8 c f s
  | .vcvtU8Fx c f => Sys2Proof.Machine.execVcvtU8Fx c f s
  | .vcvtFxU16 c f => Sys2Proof.Machine.execVcvtFxU16 c f s
  | .vcvtU16Fx c f => Sys2Proof.Machine.execVcvtU16Fx c f s
  | .vcvtFxF16 c f => Sys2Proof.Machine.execVcvtFxF16 c f s
  | .vcvtF16Fx c f => Sys2Proof.Machine.execVcvtF16Fx c f s
  | .vcvtFxU10 c f => Sys2Proof.Machine.execVcvtFxU10 c f s
  | .vperm c f => Sys2Proof.Machine.execVperm c f s
  | .vbcast c f => Sys2Proof.Machine.execVbcast c f s
  | .vext c f => Sys2Proof.Machine.execVext c f s
  | .vins c f => Sys2Proof.Machine.execVins c f s
  | .vzipLo c f => Sys2Proof.Machine.execVzipLo c f s
  | .vzipHi c f => Sys2Proof.Machine.execVzipHi c f s
  | .vuzpEv c f => Sys2Proof.Machine.execVuzpEv c f s
  | .vuzpOd c f => Sys2Proof.Machine.execVuzpOd c f s
  | .vredAddu c f => Sys2Proof.Machine.execVredAddu c f s
  | .vredMaxu c f => Sys2Proof.Machine.execVredMaxu c f s
  | .vredMinu c f => Sys2Proof.Machine.execVredMinu c f s
  | .vcompress c f => Sys2Proof.Machine.execVcompress c f s
  | .vslide c f amount => Sys2Proof.Machine.execVslide c f amount s
  | .vld c f => Sys2Proof.Machine.execVld c f s
  | .vst c f => Sys2Proof.Machine.execVst c f s
  | .vgather c f => Sys2Proof.Machine.execVgather c f s
  | .vscatter c f => Sys2Proof.Machine.execVscatter c f s
  -- Cue instructions: tile, task, CRC and system
  | .tld c f layer => Sys2Proof.Machine.execTld c f layer s
  | .tst c f z => Sys2Proof.Machine.execTst c f z s
  | .tcommit c f z => Sys2Proof.Machine.execTcommit c f z s
  | .spawn c f => Sys2Proof.Machine.execSpawn c f s
  | .enq c f => Sys2Proof.Machine.execEnq c f s
  | .tcancel c f => Sys2Proof.Machine.execTcancel c f s
  | .doneTask c f => Sys2Proof.Machine.execDone c f s
  | .yieldTask c f => Sys2Proof.Machine.execYield c f s
  | .waitTime c f => Sys2Proof.Machine.execWaitTime c f s
  | .waitEv c f => Sys2Proof.Machine.execWaitEv c f s
  | .post c f => Sys2Proof.Machine.execPost c f s
  | .crcB c f => Sys2Proof.Machine.execCrcB c f s
  | .crcH c f => Sys2Proof.Machine.execCrcH c f s
  | .crcW c f => Sys2Proof.Machine.execCrcW c f s
  | .crcV c f => Sys2Proof.Machine.execCrcV c f s
  | .crcGet c f => Sys2Proof.Machine.execCrcGet c f s
  | .crcPut c f => Sys2Proof.Machine.execCrcPut c f s
  | .crcFin c f => Sys2Proof.Machine.execCrcFin c f s
  | .mfs c f => Sys2Proof.Machine.execMfs c f s
  | .mts c f => Sys2Proof.Machine.execMts c f s
  | .fenceRel c rd ra => Sys2Proof.Machine.execFenceRel c rd ra s
  | .fenceAcq c rd ra => Sys2Proof.Machine.execFenceAcq c rd ra s
  | .fence c f => Sys2Proof.Machine.execFence c f s
  | .trap c f => Sys2Proof.Machine.execTrap c f s
  | .halt c f => Sys2Proof.Machine.execHalt c f s
  -- Contexts, layers and the scheduler
  | .mcheck c structure_ firmware => Sys2Proof.Machine.execMcheck c structure_ firmware s
  | .contextStallClear c => Sys2Proof.Machine.execContextStallClear c s
  | .loadMissReturn c e => Sys2Proof.Machine.execLoadMissReturn c e s
  | .storeDrain c => Sys2Proof.Machine.execStoreDrain c s
  | .waitDeadline c => Sys2Proof.Machine.execWaitDeadline c s
  | .tileDelivery slice layer e => Sys2Proof.Machine.execTileDelivery slice layer e s
  | .fetchRequestTaken slice layer => Sys2Proof.Machine.execFetchRequestTaken slice layer s
  | .readahead slice layer => Sys2Proof.Machine.execReadahead slice layer s
  | .frameRetired slice => Sys2Proof.Machine.execFrameRetired slice s
  | .preemptionRequest c => Sys2Proof.Machine.execPreemptionRequest c s
  | .saveComplete c => Sys2Proof.Machine.execSaveComplete c s
  | .restoreComplete c e => Sys2Proof.Machine.execRestoreComplete c e s
  | .schedulerCycle slice => Sys2Proof.Machine.execSchedulerCycle slice s
  | .releaseDrainDone slice flow => Sys2Proof.Machine.execReleaseDrainDone slice flow s
  | .tickGridPoint slice => Sys2Proof.Machine.execTickGridPoint slice s
  | .eventLineEdge slice line => Sys2Proof.Machine.execEventLineEdge slice line s
  | .submit slice who => Sys2Proof.Machine.execSubmit slice who s
  | .killHandle slice who handle => Sys2Proof.Machine.execKillHandle slice who handle s
  | .flowReset slice flow who => Sys2Proof.Machine.execFlowReset slice flow who s
  | .coreCtrlWrite slice core who enable force => Sys2Proof.Machine.execCoreCtrlWrite slice core who enable force s
  | .drainSaveResume c => Sys2Proof.Machine.execDrainSaveResume c s
  -- Memory, translation and DMA
  | .faultRecordPost block => Sys2Proof.Machine.execFaultRecordPost block s
  | .fqPop block who => Sys2Proof.Machine.execFqPop block who s
  | .faultRespResume block who token => Sys2Proof.Machine.execFaultRespResume block who token s
  | .faultRespTerminate block who token => Sys2Proof.Machine.execFaultRespTerminate block who token s
  | .faultTimeout block => Sys2Proof.Machine.execFaultTimeout block s
  | .tlbiAll block who span asid => Sys2Proof.Machine.execTlbiAll block who span asid s
  | .tlbiAsid block who span asid => Sys2Proof.Machine.execTlbiAsid block who span asid s
  | .tlbiAsidSpan block who span asid => Sys2Proof.Machine.execTlbiAsidSpan block who span asid s
  | .tlbiSpan block who span asid => Sys2Proof.Machine.execTlbiSpan block who span asid s
  | .tlbiComplete block => Sys2Proof.Machine.execTlbiComplete block s
  | .scrubLineRead slice e => Sys2Proof.Machine.execScrubLineRead slice e s
  | .doorbell k who => Sys2Proof.Machine.execDoorbell k who s
  | .dmaTrigger k => Sys2Proof.Machine.execDmaTrigger k s
  | .dmaBurst engine e => Sys2Proof.Machine.execDmaBurst engine e s
  | .dmaDescComplete k => Sys2Proof.Machine.execDmaDescComplete k s
  | .dmaStop k who => Sys2Proof.Machine.execDmaStop k who s
  | .dmaStopComplete k => Sys2Proof.Machine.execDmaStopComplete k s
  | .dmaEnableWrite k who v => Sys2Proof.Machine.execDmaEnableWrite k who v s
  -- Trunk
  | .trunkEnable p who => Sys2Proof.Machine.execTrunkEnable p who s
  | .trunkDisable p who => Sys2Proof.Machine.execTrunkDisable p who s
  | .linkUp p => Sys2Proof.Machine.execLinkUp p s
  | .trainFail p => Sys2Proof.Machine.execTrainFail p s
  | .trainRetry p => Sys2Proof.Machine.execTrainRetry p s
  | .linkDown p errs => Sys2Proof.Machine.execLinkDown p errs s
  | .rxClkLoss p => Sys2Proof.Machine.execRxClkLoss p s
  | .echoArrival p rtt => Sys2Proof.Machine.execEchoArrival p rtt s
  | .probeLost p => Sys2Proof.Machine.execProbeLost p s
  | .telemetryPacket p bytes => Sys2Proof.Machine.execTelemetryPacket p bytes s
  | .nodeSeenExpiry p k => Sys2Proof.Machine.execNodeSeenExpiry p k s
  | .cmdPush p who => Sys2Proof.Machine.execCmdPush p who s
  -- Time
  | .timeSnap who => Sys2Proof.Machine.execTimeSnap who s
  | .servoSample who v => Sys2Proof.Machine.execServoSample who v s
  | .stepCmdStep who => Sys2Proof.Machine.execStepCmdStep who s
  | .stepCmdSet who => Sys2Proof.Machine.execStepCmdSet who s
  | .holdoverEnter => Sys2Proof.Machine.execHoldoverEnter s
  | .triggerFire j => Sys2Proof.Machine.execTriggerFire j s
  | .triggerEnable j who v => Sys2Proof.Machine.execTriggerEnable j who v s
  | .tsqPop p who => Sys2Proof.Machine.execTsqPop p who s
  | .ltcFrame tc ub df cf rev rate back => Sys2Proof.Machine.execLtcFrame tc ub df cf rev rate back s
  | .ltcLost => Sys2Proof.Machine.execLtcLost s
  | .ltcPop who => Sys2Proof.Machine.execLtcPop who s
  | .frameInEdge falling => Sys2Proof.Machine.execFrameInEdge falling s
  | .frameInLost => Sys2Proof.Machine.execFrameInLost s
  -- Network ports
  | .rxFrame p bytes full preamble fcs code back => Sys2Proof.Machine.execRxFrame p bytes full preamble fcs code back s
  | .rxNotifyTimer p r => Sys2Proof.Machine.execRxNotifyTimer p r s
  | .rxrEnable p r who v => Sys2Proof.Machine.execRxrEnable p r who v s
  | .txFrameFetch p r => Sys2Proof.Machine.execTxFrameFetch p r s
  | .txFrameStart p => Sys2Proof.Machine.execTxFrameStart p s
  | .txFrameDone p back => Sys2Proof.Machine.execTxFrameDone p back s
  | .gateChange p => Sys2Proof.Machine.execGateChange p s
  | .gclSwitchCmd p who => Sys2Proof.Machine.execGclSwitchCmd p who s
  | .gclSwitch p => Sys2Proof.Machine.execGclSwitch p s
  | .pauseReceived p q => Sys2Proof.Machine.execPauseReceived p q s
  | .pauseExpiry p => Sys2Proof.Machine.execPauseExpiry p s
  | .xoffEnter p fifo queues => Sys2Proof.Machine.execXoffEnter p fifo queues s
  | .xoffRefresh p => Sys2Proof.Machine.execXoffRefresh p s
  | .xoffLeave p fifo queues => Sys2Proof.Machine.execXoffLeave p fifo queues s
  | .netLinkUp p pause => Sys2Proof.Machine.execNetLinkUp p pause s
  | .netLinkDown p speed => Sys2Proof.Machine.execNetLinkDown p speed s
  | .depktPacket f p udp => Sys2Proof.Machine.execDepktPacket f p udp s
  | .flowTimeout f => Sys2Proof.Machine.execFlowTimeout f s
  | .flowReleaseWrite f who v => Sys2Proof.Machine.execFlowReleaseWrite f who v s
  -- Twin operation
  | .heartbeatSend => Sys2Proof.Machine.execHeartbeatSend s
  | .heartbeatReceived path back bytes => Sys2Proof.Machine.execHeartbeatReceived path back bytes s
  | .pathFail path => Sys2Proof.Machine.execPathFail path s
  | .seekTimeout => Sys2Proof.Machine.execSeekTimeout s
  | .laneDissent lane out => Sys2Proof.Machine.execLaneDissent lane out s
  | .supervisorDisagree g j t => Sys2Proof.Machine.execSupervisorDisagree g j t s
  | .ilkInLive => Sys2Proof.Machine.execIlkInLive s
  | .ilkInStatic => Sys2Proof.Machine.execIlkInStatic s
  | .sinkHandoverTake => Sys2Proof.Machine.execSinkHandoverTake s
  | .switchCmd who v => Sys2Proof.Machine.execSwitchCmd who v s
  | .mirrorFrameReceived seq index body => Sys2Proof.Machine.execMirrorFrameReceived seq index body s
  -- LED drive and measurement, calibration
  | .pwmPeriodStart c => Sys2Proof.Machine.execPwmPeriodStart c s
  | .pwmWrap => Sys2Proof.Machine.execPwmWrap s
  | .phaseReference => Sys2Proof.Machine.execPhaseReference s
  | .sinkSample c regOk vsink adjLo adjHi => Sys2Proof.Machine.execSinkSample c regOk vsink adjLo adjHi s
  | .ledShortHard c => Sys2Proof.Machine.execLedShortHard c s
  | .chClear c who => Sys2Proof.Machine.execChClear c who s
  | .derateUpdate => Sys2Proof.Machine.execDerateUpdate s
  | .sinkPowerEstimate => Sys2Proof.Machine.execSinkPowerEstimate s
  | .headroomUpdate => Sys2Proof.Machine.execHeadroomUpdate s
  | .convGo u who => Sys2Proof.Machine.execConvGo u who s
  | .adcTrigger u => Sys2Proof.Machine.execAdcTrigger u s
  | .conversionDone u codes => Sys2Proof.Machine.execConversionDone u codes s
  | .hkConversion u raw => Sys2Proof.Machine.execHkConversion u raw s
  | .fifoPop u who => Sys2Proof.Machine.execFifoPop u who s
  | .calStartRef who vref => Sys2Proof.Machine.execCalStartRef who vref s
  | .calStartOpen who vref iset open_ bad => Sys2Proof.Machine.execCalStartOpen who vref iset open_ bad s
  | .calStartJig who vref iset open_ bad => Sys2Proof.Machine.execCalStartJig who vref iset open_ bad s
  | .calPulse code vref iset => Sys2Proof.Machine.execCalPulse code vref iset s
  | .calAbort who => Sys2Proof.Machine.execCalAbort who s
  | .vrefRampStep => Sys2Proof.Machine.execVrefRampStep s
  -- Event recorder, check-value units
  | .recordEnter code sev origin inst payload => Sys2Proof.Machine.execRecordEnter code sev origin inst payload s
  | .recordCommit => Sys2Proof.Machine.execRecordCommit s
  | .flushTimer => Sys2Proof.Machine.execFlushTimer s
  | .recFlush => Sys2Proof.Machine.execRecFlush s
  | .recClear who key => Sys2Proof.Machine.execRecClear who key s
  | .clearDone => Sys2Proof.Machine.execClearDone s
  | .recDirectWrite v => Sys2Proof.Machine.execRecDirectWrite v s
  | .recFreeze v => Sys2Proof.Machine.execRecFreeze v s
  | .recFreezeTimeout => Sys2Proof.Machine.execRecFreezeTimeout s
  | .recRead idx => Sys2Proof.Machine.execRecRead idx s
  | .recScanDone => Sys2Proof.Machine.execRecScanDone s
  | .hostLogSubmit => Sys2Proof.Machine.execHostLogSubmit s
  | .crcCfgWrite u who poly raw => Sys2Proof.Machine.execCrcCfgWrite u who poly raw s
  | .crcInit u who => Sys2Proof.Machine.execCrcInit u who s
  | .crcFeed8 u who v => Sys2Proof.Machine.execCrcFeed8 u who v s
  | .crcFeed16 u who v => Sys2Proof.Machine.execCrcFeed16 u who v s
  | .crcFeed32 u who v => Sys2Proof.Machine.execCrcFeed32 u who v s
  | .crcValueWrite u who v => Sys2Proof.Machine.execCrcValueWrite u who v s
  -- Host, resets and start-up
  | .hostUr off => Sys2Proof.Machine.execHostUr off s
  | .bar2Access write off len data e => Sys2Proof.Machine.execBar2Access write off len data e s
  | .bar2BaseWrite who v => Sys2Proof.Machine.execBar2BaseWrite who v s
  | .vecAck v => Sys2Proof.Machine.execVecAck v s
  | .msixMessage v => Sys2Proof.Machine.execMsixMessage v s
  | .loadImage addr len mask id asid place => Sys2Proof.Machine.execLoadImage addr len mask id asid place s
  | .unloadImage id => Sys2Proof.Machine.execUnloadImage id s
  | .mapCmd asid va pa len perm => Sys2Proof.Machine.execMap asid va pa len perm s
  | .unmapCmd asid va len => Sys2Proof.Machine.execUnmap asid va len s
  | .setStream stream asid enable => Sys2Proof.Machine.execSetStream stream asid enable s
  | .joinGroup port group sources => Sys2Proof.Machine.execJoinGroup port group sources s
  | .leaveGroup port group sources => Sys2Proof.Machine.execLeaveGroup port group sources s
  | .readTlv tlv => Sys2Proof.Machine.execReadTlv tlv s
  | .continueCmd => Sys2Proof.Machine.execContinue s
  | .readSummary slot addr => Sys2Proof.Machine.execReadSummary slot addr s
  | .clearSummary mask => Sys2Proof.Machine.execClearSummary mask s
  | .mbxDone => Sys2Proof.Machine.execMbxDone s
  | .notificationWrite type body => Sys2Proof.Machine.execNotificationWrite type body s
  | .powerOnReset charge => Sys2Proof.Machine.execPowerOnReset charge s
  | .sysReset who v => Sys2Proof.Machine.execSysReset who v s
  | .hostReset kind => Sys2Proof.Machine.execHostReset kind s
  | .startupStep u => Sys2Proof.Machine.execStartupStep u s
  | .gpiSample n level => Sys2Proof.Machine.execGpiSample n level s
  | .gpiStuck n => Sys2Proof.Machine.execGpiStuck n s
  | .watchdogExpiry => Sys2Proof.Machine.execWatchdogExpiry s
  | .fatal cause detail => Sys2Proof.Machine.execFatal cause detail s
  | .dumpWritten fw => Sys2Proof.Machine.execDumpWritten fw s
  | .fatalSummaryDone fw => Sys2Proof.Machine.execFatalSummaryDone fw s
  | .dumpAck who v => Sys2Proof.Machine.execDumpAck who v s
  -- Update and settings, power, and the rest
  | .beginCmd who sig flash => Sys2Proof.Machine.execBegin who sig flash s
  | .chunk who flash => Sys2Proof.Machine.execChunk who flash s
  | .verify who sig hash tag => Sys2Proof.Machine.execVerify who sig hash tag s
  | .activate who => Sys2Proof.Machine.execActivate who s
  | .activationPause => Sys2Proof.Machine.execActivationPause s
  | .activationResume ok adopts copies fails => Sys2Proof.Machine.execActivationResume ok adopts copies fails s
  | .confirm who => Sys2Proof.Machine.execConfirm who s
  | .autoConfirm => Sys2Proof.Machine.execAutoConfirm s
  | .revertCmd who => Sys2Proof.Machine.execRevert who s
  | .abortCmd who => Sys2Proof.Machine.execAbort who s
  | .settingsWrite bytes changes => Sys2Proof.Machine.execSettingsWrite bytes changes s
  | .powerFail vin power => Sys2Proof.Machine.execPowerFail vin power s
  | .shutOff => Sys2Proof.Machine.execShutOff s
  | .powerRestored => Sys2Proof.Machine.execPowerRestored s
  | .vinOver vin => Sys2Proof.Machine.execVinOver vin s
  | .ovCutoff peak => Sys2Proof.Machine.execOvCutoff peak s
  | .ovRejoin => Sys2Proof.Machine.execOvRejoin s
  | .pwrClear who => Sys2Proof.Machine.execPwrClear who s
  | .rxClkReturn p => Sys2Proof.Machine.execRxClkReturn p s
  | .hostCompletionTimeout h => Sys2Proof.Machine.execHostCompletionTimeout h s
  | .debuggerResume slice desc => Sys2Proof.Machine.execDebuggerResume slice desc s
  | .aonCopyRefresh => Sys2Proof.Machine.execAonCopyRefresh s
  | .trialHealthySecond => Sys2Proof.Machine.execTrialHealthySecond s
  | .announceReceiptTimeout slave gm traceable => Sys2Proof.Machine.execAnnounceReceiptTimeout slave gm traceable s
  | .hostLinkUp speed width => Sys2Proof.Machine.execHostLinkUp speed width s
  | .updCmdDone => Sys2Proof.Machine.execUpdCmdDone s

end Sys2Proof.Machine
end

