-- ==== Sys2Proof/Safety.lean ====
section
/-! DEFINITION. The terms in which claims are stated: a command that answers, what stays unchanged,
and the invariant that every step keeps. -/

namespace Sys2Proof.Machine

/-- Command i, run on s, answers a next state of which P holds. -/
def Answers (i : Instr) (s : State) (P : State → Prop) : Prop := ∃ t, exec i s = .next t ∧ P t

/-- Where every command of the block ends: real time stands on a TIME clock (R266), and no event
record is still on its way into the recorder (R384). -/
def Steady (s : State) : Prop := s.clk % timeClk = 0 ∧ s.rcd.arriving = []

/-- A register of the recorder: what entering an event record may change. -/
def IsRec (r : Reg) : Prop := recBase ≤ r.addr ∧ r.addr < recBase + 0x10000

/-- A count of table walks: what an instruction fetch may change beside the TLB. -/
def IsWalkCount (r : Reg) : Prop := ∃ b < 5, r.addr = (Mmu.WALK_COUNT b).addr

/-- What the memory controllers note of an error that an access meets (R174): their counts, MC_LAST and
the interrupt status of their slice. -/
def IsEccNote (r : Reg) : Prop :=
  ∃ sl < 4, r.addr ∈ [(Mc.MC_CE_COUNT sl).addr, (Mc.MC_UE_COUNT sl).addr, (Mc.MC_LAST_INFO sl).addr,
    (Mc.MC_LAST_ADDR sl).addr, (Mmu.INT_STATUS sl).addr]

/-- Time, the queue, memory and the scheduler stand as they stood; where flipped bits wait in DRAM
(R174), the fetch of the instruction may have met some, and poisoned their lines. -/
structure SameWorld (s t : State) : Prop where
  clk : t.clk = s.clk
  cnt : t.cnt = s.cnt
  pending : t.pending = s.pending
  dram : t.dram = s.dram
  poison : s.latent = [] → t.poison = s.poison
  store : t.store = s.store
  descs : t.descs = s.descs
  sched : t.sched = s.sched
  boot : t.boot = s.boot
  power : t.power = s.power
  reg : ∀ r, ¬ IsRec r → ¬ IsWalkCount r → s.latent = [] ∨ ¬ IsEccNote r → rd r t = rd r s

/-- Beside that, no context but k, and no byte of TLM, has changed. -/
structure OnlyCtx (k : Nat) (s t : State) : Prop extends SameWorld s t where
  others : ∀ j, j ≠ k → ctxAt j t = ctxAt j s
  tlm : t.tlm = s.tlm
  dcache : t.dcache = s.dcache

/-- Context c is READY, its core runs, and the len bytes at its pc can be fetched (R76, R106). -/
def Issues (c : CtxId) (len : Nat) (s : State) : Prop :=
  canIssue (ctxNo c) s = true ∧ (fetch (ctxNo c) len s).1 = none

/-- Instruction i of context k completes: its context becomes what g makes of it, sr.icount and the
pc go on by one instruction of len bytes (R73, R105), and nothing else changes. -/
def Retires (i : Instr) (k len : Nat) (s : State) (g : Ctx → Ctx) : Prop :=
  Answers i s fun t => ctxAt k t = (g (ctxAt k s)).retire len ∧ OnlyCtx k s t

/-- The task on context k has ended with a status and a cause (R97, R147): the context is FREE. -/
def TaskEnds (k status cause : Nat) (s t : State) : Prop :=
  let d := descOf (ctxSlice k) (ctxAt k s).desc
  (ctxAt k t).st = .free ∧ (descAt d t).endStatus = status ∧ (descAt d t).endCause = cause

/-- A register access of this requester is taken: the host is not in D3hot and the slices' blocks
run (R410, R414). -/
def Lands (who : Req) (s : State) : Prop :=
  who = .host → hostAsleep .host s = false ∧ slicesOn s = true

/-- Every register but those at the listed addresses, and the recorder's, reads as before. -/
def RegsBut (l : List Nat) (s t : State) : Prop :=
  ∀ r : Reg, ¬ IsRec r → r.addr ∉ l → rd r t = rd r s

/-- IOMMU stream st is enabled and in BYPASS (R184). -/
def Bypass (st : Nat) (s : State) : Prop :=
  bit (Iommu.STE st) 16 s = true ∧ bit (Iommu.STE st) 17 s = true

/-- One event record enters the recorder, which has room for it and nothing else on its way, on a clock
on which no other has entered (R384). -/
def Logs (code : Nat) (payload : List Byte) (s t : State) : Prop :=
  s.rcd.arriving = [] → s.rcd.staged.length < 256 → s.rcd.entered = 0 ∨ s.rcd.enteredAt < s.clk →
    ∃ r, t.rcd.staged = s.rcd.staged ++ [r] ∧ r.code = code ∧ r.payload = payload

/-- Contexts, descriptors, schedulers, DRAM, TLM and the frame store stand as they stood. -/
def SameCue (s t : State) : Prop :=
  t.ctxs = s.ctxs ∧ t.descs = s.descs ∧ t.sched = s.sched ∧ t.dram = s.dram ∧ t.tlm = s.tlm
    ∧ t.store = s.store

end Sys2Proof.Machine
end

