-- ==== Sys2Proof/WellFormed.lean ====
section
/-! DEFINITION. Which commands are well formed: the checks on operands that their types do not
make.  The meanings do not rely on them. -/

namespace Sys2Proof

/-- R411: an access of register space is naturally aligned. -/
def alignedAccess (off : BitVec 26) (wide : Bool) : Bool :=
  off.toNat % (if wide then 8 else 4) == 0

/-- R362: a slot converts 2^AVG times, AVG 0 to 8. -/
def slotCodes (n : Nat) : Bool := n ∈ [1, 2, 4, 8, 16, 32, 64, 128, 256]

/-- R383, R486: the fields of a record. -/
def recordFields (code sev origin inst n : Nat) : Bool :=
  code < 65536 && 1 ≤ sev && sev ≤ 4 && origin ≤ 2 && inst < 256 && n ≤ 28

def Instr.wf : Instr → Bool
  | .registerWrite _ off wide _ => alignedAccess off wide
  | .winWrite _ off wide _ => alignedAccess off wide
  | .rcRead _ off wide _ => alignedAccess off wide
  | .lowHalfWrite _ off _ => off.toNat % 8 == 0
  | .lowHalfRead _ off => off.toNat % 8 == 0
  | .telemetryPacket _ bytes => bytes.length == 64
  | .heartbeatReceived _ _ bytes => bytes.length == 40
  | .mirrorFrameReceived _ _ body => body.length ≤ 8984
  | .conversionDone _ codes => slotCodes codes.length
  | .recordEnter code sev origin inst payload => recordFields code sev origin inst payload.length
  | .bar2Access write _ len data _ => if write then data.length == len.toNat else data.isEmpty
  | .joinGroup _ _ sources => sources.length ≤ 8
  | .leaveGroup _ _ sources => sources.length ≤ 8
  | .notificationWrite type body => 1 ≤ type.toNat && type.toNat ≤ 3 && body.length ≤ 56
  | .startupStep u => u.macs.length == 4
  | .fatal cause detail => cause.val != 0 && detail.length ≤ 27
  | .supervisorDisagree g j t => g != j && j != t && g != t
  | _ => true

end Sys2Proof
end

