-- ==== Sys2Proof/Certificates/Slice0/Obligations.lean ====
section
/-! DEFINITION. The statements for the provers. -/

open Sys2Proof Sys2Proof.Machine

/-! ### Cue instructions: scalar -/

/-- R111: the register forms of the scalar ALU: g[rd] becomes the row's value of g[ra] and g[rb];
the context goes on by one instruction of 4 bytes, nothing else changes. A write to g0 is discarded
(R109). R111: the forms of one operand, whose rb must be 0: counts of zeros and of ones, the sign
of a byte. R113: the low 64 bits of a product, and its high 64 bits with each mix of signs. -/
def Obligations.ScalarResults : Prop :=
  (∀ (c : CtxId) (f : RegF) (s : State), Issues c 4 s →
      ∀ p ∈ ([(.add, fun a b => a + b), (.sub, fun a b => a - b), (.andG, fun a b => a &&& b),
          (.orG, fun a b => a ||| b), (.xor, fun a b => a ^^^ b), (.andn, fun a b => a &&& ~~~b),
          (.sll, fun a b => a <<< (b.toNat % 64)), (.srl, fun a b => a >>> (b.toNat % 64)),
          (.sra, fun a b => a.sshiftRight (b.toNat % 64)),
          (.slt, fun a b => if a.slt b then 1 else 0), (.sltu, fun a b => if a.ult b then 1 else 0),
          (.min, fun a b => if a.slt b then a else b), (.minu, fun a b => if a.ult b then a else b),
          (.max, fun a b => if a.slt b then b else a), (.maxu, fun a b => if a.ult b then b else a),
          (.sextH, fun a _ => (a.truncate 16).signExtend 64),
          (.sextW, fun a _ => (a.truncate 32).signExtend 64),
          (.zextW, fun a _ => (a.truncate 32).zeroExtend 64)] :
          List ((CtxId → RegF → Instr) × (Word → Word → Word))),
        Retires (p.1 c f) (ctxNo c) 4 s fun x => x.setG f.rd.val (p.2 (gReg f.ra x) (gReg f.rb x)))
  ∧ (∀ (c : CtxId) (f : RegF) (s : State), Issues c 4 s → f.rb = 0 →
      Retires (.clz c f) (ctxNo c) 4 s (fun x => x.setG f.rd.val
        (BitVec.ofNat 64 (if gReg f.ra x = 0 then 64 else 63 - (gReg f.ra x).toNat.log2)))
      ∧ Retires (.ctz c f) (ctxNo c) 4 s (fun x => x.setG f.rd.val
        (BitVec.ofNat 64 (((List.range 64).find? fun i => (gReg f.ra x).getLsbD i).getD 64)))
      ∧ Retires (.popc c f) (ctxNo c) 4 s (fun x => x.setG f.rd.val
        (BitVec.ofNat 64 ((List.range 64).countP fun i => (gReg f.ra x).getLsbD i)))
      ∧ Retires (.sextB c f) (ctxNo c) 4 s (fun x => x.setG f.rd.val
        (((gReg f.ra x).truncate 8).signExtend 64)))
  ∧ (∀ (c : CtxId) (f : RegF) (s : State), Issues c 4 s →
      ∀ p ∈ ([(.mul, fun a b => a * b),
          (.mulh, fun a b => BitVec.ofInt 64 (a.toInt * b.toInt / 2 ^ 64)),
          (.mulhu, fun a b => BitVec.ofInt 64 ((a.toNat : Int) * b.toNat / 2 ^ 64)),
          (.mulhsu, fun a b => BitVec.ofInt 64 (a.toInt * b.toNat / 2 ^ 64))] :
          List ((CtxId → RegF → Instr) × (Word → Word → Word))),
        Retires (p.1 c f) (ctxNo c) 4 s fun x => x.setG f.rd.val (p.2 (gReg f.ra x) (gReg f.rb x)))

/-- R111: predicates: mtp, mfp and the predicate logic, whose p fields name p0 to p7. -/
def Obligations.PredicateResults : Prop :=
  ∀ (c : CtxId) (f : RegF) (s : State), Issues c 4 s →
    (f.rd.val < 8 → f.rb = 0 → Retires (.mtp c f) (ctxNo c) 4 s fun x =>
      x.setP f.rd.val ((gReg f.ra x).truncate 32))
    ∧ (f.ra.val < 8 → f.rb = 0 → Retires (.mfp c f) (ctxNo c) 4 s fun x =>
      x.setG f.rd.val ((x.getP f.ra.val).zeroExtend 64))
    ∧ (f.rd.val < 8 → f.ra.val < 8 → f.rb.val < 8 →
      ∀ p ∈ ([(.pand, fun a b => a &&& b), (.por, fun a b => a ||| b),
          (.pxor, fun a b => a ^^^ b), (.pandn, fun a b => a &&& ~~~b)] :
          List ((CtxId → RegF → Instr) × (BitVec 32 → BitVec 32 → BitVec 32))),
        Retires (p.1 c f) (ctxNo c) 4 s fun x =>
          x.setP f.rd.val (p.2 (x.getP f.ra.val) (x.getP f.rb.val)))

/-- R105, R112: the immediate forms, of 4 bytes with imm10 or of 8 with an extension word,
sign-extended; slli, srli and srai shift by imm[5:0], and where imm[63:6] is not 0 they raise
ILLEGAL. -/
def Obligations.ScalarImmediateResults : Prop :=
  ∀ (c : CtxId) (f : ImmF) (s : State), (f.ext.isSome → f.imm10 = 0) →
    let imm : Word := match f.ext with | some e => e.signExtend 64 | none => f.imm10.signExtend 64
    let len := if f.ext.isSome then 8 else 4
    Issues c len s →
    (∀ p ∈ ([(.addi, fun a i => a + i), (.andi, fun a i => a &&& i), (.ori, fun a i => a ||| i),
        (.xori, fun a i => a ^^^ i), (.slti, fun a i => if a.slt i then 1 else 0),
        (.sltiu, fun a i => if a.ult i then 1 else 0),
        (.orhi, fun a i => (a.truncate 32).zeroExtend 64 ||| i <<< 32)] :
        List ((CtxId → ImmF → Instr) × (Word → Word → Word))),
      Retires (p.1 c f) (ctxNo c) len s fun x => x.setG f.rd.val (p.2 (gReg f.ra x) imm))
    ∧ ∀ p ∈ ([(.slli, fun a n => a <<< n), (.srli, fun a n => a >>> n),
          (.srai, fun a n => a.sshiftRight n)] :
          List ((CtxId → ImmF → Instr) × (Word → Nat → Word))),
        (imm.toNat < 64 → Retires (p.1 c f) (ctxNo c) len s fun x =>
          x.setG f.rd.val (p.2 (gReg f.ra x) imm.toNat))
        ∧ (64 ≤ imm.toNat → Answers (p.1 c f) s (TaskEnds (ctxNo c) 2 3 s))

/-- R114: a branch that is taken goes to pc + 4 x off, one that is not taken to the next
instruction, its target checked for nothing; a target's bits 1:0 are always 0. A taken branch to a
target with bits 63..48 not 0 raises ALIGN; one to 0 ends the task (R97), once the stores before it
have drained. bpany, bpall and bpnone with an rb that is not 0 raise ILLEGAL. -/
def Obligations.BranchResults : Prop :=
  ∀ (c : CtxId) (f : BrF) (s : State), (f.ext.isSome → f.off10 = 0) →
    let off : Word := match f.ext with | some e => e.signExtend 64 | none => f.off10.signExtend 64
    let len := if f.ext.isSome then 8 else 4
    let k := ctxNo c
    let x := ctxAt k s
    let t : Word := BitVec.ofNat 64 x.pc + 4 * off
    let ends (i : Instr) (taken : Bool) : Prop :=
      if taken then
        (t ≠ 0 → t.toNat < 2 ^ 48 → t.toNat % 4 = 0 ∧
          Answers i s fun u => ctxAt k u = { x.retire 0 with pc := t.toNat } ∧ OnlyCtx k s u)
        ∧ (2 ^ 48 ≤ t.toNat → Answers i s (TaskEnds k 2 5 s))
        ∧ (t = 0 → x.sbuf = [] → Answers i s (TaskEnds k 0 0 s))
        ∧ (t = 0 → x.sbuf ≠ [] → Answers i s fun u =>
            ctxAt k u = { x with st := .stalled, stall := some .release } ∧ OnlyCtx k s u)
      else Retires i k len s id
    Issues c len s →
    (∀ p ∈ ([(.beq, fun a b => a == b), (.bne, fun a b => a != b), (.blt, fun a b => a.slt b),
        (.bge, fun a b => !a.slt b), (.bltu, fun a b => a.ult b), (.bgeu, fun a b => !a.ult b)] :
        List ((CtxId → BrF → Instr) × (Word → Word → Bool))),
      ends (p.1 c f) (p.2 (gReg f.ra x) (gReg f.rb x)))
    ∧ ∀ p ∈ ([(.bpany, fun v => v != 0), (.bpall, fun v => v == 0xFFFFFFFF),
          (.bpnone, fun v => v == 0)] : List ((CtxId → BrF → Instr) × (BitVec 32 → Bool))),
        (f.ra.val < 8 → f.rb = 0 → ends (p.1 c f) (p.2 (x.getP f.ra.val)))
        ∧ (8 ≤ f.ra.val ∨ f.rb ≠ 0 → Answers (p.1 c f) s (TaskEnds k 2 3 s))

/-- R115: call, callr and jr: the target is computed before the link register is written. An
aligned target below 2^48 that is not 0 is gone to, and rd takes pc + len; a target with bits [1:0]
not 0, or bits [63:48] not 0, raises ALIGN; one of 0 ends the task (R97), once the stores before it
have drained. call with an ra that is not 0, and jr with an rd or an immediate that is not 0, raise
ILLEGAL. -/
def Obligations.CallsAndTransfers : Prop :=
  ∀ (c : CtxId) (f : ImmF) (s : State), (f.ext.isSome → f.imm10 = 0) →
    let off : Word := match f.ext with | some e => e.signExtend 64 | none => f.imm10.signExtend 64
    let len := if f.ext.isSome then 8 else 4
    let k := ctxNo c
    let x := ctxAt k s
    let goes (i : Instr) (rd : Nat) (t : Word) : Prop :=
      (t ≠ 0 → t.toNat % 4 = 0 → t.toNat < 2 ^ 48 → Answers i s fun u =>
        ctxAt k u = { (x.setG rd (BitVec.ofNat 64 (x.pc + len))).retire 0 with pc := t.toNat }
          ∧ OnlyCtx k s u)
      ∧ (t ≠ 0 → t.toNat % 4 ≠ 0 ∨ 2 ^ 48 ≤ t.toNat → Answers i s (TaskEnds k 2 5 s))
      ∧ (t = 0 → x.sbuf = [] → Answers i s (TaskEnds k 0 0 s))
      ∧ (t = 0 → x.sbuf ≠ [] → Answers i s fun u =>
          ctxAt k u = { x with st := .stalled, stall := some .release } ∧ OnlyCtx k s u)
    Issues c len s →
    (f.ra = 0 → goes (.call c f) f.rd.val (BitVec.ofNat 64 x.pc + 4 * off))
    ∧ (f.ra ≠ 0 → Answers (.call c f) s (TaskEnds k 2 3 s))
    ∧ goes (.callr c f) f.rd.val (gReg f.ra x + 4 * off)
    ∧ (f.rd = 0 → off = 0 → goes (.jr c f) 0 (gReg f.ra x))
    ∧ (f.rd ≠ 0 ∨ off ≠ 0 → Answers (.jr c f) s (TaskEnds k 2 3 s))

/-- R104, R105, R107: where a field that must be 0 is not 0 the instruction raises ILLEGAL, which
ends the task FAULTED with cause 3 (R87): rb of the one-operand forms, a p register's bits above
[2:0], the short immediate beside an extension word, fn[9:4] of the atomics and of the task
instructions and NB where it has no meaning, S with X, rb or the high half of the extension word
(R118), the pk of vext and vins, the fields of the tile, CRC, system and fence forms. -/
def Obligations.IllegalEncodings : Prop :=
  ∀ (c : CtxId) (s : State),
    let ill (l : List Instr) : Prop := ∀ i ∈ l, Answers i s (TaskEnds (ctxNo c) 2 3 s)
    (∀ f : RegF, Issues c 4 s →
      (f.rb ≠ 0 → ill [.clz c f, .ctz c f, .popc c f, .sextB c f, .mtp c f, .mfp c f])
      ∧ (8 ≤ f.rd.val → ill [.mtp c f, .pand c f, .por c f, .pxor c f, .pandn c f])
      ∧ (8 ≤ f.ra.val → ill [.mfp c f, .pand c f, .por c f, .pxor c f, .pandn c f])
      ∧ (8 ≤ f.rb.val → ill [.pand c f, .por c f, .pxor c f, .pandn c f]))
    ∧ (∀ f : ImmF, Issues c 8 s → f.ext.isSome → f.imm10 ≠ 0 →
      ill [.addi c f, .andi c f, .ori c f, .xori c f, .slti c f, .sltiu c f, .slli c f,
          .srli c f, .srai c f, .orhi c f, .call c f, .callr c f, .jr c f, .ldB c f, .ldBu c f,
          .ldH c f, .ldHu c f, .ldW c f, .ldWu c f, .ldD c f, .stB c f, .stH c f, .stW c f, .stD c f])
    ∧ (∀ f : BrF, Issues c 8 s → f.ext.isSome → f.off10 ≠ 0 →
      ill [.beq c f, .bne c f, .blt c f, .bge c f, .bltu c f, .bgeu c f, .bpany c f, .bpall c f,
          .bpnone c f])
    ∧ (∀ f : AmoF, Issues c 4 s → f.z ≠ 0 →
      ill [.amoSwap c f, .amoAdd c f, .amoAnd c f, .amoOr c f, .amoXor c f, .amoMin c f,
          .amoMax c f, .amoMinu c f, .amoMaxu c f, .cas c f])
    ∧ (∀ f : VecAF, ∀ e, f.ext = some e → Issues c 8 s →
      f.scalar = true ∨ f.vb ≠ 0 ∨ (f.wide = false ∧ 2 ^ 16 ≤ e.toNat) →
      ill [.vadd c f, .vsub c f, .vadds c f, .vsubs c f, .vmul c f, .vmulhu c f, .vminu c f, .vmaxu c f,
          .vmin c f, .vmax c f, .vand c f, .vor c f, .vxor c f, .vandn c f, .vsll c f, .vsrl c f,
          .vsra c f, .vabsdu c f, .vavgu c f, .vmov c f, .vsel c f, .vcmpEq c f, .vcmpNe c f,
          .vcmpLtu c f, .vcmpLeu c f, .vcmpLt c f, .vcmpLe c f])
    ∧ (∀ f : VecPF, Issues c 4 s → f.pk ≠ 0 → ill [.vext c f, .vins c f])
    ∧ (∀ (f : VecF) (l : Fin 16) (z : BitVec 4), Issues c 4 s →
      (z ≠ 0 → ill [.tst c f z, .tcommit c f z])
      ∧ (f.vd ≠ 0 ∨ f.pk ≠ 0 → ill [.tld c f l, .tcommit c f z]))
    ∧ (∀ f : TaskF, Issues c 4 s →
      (f.z ≠ 0 → ill [.spawn c f, .enq c f, .tcancel c f, .doneTask c f, .yieldTask c f,
        .waitTime c f, .waitEv c f, .post c f])
      ∧ (f.nb = true → ill [.tcancel c f, .doneTask c f, .yieldTask c f, .waitTime c f, .waitEv c f,
        .post c f]))
    ∧ (∀ f : CrcF, Issues c 4 s →
      (f.z ≠ 0 ∨ f.y ≠ 0 → ill [.crcB c f, .crcH c f, .crcW c f, .crcV c f, .crcGet c f, .crcPut c f,
        .crcFin c f])
      ∧ (f.rd ≠ 0 ∨ f.rb ≠ 0 → ill [.crcB c f, .crcH c f, .crcW c f, .crcV c f])
      ∧ (f.ra ≠ 0 ∨ f.rb ≠ 0 → ill [.crcGet c f, .crcFin c f]))
    ∧ ∀ (f : SysF) (rd ra : Fin 32), Issues c 4 s →
      (f.ra ≠ 0 → ill [.mfs c f]) ∧ (f.rd ≠ 0 → ill [.mts c f])
      ∧ (rd ≠ 0 ∨ ra ≠ 0 → ill [.fenceRel c rd ra, .fenceAcq c rd ra])
      ∧ (f.rd ≠ 0 ∨ f.ra ≠ 0 → ill [.fence c f, .trap c f])

/-- R116: a scalar load of an aligned address in the TLM window, below its limit, that meets no
outstanding tile delivery takes its 1, 2, 4 or 8 bytes, sign- or zero-extended (to g0: nothing is
written). One that meets a delivery stalls; an address that is not aligned raises ALIGN, one in the
guard or beyond the limit TLM_RANGE. -/
def Obligations.TlmLoadResults : Prop :=
  ∀ (c : CtxId) (f : ImmF) (s : State), (f.ext.isSome → f.imm10 = 0) →
    let imm : Word := match f.ext with | some e => e.signExtend 64 | none => f.imm10.signExtend 64
    let len := if f.ext.isSome then 8 else 4
    let k := ctxNo c
    let x := ctxAt k s
    let ea := (gReg f.ra x + imm).toNat
    let off := ea - tlmBase
    Issues c len s →
    ∀ p ∈ ([(.ldB, 1, true), (.ldBu, 1, false), (.ldH, 2, true), (.ldHu, 2, false), (.ldW, 4, true),
        (.ldWu, 4, false), (.ldD, 8, false)] : List ((CtxId → ImmF → Instr) × Nat × Bool)),
      let n := p.2.1
      let v := leNat (tlmBytes k off n s)
      (ea % n = 0 → tlmBase ≤ ea → ea + n ≤ tlmBase + x.tlmLimit → ea < 2 ^ 48 →
        (tileHeld x off n = false → Answers (p.1 c f) s fun t =>
          ctxAt k t = (({ x with stall := none, miss := none }).setG f.rd.val
            (if p.2.2 then BitVec.ofInt 64 (sgn (8 * n) v) else BitVec.ofNat 64 v)).retire len
          ∧ OnlyCtx k s t)
        ∧ (tileHeld x off n = true → Answers (p.1 c f) s fun t =>
          (ctxAt k t).st = .stalled ∧ (ctxAt k t).pc = x.pc ∧ OnlyCtx k s t))
      ∧ (ea % n ≠ 0 → Answers (p.1 c f) s (TaskEnds k 2 5 s))
      ∧ (ea % n = 0 → tlmGuard ≤ ea → ea < 2 ^ 48 → ea < tlmBase ∨ tlmBase + x.tlmLimit < ea + n →
        Answers (p.1 c f) s (TaskEnds k 2 6 s))

/-- R116: a scalar store to an aligned address in the TLM window, below its limit, that meets no
outstanding tile delivery is written at issue: the low bytes of g[rs], at the effective address and
nowhere else; no register changes. An address that is not aligned raises ALIGN, one in the guard or
beyond the limit TLM_RANGE. -/
def Obligations.TlmStoreResults : Prop :=
  ∀ (c : CtxId) (f : ImmF) (s : State), (f.ext.isSome → f.imm10 = 0) →
    let imm : Word := match f.ext with | some e => e.signExtend 64 | none => f.imm10.signExtend 64
    let len := if f.ext.isSome then 8 else 4
    let k := ctxNo c
    let x := ctxAt k s
    let ea := (gReg f.ra x + imm).toNat
    let off := ea - tlmBase
    Issues c len s →
    ∀ p ∈ ([(.stB, 1), (.stH, 2), (.stW, 4), (.stD, 8)] : List ((CtxId → ImmF → Instr) × Nat)),
      let n := p.2
      (ea % n = 0 → tlmBase ≤ ea → ea + n ≤ tlmBase + x.tlmLimit → ea < 2 ^ 48 →
        tileHeld x off n = false → Answers (p.1 c f) s fun t =>
          ctxAt k t = x.retire len
          ∧ (∀ i < n, tlmByte k (off + i) t = BitVec.ofNat 8 ((gReg f.rd x).toNat / 256 ^ i))
          ∧ (∀ j o, o < 65536 → ¬ (j = k ∧ off ≤ o ∧ o < off + n) → tlmByte j o t = tlmByte j o s)
          ∧ (∀ j, j ≠ k → ctxAt j t = ctxAt j s) ∧ SameWorld s t)
      ∧ (ea % n ≠ 0 → Answers (p.1 c f) s (TaskEnds k 2 5 s))
      ∧ (ea % n = 0 → tlmGuard ≤ ea → ea < 2 ^ 48 → ea < tlmBase ∨ tlmBase + x.tlmLimit < ea + n →
        Answers (p.1 c f) s (TaskEnds k 2 6 s))

/-- R82, R110, R116: with its address translated, a DRAM store of 1, 2, 4 or 8 bytes enters the
store buffer at its end, and memory is not yet changed; with 8 entries occupied it stalls. A load
of the same context whose bytes the buffer holds takes them, the youngest store of each byte; one
that finds neither a store nor a cached line, with fewer than 8 misses outstanding in its core,
stalls as a miss. R82: STORE_DRAIN: the oldest store of a context becomes visible in memory: its
bytes at its address, and every other byte as before; the other stores keep their order. -/
def Obligations.DramStores : Prop :=
  (∀ (c : CtxId) (f : ImmF) (s : State) (a : Nat), (f.ext.isSome → f.imm10 = 0) →
      let imm : Word := match f.ext with | some e => e.signExtend 64 | none => f.imm10.signExtend 64
      let len := if f.ext.isSome then 8 else 4
      let k := ctxNo c
      let x := ctxAt k s
      let ea := (gReg f.ra x + imm).toNat
      Issues c len s → ea < tlmGuard →
      (∀ p ∈ ([(.stB, 1), (.stH, 2), (.stW, 4), (.stD, 8)] : List ((CtxId → ImmF → Instr) × Nat)),
        ea % p.2 = 0 → (coreTranslate k ea .write (fetch k len s).2).1 = .pa a →
        (x.sbuf.length < 8 → Answers (p.1 c f) s fun t =>
          ctxAt k t = ({ x with sbuf := x.sbuf ++
            [(⟨a, leBytes p.2 (gReg f.rd x).toNat, s.clk⟩ : StoreEntry)] }).retire len ∧ OnlyCtx k s t)
        ∧ (8 ≤ x.sbuf.length → Answers (p.1 c f) s fun t =>
          ctxAt k t = { x with st := .stalled, stall := some .storeBuf } ∧ OnlyCtx k s t))
      ∧ ∀ p ∈ ([(.ldB, 1, true), (.ldBu, 1, false), (.ldH, 2, true), (.ldHu, 2, false), (.ldW, 4, true),
          (.ldWu, 4, false), (.ldD, 8, false)] : List ((CtxId → ImmF → Instr) × Nat × Bool)),
        let n := p.2.1
        let v := leNat ((List.range n).map fun i => (bufferedByte x.sbuf (a + i)).getD 0)
        ea % n = 0 → (coreTranslate k ea .read (fetch k len s).2).1 = .pa a →
        ((∀ i < n, (bufferedByte x.sbuf (a + i)).isSome) → Answers (p.1 c f) s fun t =>
          ctxAt k t = (({ x with stall := none, miss := none }).setG f.rd.val
            (if p.2.2 then BitVec.ofInt 64 (sgn (8 * n) v) else BitVec.ofNat 64 v)).retire len
          ∧ OnlyCtx k s t)
        ∧ (x.sbuf = [] → dcacheAt (k / 4) s = [] → coreMisses (k / 4) s < 8 → Answers (p.1 c f) s fun t =>
          ctxAt k t = { x with st := .stalled, stall := some .loadMiss, miss := some {
            rd := f.rd.val, vec := false, size := n, signed := p.2.2, len := len,
            lanes := [(0, ea, a)], queued := [], at_ := s.clk } } ∧ OnlyCtx k s t))
  ∧ (∀ (c : CtxId) (s : State) (e : StoreEntry) (rest : List StoreEntry),
      coresOn s = true → (ctxAt (ctxNo c) s).sbuf = e :: rest →
      sound e.pa e.bytes.length s = true →
      Answers (.storeDrain c) s fun t =>
        ctxAt (ctxNo c) t = { ctxAt (ctxNo c) s with sbuf := rest }
        ∧ memBytes e.pa e.bytes.length t = e.bytes
        ∧ (∀ a, ¬ (e.pa ≤ a ∧ a < e.pa + e.bytes.length) → memByte a t = memByte a s)
        ∧ t.poison = s.poison ∧ t.descs = s.descs ∧ t.tlm = s.tlm)

/-- R117: an atomic whose address is aligned, outside the TLM window and guard, and translated,
leaves for its controller with its operands: the context waits, and memory is not yet changed.
R117: ATOMIC_COMPLETE with no error found: memory becomes the operation's value of the old word and
g[rb], g[rd] the old word, sign-extended from 32 bits; a cas whose old word differs from g[rd]
writes nothing. The context's own stores have drained, and neither a kill nor a pre-emption waits
for it. -/
def Obligations.AtomicResults : Prop :=
  (∀ (c : CtxId) (f : AmoF) (s : State) (p : Nat),
      let k := ctxNo c
      let x := ctxAt k s
      let a := (gReg f.ra x).toNat
      Issues c 4 s → f.z = 0 → a % (if f.dbl then 8 else 4) = 0 → a < tlmGuard →
      (coreTranslate k a .atomic (fetch k 4 s).2).1 = .pa p →
      ∀ q ∈ ([(.amoSwap, 0), (.amoAdd, 1), (.amoAnd, 2), (.amoOr, 3), (.amoXor, 4), (.amoMin, 5),
          (.amoMax, 6), (.amoMinu, 7), (.amoMaxu, 8), (.cas, 9)] : List ((CtxId → AmoF → Instr) × Nat)),
        Answers (q.1 c f) s fun t =>
          ctxAt k t = { x with st := .stalled, stall := some .atomic,
                               atomic := some ⟨q.2, f.rd.val, f.dbl, p, a, gReg f.rb x, gReg f.rd x, s.clk⟩ }
          ∧ OnlyCtx k s t)
  ∧ (∀ (c : CtxId) (s : State) (q : AtomicReq), coresOn s = true →
      let k := ctxNo c
      let n := if q.dbl then 8 else 4
      let w := 8 * n
      let old := memNat q.pa n s
      let b := q.b.toNat % 2 ^ w
      let new := match q.op with
        | 0 => b
        | 1 => (old + b) % 2 ^ w
        | 2 => old &&& b
        | 3 => old ||| b
        | 4 => old ^^^ b
        | 5 => if sgn w old ≤ sgn w b then old else b
        | 6 => if sgn w b ≤ sgn w old then old else b
        | 7 => if old ≤ b then old else b
        | 8 => if b ≤ old then old else b
        | _ => if old = q.cmp.toNat % 2 ^ w then b else old
      (ctxAt k s).atomic = some q → (ctxAt k s).sbuf = [] → (ctxAt k s).killed = false →
      (ctxAt k s).save = none → sound q.pa n s = true →
      Answers (.atomicComplete c .clean) s fun t =>
        memNat q.pa n t = new
        ∧ (∀ a, ¬ (q.pa ≤ a ∧ a < q.pa + n) → memByte a t = memByte a s)
        ∧ ctxAt k t = (({ ctxAt k s with st := .ready, stall := none, atomic := none }).setG q.rd
            (BitVec.ofInt 64 (sgn w old))).retire 4)

/-! ### Cue instructions: vector -/

/-- R118, R71: vector arithmetic with its three forms of B: each active lane becomes the row's
value of A and B, every other lane keeps its value; vadds and vsubs set SAT where an active lane
clamps. -/
def Obligations.VectorArithmeticResults : Prop :=
  ∀ (c : CtxId) (f : VecAF) (s : State), vecABad f = false →
    let len := if f.ext.isSome then 8 else 4
    let k := ctxNo c
    let A (x : Ctx) (i : Nat) : Nat := lane (laneW f.wide) (vReg f.va x) i
    let B (x : Ctx) (i : Nat) : Nat :=
      if f.scalar then (gReg f.vb x).toNat % 2 ^ laneW f.wide
      else match f.ext with
        | some e => e.toNat % 2 ^ laneW f.wide
        | none => lane (laneW f.wide) (vReg f.vb x) i
    Issues c len s →
    (∀ p ∈ ([(.vadd, fun w a b => (a + b) % 2 ^ w), (.vsub, fun w a b => (a + 2 ^ w - b) % 2 ^ w),
        (.vmul, fun w a b => a * b % 2 ^ w), (.vmulhu, fun w a b => a * b / 2 ^ w),
        (.vminu, fun _ a b => min a b), (.vmaxu, fun _ a b => max a b),
        (.vmin, fun w a b => if sgn w a ≤ sgn w b then a else b),
        (.vmax, fun w a b => if sgn w a ≤ sgn w b then b else a),
        (.vand, fun _ a b => a &&& b), (.vor, fun _ a b => a ||| b), (.vxor, fun _ a b => a ^^^ b),
        (.vandn, fun w a b => a &&& (2 ^ w - 1 - b)),
        (.vsll, fun w a b => a * 2 ^ (b % w) % 2 ^ w), (.vsrl, fun w a b => a / 2 ^ (b % w)),
        (.vsra, fun w a b => unsgn w (sgn w a / (2 ^ (b % w) : Nat))),
        (.vabsdu, fun _ a b => max a b - min a b), (.vavgu, fun _ a b => (a + b + 1) / 2)] :
        List ((CtxId → VecAF → Instr) × (Nat → Nat → Nat → Nat))),
      Retires (p.1 c f) k len s fun x => x.setV f.vd.val (mapActive f.wide (x.getP f.pk.val)
        (vReg f.vd x) fun i => p.2 (laneW f.wide) (A x i) (B x i)))
    ∧ Retires (.vadds c f) k len s (fun x => satIf
        ((activeLanes f.wide (x.getP f.pk.val)).any fun i => 2 ^ laneW f.wide ≤ A x i + B x i)
        (x.setV f.vd.val (mapActive f.wide (x.getP f.pk.val) (vReg f.vd x) fun i =>
          min (A x i + B x i) (2 ^ laneW f.wide - 1))))
    ∧ Retires (.vsubs c f) k len s (fun x => satIf
        ((activeLanes f.wide (x.getP f.pk.val)).any fun i => A x i < B x i)
        (x.setV f.vd.val (mapActive f.wide (x.getP f.pk.val) (vReg f.vd x) fun i => A x i - B x i)))
    ∧ (f.va = 0 → Retires (.vmov c f) k len s fun x => x.setV f.vd.val
        (mapActive f.wide (x.getP f.pk.val) (vReg f.vd x) (B x)))
    ∧ Retires (.vsel c f) k len s (fun x => x.setV f.vd.val (vecOf f.wide fun i =>
        if laneOn f.wide (x.getP f.pk.val) i then A x i else B x i))

/-- R119: a compare writes every bit of pd: with 16-bit lanes bit i is pk[i] and the result of lane
i, with 32-bit lanes bits 2j and 2j+1 are both pk[2j] and the result of lane j. pd is bits [2:0] of
the vd field, whose other bits must be 0 (R107: else ILLEGAL). SAT is as it was. -/
def Obligations.VectorCompareResults : Prop :=
  ∀ (c : CtxId) (f : VecAF) (s : State), vecABad f = false →
    let len := if f.ext.isSome then 8 else 4
    let k := ctxNo c
    let w := laneW f.wide
    Issues c len s →
    ∀ p ∈ ([(.vcmpEq, fun a b => a == b), (.vcmpNe, fun a b => a != b),
        (.vcmpLtu, fun a b => decide (a < b)), (.vcmpLeu, fun a b => decide (a ≤ b)),
        (.vcmpLt, fun a b => decide (sgn w a < sgn w b)),
        (.vcmpLe, fun a b => decide (sgn w a ≤ sgn w b))] :
        List ((CtxId → VecAF → Instr) × (Nat → Nat → Bool))),
      (8 ≤ f.vd.val → Answers (p.1 c f) s (TaskEnds k 2 3 s))
      ∧ (f.vd.val < 8 → Answers (p.1 c f) s fun t => ∃ v : BitVec 32,
        (∀ b < 32, v.getLsbD b =
          let x := ctxAt k s
          let i := if f.wide then b / 2 else b
          let pkBit := (x.getP f.pk.val).getLsbD (if f.wide then 2 * (b / 2) else b)
          pkBit && p.2 (laneA f x i) (operandB x f i))
        ∧ ctxAt k t = ((ctxAt k s).setP f.vd.val v).retire len ∧ OnlyCtx k s t)

/-- R120: vector pixel arithmetic in U1.15 on 16-bit lanes: the exact value, then the clamp to
0xFFFF, which sets SAT. R120: the half-precision conversions round to nearest even: a finite half
stands for N / 2^24, and vcvt.fx.f16 gives the integer nearest to N / 2^9, clamped to 0 to 0xFFFF,
SAT where it clamped; an infinity is clamped and a NaN is 0, both with SAT. vcvt.f16.fx gives the
half nearest to A / 2^15. R121: a table lookup in a table that lies whole in the TLM window below
the limit; a table not 2-byte aligned raises ALIGN, any other table TLM_RANGE. -/
def Obligations.PixelAndTableResults : Prop :=
  (∀ (c : CtxId) (f : VecXF) (s : State), f.z = 0 → Issues c 4 s →
      let k := ctxNo c
      let clamping (i : Instr) (v : Nat → Nat → Nat → Nat) : Prop :=
        Retires i k 4 s fun x =>
          let p := x.getP f.pk.val
          let r := fun i => v (lane 16 (vReg f.va x) i) (lane 16 (vReg f.vb x) i)
            (lane 16 (vReg f.vd x) i)
          satIf ((activeLanes false p).any fun i => 0xFFFF < r i)
            (x.setV f.vd.val (mapActive false p (vReg f.vd x) fun i => min (r i) 0xFFFF))
      clamping (.vmulFx c f) (fun a b _ => (a * b + 0x4000) / 32768)
      ∧ clamping (.vmadFx c f) (fun a b d => (a * b + d * 32768 + 0x4000) / 32768)
      ∧ Retires (.vblend c f) k 4 s (fun x => x.setV f.vd.val
          (mapActive false (x.getP f.pk.val) (vReg f.vd x) fun i =>
            let al := min (lane 16 (vReg f.vd x) i) 0x8000
            (lane 16 (vReg f.va x) i * (0x8000 - al) + lane 16 (vReg f.vb x) i * al + 0x4000) / 32768))
      ∧ (f.vb = 0 →
        clamping (.vcvtU16Fx c f) (fun a _ _ => 2 * a - a / 32768)
        ∧ (∀ q ∈ ([(.vcvtFxU16, fun a => (a + 1) / 2),
              (.vcvtFxU10, fun a => (a % 1024 * 32768 + 511) / 1023), (.vcvtF16Fx, fxToHalf)] :
              List ((CtxId → VecXF → Instr) × (Nat → Nat))),
            Retires (q.1 c f) k 4 s fun x => x.setV f.vd.val (mapActive false (x.getP f.pk.val)
              (vReg f.vd x) fun i => q.2 (lane 16 (vReg f.va x) i)))
        ∧ Retires (.vcvtFxF16 c f) k 4 s (fun x =>
            let p := x.getP f.pk.val
            satIf ((activeLanes false p).any fun i => (halfToFx (lane 16 (vReg f.va x) i)).2)
              (x.setV f.vd.val (mapActive false p (vReg f.vd x) fun i =>
                (halfToFx (lane 16 (vReg f.va x) i)).1)))
        ∧ Retires (.vcvtFxU8 c f) k 4 s (fun x => x.setV f.vd.val
            (mapActive false (x.getP f.pk.val) (vReg f.vd x) fun i =>
              (lane 8 (vReg f.va x) i * 32768 + 127) / 255))
        ∧ Retires (.vcvtU8Fx c f) k 4 s (fun x =>
            let p := x.getP f.pk.val
            let r := fun i => (lane 16 (vReg f.va x) i * 255 + 16384) / 32768
            satIf ((activeLanes false p).any fun i => 255 < r i)
              (x.setV f.vd.val (BitVec.ofNat 512 (packLanes 8 (fun i =>
                if laneOn false p i then min 255 (r i) else lane 8 (vReg f.vd x) i) 32))))))
  ∧ (let N (h : Nat) : Nat := if h < 1024 then h else (1024 + h % 1024) * 2 ^ (h / 1024 - 1)
    (∀ h < 0x7C00, ∃ r, 512 * r ≤ N h + 256 ∧ N h ≤ 512 * r + 256
        ∧ (512 * r = N h + 256 ∨ N h = 512 * r + 256 → r % 2 = 0)
        ∧ halfToFx h = (min r 0xFFFF, decide (0xFFFF < r))
        ∧ halfToFx (0x8000 + h) = (0, decide (0 < r)))
    ∧ halfToFx 0x7C00 = (0xFFFF, true) ∧ halfToFx 0xFC00 = (0, true)
    ∧ (∀ h, 0x7C00 < h → h < 0x8000 → halfToFx h = (0, true) ∧ halfToFx (0x8000 + h) = (0, true))
    ∧ ∀ a < 65536, let h := fxToHalf a
        h < 0x7C00 ∧ 1024 * a ≤ N h + N (h + 1) ∧ (1024 * a = N h + N (h + 1) → h % 2 = 0)
        ∧ (0 < h → N (h - 1) + N h ≤ 1024 * a ∧ (N (h - 1) + N h = 1024 * a → h % 2 = 0)))
  ∧ (∀ (c : CtxId) (f : VecXF) (s : State), f.z = 0 → Issues c 4 s →
      let k := ctxNo c
      let x := ctxAt k s
      let a := (gReg f.vb x).toNat
      let T (i : Nat) : Nat := leNat (tlmBytes k (a - tlmBase + 2 * i) 2 s)
      let inside (n : Nat) : Prop := tlmBase ≤ a ∧ a + 2 * n ≤ tlmBase + x.tlmLimit ∧ a < 2 ^ 48
      let looks (i : Instr) (n : Nat) (v : Nat → Nat) : Prop :=
        (a % 2 = 0 → inside n → tileHeld x (a - tlmBase) (2 * n) = false → Retires i k 4 s fun y =>
          y.setV f.vd.val (mapActive false (y.getP f.pk.val) (vReg f.vd y) fun i =>
            v (lane 16 (vReg f.va y) i)))
        ∧ (a % 2 ≠ 0 → Answers i s (TaskEnds k 2 5 s))
        ∧ (a % 2 = 0 → ¬ inside n → Answers i s (TaskEnds k 2 6 s))
      looks (.vlutN c f) 4096 (fun v => T (v / 16))
      ∧ looks (.vlutI c f) 4097 (fun v =>
        unsgn 16 ((T (v / 16) : Int)
          + (((T (v / 16 + 1) : Int) - T (v / 16)) * (v % 16 : Nat) + 8) / 16)))

/-- R122: permutes, inserts and slides; lane j of the sequence va then vb. A lane number or a slide
amount beyond the lanes is ILLEGAL. R122: the reductions over the active lanes, into g[rd]; a vb
that is not 0 is ILLEGAL. -/
def Obligations.PermuteAndReduceResults : Prop :=
  (∀ (c : CtxId) (f : VecPF) (s : State), Issues c 4 s →
      let k := ctxNo c
      let n := laneN f.wide
      let L (r : Fin 32) (x : Ctx) (i : Nat) : Nat := lane (laneW f.wide) (vReg r x) i
      let Q (x : Ctx) (j : Nat) : Nat := if j < n then L f.va x j else L f.vb x (j - n)
      let gives (i : Instr) (v : Ctx → Nat → Nat) : Prop := Retires i k 4 s fun x =>
        x.setV f.vd.val (mapActive f.wide (x.getP f.pk.val) (vReg f.vd x) (v x))
      gives (.vperm c f) (fun x i => L f.va x (L f.vb x i % n))
      ∧ (f.vb.val < n → gives (.vbcast c f) fun x _ => L f.va x f.vb.val)
      ∧ (f.vb.val < n → f.pk = 0 →
        Retires (.vext c f) k 4 s (fun x => x.setG f.vd.val (BitVec.ofNat 64 (L f.va x f.vb.val)))
        ∧ Retires (.vins c f) k 4 s (fun x => x.setV f.vd.val (vecOf f.wide fun i =>
            if i = f.vb.val then (gReg f.va x).toNat else L f.vd x i)))
      ∧ gives (.vzipLo c f) (fun x i => if i % 2 = 0 then L f.va x (i / 2) else L f.vb x (i / 2))
      ∧ gives (.vzipHi c f) (fun x i =>
          if i % 2 = 0 then L f.va x (n / 2 + i / 2) else L f.vb x (n / 2 + i / 2))
      ∧ gives (.vuzpEv c f) (fun x i => Q x (2 * i))
      ∧ gives (.vuzpOd c f) (fun x i => Q x (2 * i + 1))
      ∧ (∀ m : Fin 32, (f.wide = true → m.val < 16) → gives (.vslide c f m) fun x i => Q x (i + m.val))
      ∧ Retires (.vcompress c f) k 4 s (fun x => x.setV f.vd.val (vecOf f.wide fun i =>
          ((activeLanes f.wide (x.getP f.pk.val)).map (L f.va x)).getD i 0))
      ∧ (n ≤ f.vb.val → ∀ i ∈ [Instr.vbcast c f, .vext c f, .vins c f], Answers i s (TaskEnds k 2 3 s))
      ∧ ∀ m : Fin 32, f.wide = true → 16 ≤ m.val → Answers (.vslide c f m) s (TaskEnds k 2 3 s))
  ∧ (∀ (c : CtxId) (f : VecPF) (s : State), Issues c 4 s →
      let lanes (x : Ctx) : List Nat :=
        (activeLanes f.wide (x.getP f.pk.val)).map fun i => lane (laneW f.wide) (vReg f.va x) i
      ∀ p ∈ ([(.vredAddu, List.sum), (.vredMaxu, List.foldl max 0),
          (.vredMinu, List.foldl min (2 ^ laneW f.wide - 1))] :
          List ((CtxId → VecPF → Instr) × (List Nat → Nat))),
        (f.vb = 0 → Retires (p.1 c f) (ctxNo c) 4 s fun x =>
          x.setG f.vd.val (BitVec.ofNat 64 (p.2 (lanes x))))
        ∧ (f.vb ≠ 0 → Answers (p.1 c f) s (TaskEnds (ctxNo c) 2 3 s)))

/-- R91, R123, R124: vector loads and stores over the active lanes not done before. In TLM, with
every address aligned, in the window below the limit and clear of tile deliveries: vld and vgather
fill those lanes and leave the others; vst and vscatter write each lane's bytes, a higher lane over
a lower one, and no other byte; sr.vrm is 0 at completion. A single lane in DRAM with nothing of it
at hand misses, or enters an empty store buffer. An address not aligned to the lane raises ALIGN. -/
def Obligations.VectorMemory : Prop :=
  ∀ (c : CtxId) (f : VecMF) (s : State), f.z = 0 →
    let len := if f.ext.isSome then 8 else 4
    let k := ctxNo c
    let x := ctxAt k s
    let z := laneBytes f.wide
    let old (n : Nat) : Nat := lane (laneW f.wide) (x.getV f.vd.val) n
    let L := lanesToDo f x
    let tlm (a : Nat → Nat) : Prop := ∀ i ∈ L, a i % z = 0 ∧ tlmBase ≤ a i
      ∧ a i + z ≤ tlmBase + x.tlmLimit ∧ a i < 2 ^ 48 ∧ tileHeld x (a i - tlmBase) z = false
    let loads (j : Instr) (a : Nat → Nat) : Prop :=
      (tlm a → Answers j s fun t =>
        ctxAt k t = ({ (if L = [] then x else x.setV f.vd.val (vecOf f.wide fun n =>
            if n ∈ L then leNat (tlmBytes k (a n - tlmBase) z s) else old n)) with
              vrm := 0, stall := none, miss := none }).retire len
        ∧ OnlyCtx k s t)
      ∧ ∀ i p, L = [i] → a i % z = 0 → a i < tlmGuard → x.sbuf = [] → dcacheAt (k / 4) s = [] →
        (coreTranslate k (a i) .read (fetch k len s).2).1 = .pa p → coreMisses (k / 4) s < 8 →
        Answers j s fun t => ctxAt k t = { x with st := .stalled, stall := some .loadMiss, miss := some {
            rd := f.vd.val, vec := true, size := z, signed := false, len := len,
            lanes := [(i, a i, p)], queued := [], at_ := s.clk } } ∧ OnlyCtx k s t
    let stores (j : Instr) (a : Nat → Nat) : Prop :=
      (tlm a → Answers j s fun t =>
        ctxAt k t = ({ x with vrm := 0 }).retire len
        ∧ (∀ i ∈ L, (∀ n ∈ L, i < n → a n + z ≤ a i ∨ a i + z ≤ a n) →
            tlmBytes k (a i - tlmBase) z t = leBytes z (old i))
        ∧ (∀ n o, o < 65536 → ¬ (n = k ∧ ∃ i ∈ L, a i - tlmBase ≤ o ∧ o < a i - tlmBase + z) →
            tlmByte n o t = tlmByte n o s)
        ∧ SameWorld s t)
      ∧ ∀ i p, L = [i] → a i % z = 0 → a i < tlmGuard → x.sbuf = [] →
        (coreTranslate k (a i) .write (fetch k len s).2).1 = .pa p →
        Answers j s fun t => ctxAt k t = ({ x with
            vrm := 0, sbuf := [⟨p, leBytes z (old i), s.clk⟩] }).retire len ∧ OnlyCtx k s t
    let skew (j : Instr) (a : Nat → Nat) : Prop :=
      (∃ i ∈ L, a i % z ≠ 0) → Answers j s (TaskEnds k 2 5 s)
    Issues c len s →
    (f.vb = 0 → loads (.vld c f) (laneAddr f false x) ∧ stores (.vst c f) (laneAddr f false x)
      ∧ skew (.vld c f) (laneAddr f false x) ∧ skew (.vst c f) (laneAddr f false x))
    ∧ (f.vb ≠ 0 → ∀ j ∈ [Instr.vld c f, .vst c f], Answers j s (TaskEnds k 2 3 s))
    ∧ loads (.vgather c f) (laneAddr f true x) ∧ stores (.vscatter c f) (laneAddr f true x)
    ∧ skew (.vgather c f) (laneAddr f true x) ∧ skew (.vscatter c f) (laneAddr f true x)

/-! ### Cue instructions: tile, task, CRC feed, system -/

/-- R81, R125, R126: a tld with good operands and fewer than two requests out is posted: the
context goes on, and the request stands at the tail of its layer's fetcher; with two out it stalls.
R127, R128, R158, R160: tst and tcommit with good operands: of a task outside any flow they go on
their way to the frame store, in program order; the tst of a flow's head goes too, its tcommit is
held until the release; both of another task of a flow are held in the release buffer, or stall
where it has no room. A tst that meets writes still on their way may also stall (R215). R126 to
R128: operands that raise TILE end the task FAULTED with cause 8; a tld whose destination does not
lie whole in the TLM window below the limit raises TLM_RANGE (6). -/
def Obligations.TileInstructions : Prop :=
  (∀ (c : CtxId) (f : VecF) (layer : Fin 16) (s : State), Issues c 4 s → f.vd = 0 → f.pk = 0 →
      let k := ctxNo c
      let x := ctxAt k s
      let dst := (gReg f.va x).toNat
      let b := (gReg f.vb x).toNat
      let q := 16 * ctxSlice k + layer.val
      let r : TldReq := ⟨k, layer.val, dst - tlmBase, b % 65536, b / 65536⟩
      tlmBase ≤ dst → dst + 2048 ≤ tlmBase + x.tlmLimit → dst < 2 ^ 48 → dst % 64 = 0 → b < 2 ^ 32 →
      (x.tlds.length < 2 → Answers (.tld c f layer) s fun t =>
        ctxAt k t = ({ x with tlds := x.tlds ++ [r] }).retire 4 ∧ OnlyCtx k s t
        ∧ (kget ({} : Fetcher) q t.fetchers).queue = (kget ({} : Fetcher) q s.fetchers).queue ++ [r])
      ∧ (2 ≤ x.tlds.length → Answers (.tld c f layer) s fun t =>
        ctxAt k t = { x with st := .stalled, stall := some .tldFull } ∧ OnlyCtx k s t
        ∧ t.fetchers = s.fetchers))
  ∧ (∀ (c : CtxId) (f : VecF) (s : State), Issues c 4 s →
      let k := ctxNo c
      let sl := ctxSlice k
      let x := ctxAt k s
      let d := descOf sl x.desc
      let e := descAt d s
      let a := (gReg f.va x).toNat
      let b := (gReg f.vb x).toNat
      let goes (j : Instr) (owner : Nat) (i : PathItem) (free : Bool) : Prop := Answers j s fun t =>
        (ctxAt k t = x.retire 4 ∧ (schedAt sl t).path = (schedAt sl s).path ++ [⟨owner, k, false, i⟩]
          ∨ free = false ∧ ctxAt k t = { x with st := .stalled, stall := some .tstPath }
            ∧ (schedAt sl t).path = (schedAt sl s).path)
        ∧ (∀ n, descAt n t = descAt n s) ∧ t.store = s.store
      let held (j : Instr) (buffered : Bool) (i : PathItem) : Prop := Answers j s fun t =>
        ctxAt k t = x.retire 4 ∧ (descAt d t).held = e.held ++ [⟨64 + e.flow, k, buffered, i⟩]
        ∧ t.sched = s.sched ∧ t.store = s.store
      let later (j : Instr) (i : PathItem) : Prop :=
        (relBufUsed sl s + itemBytes i ≤ relBufSize → held j true i)
        ∧ (relBufSize < relBufUsed sl s + itemBytes i → Answers j s fun t =>
            ctxAt k t = { x with st := .stalled, stall := some (.relBuf (itemBytes i)) }
            ∧ t.descs = s.descs ∧ t.store = s.store)
      let w : PathItem := .tst ⟨a, b, (x.getP f.pk.val).toNat,
        (List.range 4).map fun i => x.getV (f.vd.val + i)⟩
      (f.vd.val ≤ 28 → a < 2 ^ 14 → b < 2 ^ 18 →
        let free := (schedAt sl s).path.isEmpty
        (e.flowValid = false → goes (.tst c f 0) (k % 32) w free)
        ∧ (e.flowValid = true → isFlowHead d s = true → goes (.tst c f 0) (64 + e.flow) w free)
        ∧ (e.flowValid = true → isFlowHead d s = false → later (.tst c f 0) w))
      ∧ (f.vd = 0 → f.pk = 0 → 0 < a → a < 256 → b < 2 ^ 17 →
        (e.flowValid = false → goes (.tcommit c f 0) (k % 32) (.commit a b) true)
        ∧ (e.flowValid = true → isFlowHead d s = true → held (.tcommit c f 0) false (.commit a b))
        ∧ (e.flowValid = true → isFlowHead d s = false → later (.tcommit c f 0) (.commit a b))))
  ∧ (∀ (c : CtxId) (f : VecF) (layer : Fin 16) (s : State), Issues c 4 s →
      let x := ctxAt (ctxNo c) s
      let a := (gReg f.va x).toNat
      let b := (gReg f.vb x).toNat
      let inside : Prop := tlmBase ≤ a ∧ a + 2048 ≤ tlmBase + x.tlmLimit ∧ a < 2 ^ 48
      (28 < f.vd.val ∨ 2 ^ 14 ≤ a ∨ 2 ^ 18 ≤ b → Answers (.tst c f 0) s (TaskEnds (ctxNo c) 2 8 s))
      ∧ (f.vd = 0 → f.pk = 0 →
        (a = 0 ∨ 256 ≤ a ∨ 2 ^ 17 ≤ b → Answers (.tcommit c f 0) s (TaskEnds (ctxNo c) 2 8 s))
        ∧ (inside → a % 64 ≠ 0 ∨ 2 ^ 32 ≤ b → Answers (.tld c f layer) s (TaskEnds (ctxNo c) 2 8 s))
        ∧ (¬ inside → Answers (.tld c f layer) s (TaskEnds (ctxNo c) 2 6 s))))

/-- R129 to R132: spawn, enq and tcancel hand the scheduler what they ask, once the store buffer is
empty (tcancel needs no release), and wait for its answer. An enq of an address not 64-byte aligned
raises ALIGN, of one not whole in the TLM window below the limit TLM_RANGE. -/
def Obligations.SubmissionsReachScheduler : Prop :=
  ∀ (c : CtxId) (f : TaskF) (s : State), Issues c 4 s → f.z = 0 →
    let k := ctxNo c
    let sl := ctxSlice k
    let x := ctxAt k s
    let a := (gReg f.ra x).toNat
    let asks (j : Instr) (u : Sub) : Prop := Answers j s fun t =>
      ctxAt k t = { x with st := .stalled, stall := some .submit }
      ∧ schedAt sl t = { schedAt sl s with subs := (schedAt sl s).subs ++ [u] }
      ∧ t.descs = s.descs ∧ t.dram = s.dram ∧ ∀ j, j ≠ k → ctxAt j t = ctxAt j s
    (x.sbuf = [] →
      asks (.spawn c f)
        { src := .ctx k f.rd.val 4 f.nb false
          ctrl := a % 2 ^ 18 + 2 ^ 18 + 2 ^ 24
          image := 0
          start := (gReg f.rb x).toNat
          args := [x.getG 4, x.getG 5, x.getG 6, x.getG 7]
          tag := 0
          tail := 0
          badSpec := 2 ^ 18 ≤ a }
      ∧ (a % 64 = 0 → tlmBase ≤ a → a + 64 ≤ tlmBase + x.tlmLimit → a < 2 ^ 48 →
        tileHeld x (a - tlmBase) 64 = false →
        asks (.enq c f) (subOf (.ctx k f.rd.val 4 f.nb true) (tlmBytes k (a - tlmBase) 64 s))))
    ∧ (a % 64 ≠ 0 → Answers (.enq c f) s (TaskEnds k 2 5 s))
    ∧ (a % 64 = 0 → ¬ (tlmBase ≤ a ∧ a + 64 ≤ tlmBase + x.tlmLimit ∧ a < 2 ^ 48) →
      Answers (.enq c f) s (TaskEnds k 2 6 s))
    ∧ (f.nb = false → Answers (.tcancel c f) s fun t =>
        ctxAt k t = { x with st := .stalled, stall := some .submit }
        ∧ schedAt sl t = { schedAt sl s with cancels := (schedAt sl s).cancels ++ [(k, f.rd.val, a)] }
        ∧ t.descs = s.descs ∧ t.dram = s.dram)

/-- R82, R97, R130: with stores in the buffer, done, yield, post, spawn, fence.rel and fence wait
for the release, and have no other effect yet. -/
def Obligations.ReleaseComesFirst : Prop :=
  ∀ (c : CtxId) (f : TaskF) (s : State), Issues c 4 s → f.z = 0 → f.nb = false →
    (ctxAt (ctxNo c) s).sbuf ≠ [] →
    ∀ i ∈ [Instr.doneTask c f, .yieldTask c f, .post c f, .spawn c f, .fenceRel c 0 0, .fence c ⟨0, 0, 3⟩],
      Answers i s fun t =>
        ctxAt (ctxNo c) t = { ctxAt (ctxNo c) s with st := .stalled, stall := some .release }
        ∧ OnlyCtx (ctxNo c) s t

/-- R97, R133, R134: done ends the task DONE with g4[15:0]; a wait whose deadline has passed, or
with nothing to wait for, completes at once, any other makes the context WAITING. -/
def Obligations.DoneAndWaits : Prop :=
  ∀ (c : CtxId) (f : TaskF) (s : State), Issues c 4 s → f.z = 0 → f.nb = false →
    let k := ctxNo c
    let x := ctxAt k s
    let d := descOf (ctxSlice k) x.desc
    let a := (gReg f.ra x).toNat
    let b := (gReg f.rb x).toNat
    let waits (i : Instr) (w : Wait) : Prop := Answers i s fun t =>
      ctxAt k t = { x with st := .waiting, wait := some w } ∧ OnlyCtx k s t
    (x.sbuf = [] → Answers (.doneTask c f) s fun t =>
      TaskEnds k 0 0 s t ∧ (descAt d t).endUser = (x.getG 4).toNat % 65536)
    ∧ (a ≤ srTime s → Retires (.waitTime c f) k 4 s id)
    ∧ (srTime s < a → waits (.waitTime c f) ⟨false, 0, some a, 0⟩)
    ∧ ((a = 0 ∧ b = 0) ∨ (b ≠ 0 ∧ b ≤ srTime s) →
      Retires (.waitEv c f) k 4 s fun x => x.setG f.rd.val 0)
    ∧ (a ≠ 0 → b = 0 → waits (.waitEv c f) ⟨true, a, none, f.rd.val⟩)
    ∧ (srTime s < b → waits (.waitEv c f) ⟨true, a, some b, f.rd.val⟩)

/-- R92, R155: a yield with 32 or fewer save slots free is a no-op that YIELD_NOSLOT counts; with
more, the context begins to save as RESUME, in the lowest free slot, its pc beyond the yield and
its registers kept. R135, R165: post raises line 48 + k: EV_SEEN shows it, and a context of the
slice that waits for it is READY with the line's bit in its register. -/
def Obligations.YieldAndPostResults : Prop :=
  (∀ (c : CtxId) (f : TaskF) (s : State), Issues c 4 s → f.z = 0 → f.nb = false →
      let k := ctxNo c
      let sl := ctxSlice k
      let x := ctxAt k s
      let d := descOf sl x.desc
      x.sbuf = [] →
      (freeSlots sl s ≤ 32 → Answers (.yieldTask c f) s fun t =>
        ctxAt k t = x.retire 4
        ∧ rd (Sched.YIELD_NOSLOT sl) t = min (rd (Sched.YIELD_NOSLOT sl) s + 1) 0xFFFFFFFF
        ∧ (∀ j, j ≠ k → ctxAt j t = ctxAt j s) ∧ t.descs = s.descs ∧ t.sched = s.sched ∧ t.dram = s.dram)
      ∧ (32 < freeSlots sl s → Answers (.yieldTask c f) s fun t =>
        let y := ctxAt k t
        y.st = .saving ∧ y.save = some .resume ∧ y.pc = (x.pc + 4) % 2 ^ 48
        ∧ y.g = x.g ∧ y.v = x.v ∧ y.p = x.p ∧ y.sat = x.sat ∧ y.tlds = x.tlds
        ∧ (descAt d t).slot = some (firstSlot sl s) ∧ freeSlots sl t + 1 = freeSlots sl s
        ∧ (∀ j, j ≠ k → ctxAt j t = ctxAt j s) ∧ t.dram = s.dram))
  ∧ (∀ (c : CtxId) (f : TaskF) (s : State), Issues c 4 s → f.z = 0 → f.nb = false →
      let k := ctxNo c
      let sl := ctxSlice k
      let line := 48 + (gReg f.ra (ctxAt k s)).toNat % 16
      (ctxAt k s).sbuf = [] →
      Answers (.post c f) s fun t =>
        ctxAt k t = (ctxAt k s).retire 4
        ∧ rd (Sched.EV_SEEN sl) t = rd (Sched.EV_SEEN sl) s ||| 2 ^ line
        ∧ t.descs = s.descs ∧ t.dram = s.dram ∧ t.tlm = s.tlm
        ∧ ∀ j < 32, ∀ w, let y := ctxAt (32 * sl + j) s
          y.st = .waiting → y.wait = some w → w.ev = true → w.mask.testBit line = true →
          ctxAt (32 * sl + j) t
            = (({ y with st := .ready, wait := none }).setG w.rd (BitVec.ofNat 64 (2 ^ line))).retire 4)

/-- R136, R137: the CRC instructions on a unit that is free, with no operation before theirs: a
feed takes 1, 2, 4 or 64 bytes, lowest first; crc.get and crc.fin read; crc.put writes the raw
value at the unit's width. No other unit, context or memory changes. On a unit that is held they
stall. -/
def Obligations.CrcInstructionResults : Prop :=
  ∀ (c : CtxId) (f : CrcF) (s : State), Issues c 4 s → f.z = 0 → f.y = 0 →
    let k := ctxNo c
    let x := ctxAt k s
    let u := 4 * ctxSlice k + f.unit.val
    let alg := crcAlg u s
    let frame (t : State) : Prop := (∀ j, j ≠ k → ctxAt j t = ctxAt j s) ∧ t.dram = s.dram
      ∧ t.tlm = s.tlm ∧ t.descs = s.descs ∧ t.sched = s.sched
      ∧ ∀ v < 20, v ≠ u → crcRaw v t = crcRaw v s ∧ rd (Crc.CRC_BYTES v) t = rd (Crc.CRC_BYTES v) s
    (crcHeld u k s = false →
      (f.rd = 0 → f.rb = 0 →
        ∀ p ∈ ([(.crcB, leBytes 1 (gReg f.ra x).toNat), (.crcH, leBytes 2 (gReg f.ra x).toNat),
            (.crcW, leBytes 4 (gReg f.ra x).toNat), (.crcV, leBytes 64 (vReg f.ra x).toNat)] :
            List ((CtxId → CrcF → Instr) × List Byte)),
          Answers (p.1 c f) s fun t =>
            ctxAt k t = x.retire 4
            ∧ crcRaw u t = crcFeed alg (crcRaw u s) p.2 % 2 ^ 64
            ∧ rd (Crc.CRC_BYTES u) t = (rd (Crc.CRC_BYTES u) s + p.2.length) % 2 ^ 32
            ∧ frame t)
      ∧ (f.ra = 0 → f.rb = 0 →
        Retires (.crcGet c f) k 4 s (fun x => x.setG f.rd.val (BitVec.ofNat 64 (crcRaw u s)))
        ∧ Retires (.crcFin c f) k 4 s (fun x =>
            x.setG f.rd.val (BitVec.ofNat 64 (crcFinal alg (crcRaw u s)))))
      ∧ Answers (.crcPut c f) s fun t =>
          ctxAt k t = x.retire 4
          ∧ crcRaw u t = (gReg f.ra x).toNat % 2 ^ crcWidth alg ∧ frame t)
    ∧ (crcHeld u k s = true → ∀ i ∈ (if f.rd = 0 ∧ f.rb = 0 then
          [Instr.crcB c f, .crcH c f, .crcW c f, .crcV c f] else []) ++ [.crcPut c f]
          ++ (if f.ra = 0 ∧ f.rb = 0 then [.crcGet c f, .crcFin c f] else []),
        Answers i s fun t =>
          ctxAt k t = { x with st := .stalled, stall := some (.crcBusy u) } ∧ OnlyCtx k s t)

/-- R73, R74, R138: mfs reads the special registers, mts writes only SAT of sr.status; a privileged
number raises PRIV (4), an absent one ILLEGAL (3), mts to a read-only register PRIV. -/
def Obligations.SpecialRegisters : Prop :=
  ∀ (c : CtxId) (f : SysF) (s : State), Issues c 4 s →
    let k := ctxNo c
    let x := ctxAt k s
    let e := descAt (descOf (ctxSlice k) x.desc) s
    let n := f.num.toNat
    let reads (i v : Nat) : Prop := n = i →
      Retires (.mfs c f) k 4 s fun x => x.setG f.rd.val (BitVec.ofNat 64 v)
    let readOnly : List Nat := [0, 1, 2, 4, 5, 0x10, 0x11, 0x12, 0x13, 0x20, 0x21]
    let refuses (i : Instr) : Prop :=
      (0x100 ≤ n → Answers i s (TaskEnds k 2 4 s))
      ∧ (n < 0x100 → n ≠ 3 → n ∉ readOnly → Answers i s (TaskEnds k 2 3 s))
    (f.ra = 0 →
      reads 0x000 (k % 4 + 4 * ctxCore k + 32 * ctxSlice k + 65536 * x.asid)
      ∧ reads 0x001 (x.desc + 4096 * e.flow + 2 ^ 18 * b2n e.flowValid + 2 ^ 19 * e.wg)
      ∧ reads 0x002 (if e.flowValid then e.seq else 0)
      ∧ reads 0x003 (b2n x.sat + 2 * b2n x.restarted + 4 * b2n x.resumed)
      ∧ reads 0x004 x.vrm ∧ reads 0x005 x.tlmLimit
      ∧ reads 0x010 (match (sliceAt (ctxSlice k) s).cpFrame with
          | some m => m % 2 ^ 64
          | none => 2 ^ 64 - 1)
      ∧ reads 0x011 (srTime s) ∧ reads 0x012 (sliceAt (ctxSlice k) s).cpTn
      ∧ reads 0x013 (sliceAt (ctxSlice k) s).cpFacet
      ∧ reads 0x020 ((s.clk - s.upBase) / 10 % 2 ^ 64) ∧ reads 0x021 x.icount
      ∧ refuses (.mfs c f))
    ∧ (f.rd = 0 →
      (n = 3 → Retires (.mts c f) k 4 s fun x => { x with sat := (gReg f.ra x).getLsbD 0 })
      ∧ (n ∈ readOnly → Answers (.mts c f) s (TaskEnds k 2 4 s))
      ∧ refuses (.mts c f))

/-- R82, R84, R87, R88, R138: the fences, once the stores have drained, which ReleaseComesFirst
says of the releases; a fence of num 0 is ILLEGAL; trap ends a task TRAPPED (3) with its code where
its image is not loaded for debugging, and holds it FAULTED where it is; halt raises PRIV. -/
def Obligations.FencesTrapHalt : Prop :=
  ∀ (c : CtxId) (s : State), Issues c 4 s →
    let k := ctxNo c
    let x := ctxAt k s
    let acquires (i : Instr) : Prop := Answers i s fun t =>
      ctxAt k t = x.retire 4 ∧ (∀ l ∈ dcacheAt (k / 4) t, l.asid ≠ x.asid) ∧ SameWorld s t
    (x.sbuf = [] → Retires (.fenceRel c 0 0) k 4 s id)
    ∧ acquires (.fenceAcq c 0 0)
    ∧ (x.sbuf = [] → acquires (.fence c ⟨0, 0, 3⟩))
    ∧ Answers (.fence c ⟨0, 0, 0⟩) s (TaskEnds k 2 3 s)
    ∧ (∀ num : BitVec 11,
      (debugImage k s = false → Answers (.trap c ⟨0, 0, num⟩) s (TaskEnds k 3 (num.toNat % 256) s))
      ∧ (debugImage k s = true → Answers (.trap c ⟨0, 0, num⟩) s fun t =>
        (ctxAt k t).st = .faulted ∧ (ctxAt k t).pc = x.pc ∧ (ctxAt k t).g = x.g
        ∧ (ctxAt k t).v = x.v ∧ (ctxAt k t).p = x.p))
    ∧ ∀ f : SysF, Answers (.halt c f) s (TaskEnds k 2 4 s)

/-! ### The machine: the queue, what every command does, reset, memory -/

/-- A step takes the command at the front of the queue and runs it with the queue's rest. With no
command waiting one TIME clock passes: real time by 4 ns, the counter by its increment (the model's
choice: DESIGN CHOICE, log entry 4). -/
def Obligations.StepRunsFrontOrIdles : Prop :=
  (∀ (c : Instr) (rest : List Instr) (s : State),
      step { s with pending := c :: rest } = exec c { s with pending := rest })
  ∧ (∀ s : State, s.pending = [] →
      step s = .next { s with clk := s.clk + 40, cnt := s.cnt + incr s })

/-- Every command, in every state, answers a next state: none faults, none is refused. The queue
stands as it stood, real time does not go back, and no record is left on its way. -/
def Obligations.AnswersAlways : Prop :=
  ∀ (i : Instr) (s : State), Answers i s fun t =>
    t.pending = s.pending ∧ s.clk ≤ t.clk ∧ t.rcd.arriving = []

/-- Every step keeps real time on a TIME clock and leaves no record on its way. -/
def Obligations.StepKeepsSteady : Prop :=
  ∀ s t : State, Steady s → step s = .next t → Steady t

/-- The state right after reset is steady. After reset a register reads the value its table gives:
a sample of each block's table. -/
def Obligations.ResetState : Prop :=
  (Steady State.reset ∧ State.reset.pending = [])
  ∧ ((∀ sl < 4, rd (Slc.SLC_ID sl) State.reset = 0x80320500 + sl
      ∧ rd (Slc.SLC_COMMIT_CFG sl) State.reset = 0x400
      ∧ rd (Sched.SCHED_CTRL sl) State.reset = 3
      ∧ rd (Layer.LUSTRE_CTRL sl) State.reset = 0x400
      ∧ (∀ pl < 8, rd (Scan.RASTER_H sl pl) State.reset = 0x10440400)
      ∧ ∀ k < 8, rd (Sched.CORE_CTRL sl k) State.reset = 0)
    ∧ rd Sys.BOOT_STAGE State.reset = 2 ∧ rd Time.FT_STATUS State.reset = 4
    ∧ rd Time.FT_CTRL State.reset = 0 ∧ rd Red.RED_CTRL State.reset = 0x400
    ∧ rd Red.RED_STATUS State.reset = 1
    ∧ (∀ k, (ctxAt k State.reset).st = .free) ∧ ∀ d, (descAt d State.reset).st = .free)

/-- A write to DRAM whose lines hold no poison puts its bytes, in rising order, at its address,
changes no other byte, and keeps the map's canonical form. -/
def Obligations.DramReadsBack : Prop :=
  ∀ (a : Nat) (bs : List Byte) (s : State), poisoned a bs.length s = false →
    let t := writeMem a bs s
    memBytes a bs.length t = bs
    ∧ (∀ x, ¬ (a ≤ x ∧ x < a + bs.length) → memByte x t = memByte x s)
    ∧ (Memory.wf s.dram → Memory.wf t.dram)
    ∧ t.regs = s.regs ∧ t.ctxs = s.ctxs ∧ t.tlm = s.tlm ∧ t.store = s.store

/-! ### Registers, commit and frame timing -/

/-- R7, R8, R9: a 32-bit IMM write to a block whose registers have no action: RW takes the written
bits, W1C clears those written as 1 but for the bits the module has set on that very clock, RO
takes nothing, and no other register changes; an absent offset ignores the write; the host's access
that is not aligned is refused and flagged (R411). R6, R7, R10: the halves of a 64-bit register:
the low half of a write is held, without effect; a read of the low half captures the whole value; a
whole read returns the register and, where it is not RC, changes nothing; an absent offset reads 0. -/
def Obligations.RegisterAccesses : Prop :=
  (∀ (who : Req) (off : BitVec 26) (v : Word) (s : State), Lands who s →
      let a := physOf off.toNat
      let x := v.toNat % 2 ^ 32
      (∀ f, off.toNat % 4 = 0 → findReg a = some f → f.half = 0 → f.row.w64 = false →
        f.row.cls = .imm → f.blk ∈ [BlockId.mc, .dmaB, .layer, .seg] →
        Answers (.registerWrite who off false v) s fun t =>
          (f.row.acc = .rw → rd (f.reg a) t = (rd (f.reg a) s &&& (2 ^ 64 - 1 - f.row.mask)) ||| (x &&& f.row.mask))
          ∧ (f.row.acc = .w1c → rd (f.reg a) t
              = rd (f.reg a) s &&& (2 ^ 64 - 1 - (x &&& f.row.mask)) ||| (rd (f.reg a) s &&& setOnClock (f.reg a) s))
          ∧ (f.row.acc = .ro → rd (f.reg a) t = rd (f.reg a) s)
          ∧ RegsBut [a] s t ∧ SameCue s t)
      ∧ (off.toNat % 4 = 0 → findReg a = none → Answers (.registerWrite who off false v) s fun t =>
          RegsBut [] s t ∧ SameCue s t ∧ t.armed = s.armed ∧ t.heldLow = s.heldLow)
      ∧ (off.toNat % 4 ≠ 0 → Answers (.registerWrite .host off false v) s fun t =>
          (hostAsleep .host s = false → rd Hst.HOST_ERR t = rd Hst.HOST_ERR s ||| 1)
          ∧ RegsBut [Hst.HOST_ERR.addr] s t))
  ∧ (∀ (who : Req) (off : BitVec 26) (v : BitVec 32) (f : Found) (s : State), Lands who s →
      let a := physOf off.toNat
      let out := match who with | .host => 0 | .renro => 1
      let reads (n x : Nat) (t : State) : Prop := kget [] out t.host.readOut = leBytes n x
      (off.toNat % 4 = 0 → findReg a = some f → f.row.w64 = true → f.half = 0 → f.row.acc = .rw →
        f.blk ≠ .crc →
        (Answers (.lowHalfWrite who off v) s fun t =>
          kget none (holdKey who a) t.heldLow = some v.toNat
          ∧ (∀ k, k ≠ holdKey who a → kget none k t.heldLow = kget none k s.heldLow)
          ∧ RegsBut [] s t ∧ SameCue s t ∧ t.armed = s.armed)
        ∧ Answers (.lowHalfRead who off) s fun t =>
          reads 4 (live f a who s % 2 ^ 32) t
          ∧ (a ≠ Time.FT_NEXT_T_SEC.addr → kget none (holdKey who a) t.capture = some (live f a who s))
          ∧ RegsBut [] s t ∧ SameCue s t)
      ∧ (off.toNat % 8 = 0 → findReg a = some f → f.row.w64 = true → f.half = 0 → f.row.acc = .rw →
        f.blk ≠ .crc → Answers (.rcRead who off true true) s fun t =>
          reads 8 (live f a who s) t ∧ RegsBut [] s t ∧ SameCue s t)
      ∧ (off.toNat % 4 = 0 → findReg a = none → Answers (.rcRead who off false true) s fun t =>
          reads 4 0 t ∧ RegsBut [] s t))

/-- R13, R33, R51, R52: a WIN write arms its register, late when the Bezel has begun, and the
register still reads as before; a second one replaces it. A write of LY_COMMIT, or of FT_PD_COMMIT,
sets its bits, once a commit point that is due has passed. -/
def Obligations.WinAndShdWrites : Prop :=
  ∀ (who : Req) (off : BitVec 26) (v : Word) (w : BitVec 32) (s : State), Lands who s →
    let a := physOf off.toNat
    (∀ f, off.toNat % 4 = 0 → findReg a = some f → f.half = 0 → f.row.w64 = false →
      f.row.cls = .win → f.row.acc = .rw → f.blk ≠ .time →
      let k := f.inst.headD 0
      let arms (late : Bool) (t : State) : Prop :=
        armedAt a t = some ⟨BitVec.ofNat 64 (v.toNat % 2 ^ 32 &&& f.row.mask), late⟩
        ∧ ∀ b, b ≠ a → armedAt b t = armedAt b s
      (cpAhead k s = true → s.clk < bezelInstant k s → Answers (.winWrite who off false v) s fun t =>
        arms false t ∧ RegsBut [] s t ∧ SameCue s t)
      ∧ (cpAhead k s = true → bezelInstant k s ≤ s.clk → s.clk < cpInstant k s →
        Answers (.winWrite who off false v) s fun t => arms true t
          ∧ rd (Slc.SLC_LATE_TOTAL k) t = min (rd (Slc.SLC_LATE_TOTAL k) s + 1) 0xFFFFFFFF
          ∧ rd (Slc.SLC_LATE_LAST k) t = (a - winBase k + 2 ^ 31) % 2 ^ 64))
    ∧ (∀ sl : Fin 4, let u := commitIfDue sl.val s
      Answers (.shdCommit ⟨sl.val, by omega⟩ who w) s fun t =>
        rd (Layer.LY_COMMIT sl.val) t = rd (Layer.LY_COMMIT sl.val) u ||| w.toNat % 2 ^ 16
        ∧ RegsBut [(Layer.LY_COMMIT sl.val).addr] u t ∧ SameCue u t)
    ∧ let u := forAll commitIfDue (List.range 4) s
      Answers (.shdCommit 4 who w) s fun t =>
        rd Time.FT_PD_COMMIT t = rd Time.FT_PD_COMMIT u ||| w.toNat % 16
        ∧ RegsBut [Time.FT_PD_COMMIT.addr] u t ∧ SameCue u t

/-- R29 to R31: SLC_CTRL.RUN as written; SLC_COMMIT_CFG is taken only while the slice is held and
drained and its Bezel fits the reference port it names, and otherwise ignored and flagged. R39,
R40: arming a timeline whose RUN is 0 with a period in range enters ARMED with the smallest n whose
T_n lies 100 us ahead; with a period out of range it stays STOPPED and PERIOD_REJ is set; stopping
it enters STOPPED at once and logs the last frame. -/
def Obligations.SliceAndTimelineControl : Prop :=
  (∀ (sl : Fin 4) (who : Req) (v : BitVec 32) (s : State), Lands who s →
      let c := Slc.SLC_COMMIT_CFG sl.val
      let lines := v.toNat / 256 % 256
      let port := 8 * sl.val + v.toNat % 8
      let takes := slcStatus sl.val s = 0 ∧ 1 ≤ lines ∧ lines ≤ 64 ∧ lines ≤ rAct (rasterV port s)
      Answers (.slcRunSet sl who) s (fun t => bit (Slc.SLC_CTRL sl.val) 0 t = true
        ∧ RegsBut [(Slc.SLC_CTRL sl.val).addr] s t ∧ SameCue s t)
      ∧ Answers (.slcRunClear sl who) s (fun t => bit (Slc.SLC_CTRL sl.val) 0 t = false
        ∧ RegsBut [(Slc.SLC_CTRL sl.val).addr] s t ∧ SameCue s t)
      ∧ (takes → Answers (.slcCommitCfgWrite sl who v) s fun t =>
          rd c t = v.toNat % 8 + 256 * lines ∧ RegsBut [c.addr] s t)
      ∧ (¬ takes → Answers (.slcCommitCfgWrite sl who v) s fun t =>
          rd c t = rd c s ∧ rd (Slc.SLC_ERR sl.val) t = rd (Slc.SLC_ERR sl.val) s ||| 1))
  ∧ (∀ (who : Req) (s : State), Lands who s →
      (bit Time.FT_CTRL 0 s = false → periodOk s = true →
        Answers (.timelineArm who) s fun t =>
          ftState t = 1 ∧ bit Time.FT_CTRL 0 t = true ∧ t.tl.last = none
          ∧ t.tl.next = firstFrom 0 (soon s) s ∧ SameCue s t)
      ∧ (bit Time.FT_CTRL 0 s = false → periodOk s = false →
        Answers (.timelineArm who) s fun t =>
          ftState t = ftState s ∧ rd Time.FT_ERR t = rd Time.FT_ERR s ||| 2 ∧ t.tl = s.tl)
      ∧ (bit Time.FT_CTRL 0 s = true → ftState s ≠ 0 → Answers (.timelineStop who) s fun t =>
          ftState t = 0 ∧ bit Time.FT_CTRL 0 t = false
          ∧ (∀ n, s.tl.last = some n → Logs 0x0308 (p8 n) s t) ∧ SameCue s t))

/-- R41, R48, R75: at S_n a slice's raster begins; at CP_n its commit point passes: from then on
sr.frame reads n + 1, and the next one feeds the frame after. R66: the events of a port's raster
set their INT_STATUS bits, once each; FRAME_DONE marks the frame as sent. -/
def Obligations.FrameEvents : Prop :=
  (∀ (sl : Fin 4) (bad : List (BitVec 22)) (ce : BitVec 16) (s : State), shed s = false →
      let k := sl.val
      (ftState s ≠ 0 → Answers (.frameStart sl bad ce) s fun t =>
        (sliceAt k t).frame = some (frameNext k s) ∧ (sliceAt k t).cpDone = false
        ∧ (sliceAt k t).startAt = startOf (frameNext k s) s
        ∧ t.tl.last = some (frameNext k s) ∧ startOf (frameNext k s) s ≤ t.clk)
      ∧ ∀ n, (sliceAt k s).frame = some n → (sliceAt k s).cpDone = false →
        Answers (.commitPoint sl) s fun t =>
          (sliceAt k t).cpDone = true ∧ (sliceAt k t).cpFrame = some (n + 1)
          ∧ cpInstant k s ≤ t.clk)
  ∧ (∀ (p : Fin 32) (s : State),
      let i := Scan.INT_STATUS (p.val / 8) (p.val % 8)
      (rastering p.val s = true → (portAt p.val s).vblankDone = false →
        Answers (.vblankStart p) s fun t =>
          rd i t = rd i s ||| 1 ∧ (portAt p.val t).vblankDone = true ∧ t.dram = s.dram)
      ∧ (rastering p.val s = true → (portAt p.val s).matchDone = false →
        matchLine p.val s < vTotal (rasNow p.val s).2.1 → Answers (.lineMatch p) s fun t =>
          rd i t = rd i s ||| 2 ∧ (portAt p.val t).matchDone = true ∧ t.dram = s.dram)
      ∧ ∀ x, shed s = false → (portAt p.val s).tx = some x → x.done = false →
        Answers (.frameDone p) s fun t =>
          rd i t = rd i s ||| 4 ∧ (portAt p.val t).tx = some { x with done := true }
          ∧ x.endAt ≤ t.clk)

/-- R57, R127, R128, R215, R216, R221: the first tst on a slice's path writes, of each active lane
inside its segment, the segment's 3 or 4 channels to the back bank of the segment's port, and
nothing else; lanes beyond the segment are clipped and counted; for an unusable segment it is
counted and dropped. The first tcommit on the path that no earlier tst of its context or flow
precedes places its mark for each of its ports, and for no other. What is commanded once the next
start is due waits for it. R20, R21, R217, R218: Renro's write of 4 or 8 bytes to a back bank
replaces them, and makes an uncorrectable word good, its other bytes 0; a write to a front bank is
ignored and flagged, one to a reserved offset is ignored. A read returns the bytes as stored,
counts a single-bit error it corrects, and reads 0 at a reserved offset. -/
def Obligations.FrameStore : Prop :=
  (∀ (sl : Fin 4) (pre rest : List PathEntry) (o c : Nat) (buf : Bool) (s : State), shed s = false →
      let k := sl.val
      let same (t : State) : Prop := t.ctxs = s.ctxs ∧ t.descs = s.descs ∧ t.dram = s.dram ∧ t.tlm = s.tlm
      (startDue k s = false →
        (∀ w : TstWrite, (schedAt k s).path = pre ++ ⟨o, c, buf, .tst w⟩ :: rest →
          (∀ x ∈ pre, isTst x = false) →
          let g := segmentOf k w.seg s
          let p := 8 * k + g.port
          let b := backBank p s
          let pos (i ch : Nat) : Nat := (g.start + w.off + i) * (portW p s / 8) + 2 * ch
          let writes (i ch : Nat) : Prop := i < 32 ∧ w.lanes.testBit i = true ∧ w.off + i < g.length
            ∧ ch < (if g.c4 then 4 else 3)
          let clips := (List.range 32).any fun i => w.lanes.testBit i && decide (g.length ≤ w.off + i)
          let e := Layer.INT_STATUS k
          Answers (.tstWriteArrive sl) s fun t =>
            (schedAt k t).path = pre ++ rest ∧ t.marks = s.marks ∧ same t
            ∧ (segUsable k g s = false → t.store = s.store ∧ rd e t = rd e s ||| 0x10000
              ∧ rd (Layer.TST_INVALID_COUNT k) t = min (rd (Layer.TST_INVALID_COUNT k) s + 1) 0xFFFFFFFF)
            ∧ (segUsable k g s = true →
              (∀ i ch, writes i ch → storeHalf p b (pos i ch) t = halfLane (w.ch.getD ch 0) i)
              ∧ (∀ a, (∀ i ch, writes i ch → a ≠ bankWord p b + pos i ch / 8) →
                  storeWord a t = storeWord a s ∧ storeIsBad a t = storeIsBad a s)
              ∧ (∀ h, h % 2 = 0 → storeIsBad (bankWord p b + h / 8) s = false →
                  (∀ i ch, writes i ch → h ≠ pos i ch) → storeHalf p b h t = storeHalf p b h s)
              ∧ rd (Layer.TST_CLIP_COUNT k) t = (if clips then
                  min (rd (Layer.TST_CLIP_COUNT k) s + 1) 0xFFFFFFFF else rd (Layer.TST_CLIP_COUNT k) s)
              ∧ rd e t = (if clips then rd e s ||| 0x10000 else rd e s)))
        ∧ ∀ ports n, (schedAt k s).path = pre ++ ⟨o, c, buf, .commit ports n⟩ :: rest →
          (∀ x ∈ pre, x.owner ≠ o ∧ x.ctx ≠ c) →
          (∀ a x z, pre = a ++ x :: z → isTst x = false → ∃ y ∈ a, y.owner = x.owner ∨ y.ctx = x.ctx) →
          Answers (.completionMarkWrite sl) s fun t =>
            (schedAt k t).path = pre ++ rest ∧ t.store = s.store ∧ same t
            ∧ (∀ pl < 8, ports.testBit pl = true → markOf (8 * k + pl) t = some n)
            ∧ ∀ q, (∀ pl < 8, ports.testBit pl = true → q ≠ 8 * k + pl) → markOf q t = markOf q s)
      ∧ (startDue k s = true → ∀ i ∈ [Instr.tstWriteArrive sl, .completionMarkWrite sl],
          Answers i s fun t => t.sched = s.sched ∧ t.store = s.store ∧ t.marks = s.marks ∧ same t))
  ∧ (∀ (sl : Fin 4) (off : BitVec 25) (wide : Bool) (v : Word) (ce : Bool) (s : State),
      let o := off.toNat
      let n := if wide then 8 else 4
      let a := sl.val * 0x400000 + o / 8
      let p := 8 * sl.val + o % 0xC00000 / 0x180000
      let e := Layer.LAYER_ERR sl.val
      let old := if storeIsBad a s then 0 else storeWord a s
      let new := if wide then v.toNat
        else if o % 8 < 4 then old / 2 ^ 32 * 2 ^ 32 + v.toNat % 2 ^ 32
        else v.toNat % 2 ^ 32 * 2 ^ 32 + old % 2 ^ 32
      (o < 0x1800000 → o / 0xC00000 ≠ frontBank p s →
        Answers (.storeMgmtWrite sl off wide (.write v)) s fun t =>
          storeWord a t = new ∧ storeIsBad a t = false ∧ RegsBut [] s t ∧ t.marks = s.marks
          ∧ ∀ b, b ≠ a → storeWord b t = storeWord b s ∧ storeIsBad b t = storeIsBad b s)
      ∧ (o < 0x1800000 → o / 0xC00000 = frontBank p s →
        Answers (.storeMgmtWrite sl off wide (.write v)) s fun t =>
          t.store = s.store ∧ rd e t = rd e s ||| 0x10000 ∧ RegsBut [e.addr] s t)
      ∧ (0x1800000 ≤ o → Answers (.storeMgmtWrite sl off wide (.write v)) s fun t =>
          t.store = s.store ∧ RegsBut [] s t)
      ∧ Answers (.storeMgmtWrite sl off wide (.read ce)) s fun t =>
          let c := Layer.STORE_CE_COUNT sl.val
          t.store = s.store ∧ t.storeBad = s.storeBad ∧ RegsBut [c.addr] s t
          ∧ kget [] 1 t.host.readOut = (if o < 0x1800000 then
              leBytes n (storeWord a s / 256 ^ (o / n * n % 8)) else List.replicate n 0)
          ∧ rd c t = (if o < 0x1800000 ∧ ce = true ∧ storeIsBad a s = false then
              min (rd c s + 1) 0xFFFFFFFF else rd c s))

/-! ### Contexts and the scheduler -/

/-- R76, R77, R110, R133, R134, R137: a load all of whose missing lanes have been asked for
returns: a scalar one's register takes the bytes, extended, a vector one's lanes take theirs and
the others stay, and it completes; a stall whose cause has cleared makes the context READY at the
same instruction, one on a busy check-value unit when the unit is free and no other operation waits
for it; a wait whose deadline comes completes with 0, at that instant. R82, R85, R88, R89: a task
that trap holds goes on after the trap when the debugger resumes it, and acquires; MCHECK ends the
task on any context that has one, FAULTED with cause 1; in firmware-owned state it begins the fatal
sequence. -/
def Obligations.ContextEvents : Prop :=
  (∀ (c : CtxId) (s : State), coresOn s = true →
      let k := ctxNo c
      let x := ctxAt k s
      (∀ m, x.miss = some m → m.queued = [] → x.sbuf = [] →
        (∀ l ∈ m.lanes, sound l.2.2 m.size s = true) →
        let frame (t : State) : Prop := t.dram = s.dram ∧ t.tlm = s.tlm ∧ t.descs = s.descs
          ∧ ∀ j, j ≠ k → { ctxAt j t with miss := none } = { ctxAt j s with miss := none }
        (∀ va a, m.vec = false → m.lanes = [(0, va, a)] → Answers (.loadMissReturn c .clean) s fun t =>
          ctxAt k t = (({ x with st := .ready, stall := none, miss := none }).setG m.rd
            (extend m.signed (memBytes a m.size s))).retire m.len ∧ frame t)
        ∧ (m.vec = true → m.lanes ≠ [] → (m.lanes.map Prod.fst).Nodup →
          Answers (.loadMissReturn c .clean) s fun t =>
            let w : Bool := m.size = 4
            ctxAt k t = ({ x.setV m.rd (vecOf w fun n => match m.lanes.find? (fun (l : Nat × Nat × Nat) => l.1 == n) with
                | some l => memNat l.2.2 m.size s
                | none => lane (laneW w) (x.getV m.rd) n) with
                  st := .ready, stall := none, miss := none, vrm := 0 }).retire m.len ∧ frame t))
      ∧ (∀ w, x.st = .stalled → x.stall = some w →
        ((∀ u, w ≠ .crcBusy u) → stallCleared k w s = true → Answers (.contextStallClear c) s fun t =>
          ctxAt k t = { x with st := .ready, stall := none } ∧ OnlyCtx k s t)
        ∧ ∀ u, w = .crcBusy u → (∀ j, j ≠ k → crcPlace u j s = none) →
          Answers (.contextStallClear c) s fun t =>
            ctxAt k t = { x with st := .ready, stall := none } ∧ crcIsBusy u t = false
            ∧ (∀ j, j ≠ k → ctxAt j t = ctxAt j s) ∧ t.dram = s.dram ∧ RegsBut [] s t)
      ∧ ∀ w d, x.st = .waiting → x.wait = some w → w.deadline = some d → d < 2 ^ 63 →
        nowNs s < 2 ^ 63 → Answers (.waitDeadline c) s fun t =>
          ctxAt k t = (({ x with st := .ready, wait := none }).setG w.rd 0).retire 4
          ∧ nsUnits d ≤ t.cnt ∧ (∀ j, j ≠ k → ctxAt j t = ctxAt j s) ∧ t.dram = s.dram ∧ RegsBut [] s t)
  ∧ (∀ (c : CtxId) (s : State), coresOn s = true →
      let k := ctxNo c
      let x := ctxAt k s
      let d := descOf (ctxSlice k) x.desc
      (∀ f, x.st = .faulted → x.fault = some f → f.cause = 9 → (descAt d s).ctx = some k → x.desc < 4096 →
        Answers (.debuggerResume c.slice (BitVec.ofNat 12 x.desc)) s fun t =>
          ctxAt k t = ({ x with st := .ready, stall := none, fault := none }).retire 4
          ∧ (∀ l ∈ dcacheAt (k / 4) t, l.asid ≠ x.asid) ∧ SameWorld s t
          ∧ (∀ j, j ≠ k → ctxAt j t = ctxAt j s) ∧ t.tlm = s.tlm)
      ∧ ∀ what, x.st ≠ .free →
        Answers (.mcheck c what false) s (TaskEnds k 2 1 s)
        ∧ Answers (.mcheck c what true) s fun t => frozen t = true)

/-- R92, R93, R155: a pre-emption request that reaches a context with no atomic outstanding starts
the save: of a RESTART task without a slot, of any other as RESUME in the lowest free slot; with an
atomic outstanding the context only stops; with no slot free a RESUME save is put off and counted.
A drain that waited starts its save when a slot is free. R93, R94, R95, R153: a save that completes
writes the slot, frees its context, and its task is SAVED and requeued, a faulted one
fault-pending; a restore that completes gives back what the slot holds: v, g and p registers, the
pc and the TLM, with sr.status.RESUMED set, its wait and its tile requests with it; the slot is
given back. -/
def Obligations.SavesAndRestores : Prop :=
  (∀ (c : CtxId) (s : State), coresOn s = true →
      let k := ctxNo c
      let sl := ctxSlice k
      let x := ctxAt k s
      let d := descOf sl x.desc
      let saves (i : Instr) (kind : SaveKind) (slot : Option Nat) : Prop := Answers i s fun t =>
        (ctxAt k t).st = .saving ∧ (ctxAt k t).save = some kind ∧ (descAt d t).slot = slot
        ∧ (ctxAt k t).g = x.g ∧ (ctxAt k t).v = x.v ∧ (ctxAt k t).p = x.p ∧ (ctxAt k t).pc = x.pc
        ∧ (∀ j, j ≠ k → ctxAt j t = ctxAt j s) ∧ t.dram = s.dram
      isHeld x.st = true →
      (∀ why, x.preempt = some why →
        (taskRestarts k s = true → x.atomic = none →
          saves (.preemptionRequest c) .restart (descAt d s).slot)
        ∧ (taskRestarts k s = false → 0 < freeSlots sl s →
          (x.atomic = none → saves (.preemptionRequest c) .resume (some (firstSlot sl s)))
          ∧ (x.atomic.isSome → Answers (.preemptionRequest c) s fun t =>
            ctxAt k t = { x with save := some .resume } ∧ OnlyCtx k s t))
        ∧ (taskRestarts k s = false → freeSlots sl s = 0 → Answers (.preemptionRequest c) s fun t =>
          ctxAt k t = { x with preempt := none, slotWait := true }
          ∧ fld (Sched.SAVE_STATUS sl) 31 16 t = min (fld (Sched.SAVE_STATUS sl) 31 16 s + 1) 0xFFFF
          ∧ t.descs = s.descs ∧ t.dram = s.dram))
      ∧ (x.slotWait = true → mustDrain (k / 4) s = true → x.atomic = none → taskRestarts k s = false →
        0 < freeSlots sl s → saves (.drainSaveResume c) .resume (some (firstSlot sl s)))
      ∧ (x.slotWait = true → mustDrain (k / 4) s = false → Answers (.drainSaveResume c) s fun t =>
        ctxAt k t = { x with slotWait := false } ∧ OnlyCtx k s t))
  ∧ (∀ (c : CtxId) (s : State), coresOn s = true →
      let k := ctxNo c
      let sl := ctxSlice k
      let x := ctxAt k s
      let d := descOf sl x.desc
      let e := descAt d s
      (∀ kind, x.st = .saving → x.save = some kind → x.killed = false →
        Answers (.saveComplete c) s fun t =>
          ctxAt k t = {} ∧ (descAt d t).ctx = none
          ∧ (∀ i, e.slot = some i → x.sbuf = [] → sound (slotAddr sl i s) (slotBytes k s).length s = true →
            memBytes (slotAddr sl i s) (slotBytes k s).length t = slotBytes k s)
          ∧ (if kind = .faulted then
              (descAt d t).st = .faultPending ∧ (schedAt sl t).requeues = (schedAt sl s).requeues
            else (descAt d t).st = .saved
              ∧ (schedAt sl t).requeues = (schedAt sl s).requeues ++ [(k % 32, d)])
          ∧ (kind = .restart → (descAt d t).restart = true))
      ∧ ∀ i, x.st = .loading → e.slot = some i → waitOver e.savedWait s = false → x.tlmLimit ≤ 65536 →
        let a := slotAddr sl i s
        sound a 0x960 s = true → sound (a + 0x1000) x.tlmLimit s = true →
        Answers (.restoreComplete c .clean) s fun t =>
          let y := ctxAt k t
          (e.savedWait = none → y.st = .ready)
          ∧ (∀ w, e.savedWait = some w → y.st = .waiting ∧ y.wait = some w)
          ∧ y.tlds = e.savedTlds.map (fun r => { r with ctx := k })
          ∧ (∀ r < 32, y.getV r = BitVec.ofNat 512 (memNat (a + 64 * r) 64 s))
          ∧ (∀ r, 1 ≤ r → r < 32 → y.getG r = BitVec.ofNat 64 (memNat (a + 0x800 + 8 * (r - 1)) 8 s))
          ∧ (∀ r, 1 ≤ r → r < 8 → y.getP r = BitVec.ofNat 32 (memNat (a + 0x8F8 + 4 * (r - 1)) 4 s))
          ∧ y.pc = memNat (a + 0x918) 8 s % 2 ^ 48 / 4 * 4 ∧ y.resumed = true
          ∧ y.sat = (memNat (a + 0x914) 4 s).testBit 0 ∧ y.vrm = memNat (a + 0x924) 4 s
          ∧ tlmBytes k 0 x.tlmLimit t = memBytes (a + 0x1000) x.tlmLimit s
          ∧ (descAt d t).slot = none ∧ t.dram = s.dram)

/-- R131, R132, R140, R143, R145, R168: the first steps of a cycle of a slice for which one thing
waits. A descriptor whose task has ended is freed, its generation raised. A submission that fits
takes the first free descriptor, and a handle goes to SUBMIT_RESULT or to g[rd] of the instruction,
which completes; one that does not fit gives its status, but a blocking one that is BUSY stays. A
cancel answers 2 for a stale handle and 0 for a task never dispatched. A kill answers in
KILL_RESULT, and a task on a context of a held slice ends KILLED. -/
def Obligations.CycleTakesArrivals : Prop :=
  ∀ (sl : Fin 4) (s : State), coresOn s = true →
    let k := sl.val
    let q := schedAt k s
    q.requeues = [] → q.expired = [] → s.red.toMake = [] →
    (∀ e < 32, fld (Sched.ETS_STATUS k e) 7 0 s = 0) →
    (∀ d, q.endings = [d] → q.cancels = [] → q.kill = none → q.subs = [] → sliceRun k s = false →
      descSlice d = k → (descAt d s).flowValid = false → (descAt d s).notify = false →
      Answers (.schedulerCycle sl) s fun t =>
        descAt d t = { gen := ((descAt d s).gen + 1) % 2 ^ 32 } ∧ (schedAt k t).endings = []
        ∧ ∀ j, j ≠ d → descAt j t = descAt j s)
    ∧ (q.endings = [] → q.cancels = [] → q.kill = none → ∀ u, q.subs = [u] → u.flowValid = false →
      let d := descOf k (firstFree k s)
      let handle := firstFree k s + 4096 * takenGen d s
      (u.src = .host →
        (subCheck k u s = none → isLater (subDue k u s) s = false → sliceRun k s = false →
          Answers (.schedulerCycle sl) s fun t =>
            (descAt d t).st = .ready ∧ (descAt d t).entry = u.entry ∧ (descAt d t).args = u.args
            ∧ (descAt d t).wg = u.wg ∧ (descAt d t).tag = u.tag
            ∧ queueOf k u.wg t = queueOf k u.wg s ++ [d] ∧ (schedAt k t).subs = []
            ∧ rd (Sched.SUBMIT_RESULT k) t = handle % 2 ^ 64)
        ∧ ∀ r, subCheck k u s = some r → Answers (.schedulerCycle sl) s fun t =>
          rd (Sched.SUBMIT_RESULT k) t = r % 2 ^ 64 ∧ (schedAt k t).subs = [])
      ∧ ∀ j r nb enq, ctxSlice j = k → u.src = .ctx j r 4 nb enq → (ctxAt j s).st = .stalled →
        let answers (v : Nat) : Prop := Answers (.schedulerCycle sl) s fun t =>
          (ctxAt j t).st = .ready ∧ (ctxAt j t).pc = ((ctxAt j s).pc + 4) % 2 ^ 48
          ∧ (ctxAt j t).g = ((ctxAt j s).setG r (BitVec.ofNat 64 v)).g ∧ (schedAt k t).subs = []
        (subCheck k u s = none → answers handle)
        ∧ (∀ v, subCheck k u s = some v → v ≠ stBusy ∨ nb = true → answers v)
        ∧ (subCheck k u s = some stBusy → nb = false → Answers (.schedulerCycle sl) s fun t =>
          (ctxAt j t).st = .stalled ∧ (ctxAt j t).stall = some .submitBusy
          ∧ (ctxAt j t).pc = (ctxAt j s).pc ∧ (schedAt k t).subs = [u]))
    ∧ (q.endings = [] → q.subs = [] → q.kill = none → ∀ j r h, q.cancels = [(j, r, h)] → ctxSlice j = k →
      (ctxAt j s).st = .stalled →
      let answers (v : Word) : Prop := Answers (.schedulerCycle sl) s fun t =>
        (ctxAt j t).st = .ready ∧ (ctxAt j t).pc = ((ctxAt j s).pc + 4) % 2 ^ 48
        ∧ (ctxAt j t).g = ((ctxAt j s).setG r v).g ∧ (schedAt k t).cancels = []
      (byHandle k h s = none → answers 2)
      ∧ (∀ d, byHandle k h s = some d → cancellable d s = true → answers 0)
      ∧ ∀ d, byHandle k h s = some d → cancellable d s = false → hasEnded d s = false → answers 1)
    ∧ (q.endings = [] → q.subs = [] → q.cancels = [] → ∀ h, q.kill = some h →
      let result (v : Nat) (t : State) : Prop :=
        rd (Sched.KILL_RESULT k) t = v + 2 ^ 31 ∧ (schedAt k t).kill = none
      (byHandle k h s = none → Answers (.schedulerCycle sl) s (result 2))
      ∧ (∀ d, byHandle k h s = some d → cancellable d s = true → Answers (.schedulerCycle sl) s (result 0))
      ∧ ∀ d j, byHandle k h s = some d → cancellable d s = false → hasEnded d s = false →
        (descAt d s).ctx = some j → ctxSlice j = k → (ctxAt j s).desc = descIdx d →
        (ctxAt j s).st ≠ .saving → (ctxAt j s).atomic = none → sliceRun k s = false →
        Answers (.schedulerCycle sl) s fun t =>
          result 1 t ∧ (ctxAt j t).st = .free ∧ (descAt d t).endStatus = 4)

/-- R96, R147, R150 to R152: a cycle of a running slice whose only READY task stands in group 0
dispatches it: to the lowest free context of the core with most free contexts, with the state of a
fresh dispatch. -/
def Obligations.CycleDispatches : Prop :=
  ∀ (sl : Fin 4) (d k : Nat) (s : State), coresOn s = true → sliceRun sl.val s = true →
    let n := sl.val
    let q := schedAt n s
    q.endings = [] → q.requeues = [] → q.expired = [] → q.cancels = [] → q.kill = none → q.subs = [] →
    s.red.toMake = [] → (∀ e < 32, fld (Sched.ETS_STATUS n e) 7 0 s = 0) →
    (∀ j < 32, ctxAt (32 * n + j) s = {}) → (∀ i < 8, coreEnabled (8 * n + i) s = true) →
    descSlice d = n → (descAt d s).wg = 0 → (descAt d s).slot = none → queueOf n 0 s = [d] →
    bit (Sched.WG_CFG n 0) 8 s = true → k = 32 * n →
    Answers (.schedulerCycle sl) s fun t =>
      let x := ctxAt k t
      (descAt d t).st = .running ∧ (descAt d t).ctx = some k ∧ queueOf n 0 t = []
      ∧ x.st = .ready ∧ x.pc = (taskEntry d s).pc % 2 ^ 48 / 4 * 4 ∧ x.desc = descIdx d
      ∧ x.restarted = (descAt d s).restart ∧ x.icount = (descAt d s).icount
      ∧ x.asid = fld (Sched.IMG_CFG n (descAt d s).image) 15 0 s
      ∧ x.getG 2 = BitVec.ofNat 64 (tlmBase + (taskEntry d s).stack)
      ∧ rd (Sched.DISPATCH_COUNT n) t = min (rd (Sched.DISPATCH_COUNT n) s + 1) 0xFFFFFFFF
      ∧ x.tlmLimit = (taskEntry d s).tlmLimit
      ∧ (∀ j < 4, x.getG (4 + j) = (descAt d s).args.getD j 0)
      ∧ x.getG 8 = BitVec.ofNat 64 (descIdx d)

/-- R140, R158, R162, R165: RELEASE_DRAIN_DONE frees the descriptor of a flow's releasing head and
moves RELEASE_NEXT on; at the grid point the entries due at or before it leave the delay list, in
order, for the next cycle to make READY; a rising edge of a line is seen in EV_SEEN, but line 47 is
never raised. R143, R161, R168, R169: the registers that command the scheduler: a submission joins
the queue and SUBMIT_RESULT shows BUSY until a cycle takes it; a kill waits for a cycle; a flow
that is empty is reset, another is refused; CORE_CTRL holds what is written and CORE_STATE is
logged. -/
def Obligations.SchedulerCommands : Prop :=
  (∀ (sl : Fin 4) (s : State), coresOn s = true →
      let k := sl.val
      (∀ (f : Fin 64) (d : Nat), flowHead k f.val s = some d → descSlice d = k →
        (descAt d s).st = .releasing → flowDraining k f.val s = false → (descAt d s).notify = false →
        (schedAt k s).skips = [] →
        flowTask k f.val ((releaseNext k f.val s + 1) % 2 ^ 32) (freeDescriptor d s) = none →
        Answers (.releaseDrainDone sl f) s fun t =>
          descAt d t = { gen := ((descAt d s).gen + 1) % 2 ^ 32 }
          ∧ releaseNext k f.val t = (releaseNext k f.val s + 1) % 2 ^ 32)
      ∧ (∀ due d rest, (schedAt k s).delay = (due, d) :: rest →
        let x := max s.cnt (nsUnits due)
        let p := gridPoint k x s
        let us := max 1 (fld (Sched.TICK_CFG k) 9 0 s)
        (bit (Sched.TICK_CFG k) 16 s = false → x ≤ p ∧ p < x + nsUnits (us * 1000) ∧ p % nsUnits (us * 1000) = 0)
        ∧ Answers (.tickGridPoint sl) s fun t =>
          p ≤ t.cnt ∧ t.descs = s.descs
          ∧ (schedAt k t).delay = (schedAt k s).delay.filter (fun y => decide (p < nsUnits y.1))
          ∧ (schedAt k t).expired = (schedAt k s).expired
            ++ ((schedAt k s).delay.filter fun y => decide (nsUnits y.1 ≤ p)).map Prod.snd)
      ∧ ∀ (line : Fin 64), Answers (.eventLineEdge sl line) s fun t =>
        rd (Sched.EV_SEEN k) t = (if line = 47 then rd (Sched.EV_SEEN k) s
          else rd (Sched.EV_SEEN k) s ||| 2 ^ line.val) ∧ t.dram = s.dram ∧ t.descs = s.descs)
  ∧ (∀ (sl : Fin 4) (who : Req) (s : State), Lands who s →
      let k := sl.val
      Answers (.submit sl who) s (fun t =>
        (∃ u, u.src = .host ∧ (schedAt k t).subs = (schedAt k s).subs ++ [u]
          ∧ u.ctrl = rd (Sched.SUBMIT_DESC k 0) s % 2 ^ 32
          ∧ u.start = rd (Sched.SUBMIT_DESC k 2) s % 2 ^ 32 + 2 ^ 32 * (rd (Sched.SUBMIT_DESC k 3) s % 2 ^ 32))
        ∧ rd (Sched.SUBMIT_RESULT k) t = 2 ^ 63 ∧ t.descs = s.descs)
      ∧ (∀ h : Word, Answers (.killHandle sl who h) s fun t =>
        (schedAt k t).kill = some h.toNat ∧ rd (Sched.KILL_RESULT k) t = 0 ∧ t.descs = s.descs)
      ∧ (∀ f : Fin 64,
        (rd (Sched.FLOW_RELEASE_NEXT k f.val) s = rd (Sched.FLOW_NEXT_SEQ k f.val) s →
          Answers (.flowReset sl f who) s fun t =>
            rd (Sched.FLOW_RELEASE_NEXT k f.val) t = 0 ∧ rd (Sched.FLOW_NEXT_SEQ k f.val) t = 0)
        ∧ (rd (Sched.FLOW_RELEASE_NEXT k f.val) s ≠ rd (Sched.FLOW_NEXT_SEQ k f.val) s →
          Answers (.flowReset sl f who) s fun t =>
            rd (Sched.SCHED_ERR k) t = rd (Sched.SCHED_ERR k) s ||| 4
            ∧ RegsBut [(Sched.SCHED_ERR k).addr] s t))
      ∧ ∀ (i : Fin 8) (en force : Bool), Answers (.coreCtrlWrite sl i who en force) s fun t =>
        coreEnabled (8 * k + i.val) t = en ∧ bit (Sched.CORE_CTRL k i.val) 1 t = force
        ∧ t.ctxs = s.ctxs ∧ (coreEnabled (8 * k + i.val) s ≠ en →
          Logs 0x0409 (p1 i.val ++ p1 (if en then 0 else 1)) s t))

/-! ### Layers, translation, fault queues, DMA -/

/-- R208, R210, R213: FETCH_REQUEST_TAKEN moves the oldest request of a fetcher to those in flight,
with the layer values in force, and with four in flight takes none; delivering a tile of a disabled
or rejected layer gives 2,048 zero bytes at its destination, counts it, and releases the interlock;
a withdrawn one writes and counts nothing. R198, R211: with a request waiting, the read-ahead is
dropped; while BP_FETCH stands it is stopped and counted; FRAME_RETIRED shows the frame before the
newest commit point whose requests have all been delivered. -/
def Obligations.LayerFetch : Prop :=
  (∀ (sl : Fin 4) (l : Fin 16) (s : State), shed s = false →
      let f := 16 * sl.val + l.val
      let q := fetcherAt f s
      (∀ r rest, q.queue = r :: rest →
        (q.taken.length < 4 → Answers (.fetchRequestTaken sl l) s fun t =>
          (fetcherAt f t).queue = rest
          ∧ (∃ x, (fetcherAt f t).taken = q.taken ++ [x] ∧ x.req = r ∧ x.epoch = q.epoch
            ∧ x.base = rd (Layer.LY_ACT_BASE sl.val l.val) s
            ∧ x.stride = rd (Layer.LY_ACT_STRIDE sl.val l.val) s
            ∧ x.fmt = rd (Layer.LY_ACT_FMT sl.val l.val) s
            ∧ x.ctrl = rd (Layer.LY_ACT_CTRL sl.val l.val) s ∧ x.bad = q.bad ∧ x.withdrawn = false)
          ∧ SameCue s t)
        ∧ (4 ≤ q.taken.length → Answers (.fetchRequestTaken sl l) s fun t => fetcherAt f t = q ∧ SameCue s t))
      ∧ ∀ x rest, q.taken = x :: rest → (x.ctrl.testBit 0 = false ∨ x.bad = true) → q.ahead = [] →
        (x.withdrawn = false → Answers (.tileDelivery sl l .clean) s fun t =>
          (fetcherAt f t).taken = rest ∧ tlmBytes x.req.ctx x.req.dst 2048 t = List.replicate 2048 0
          ∧ (ctxAt x.req.ctx t).tlds = (ctxAt x.req.ctx s).tlds.erase x.req
          ∧ rd (Layer.LY_TILES sl.val l.val) t = min (rd (Layer.LY_TILES sl.val l.val) s + 1) 0xFFFFFFFF
          ∧ t.dram = s.dram)
        ∧ (x.withdrawn = true → Answers (.tileDelivery sl l .clean) s fun t =>
          (fetcherAt f t).taken = rest ∧ SameCue s t ∧ RegsBut [] s t))
  ∧ (∀ (sl : Fin 4) (l : Fin 16) (s : State), shed s = false →
      let k := sl.val
      let f := 16 * k + l.val
      let q := fetcherAt f s
      (∀ g, q.nextAhead = some g → q.queue ≠ [] → Answers (.readahead sl l) s fun t =>
        fetcherAt f t = { q with nextAhead := none } ∧ SameCue s t ∧ RegsBut [] s t)
      ∧ (∀ g, q.nextAhead = some g → q.queue = [] → bpFetch k s = true → Answers (.readahead sl l) s fun t =>
        fetcherAt f t = { q with nextAhead := none }
        ∧ rd (Layer.READAHEAD_STOPS k) t = min (rd (Layer.READAHEAD_STOPS k) s + 1) 0xFFFFFFFF
        ∧ SameCue s t)
      ∧ ∀ m i rest, (sliceAt k s).cpTimes = (m, i) :: rest →
        (∀ j < 16, (fetcherAt (16 * k + j) s).taken = []) → rd (Mc.FRAME_RETIRED k) s ≠ m - 1 →
        0 < m → m < 2 ^ 64 →
        Answers (.frameRetired sl) s fun t =>
          rd (Mc.FRAME_RETIRED k) t = m - 1 ∧ (rd (Mmu.INT_STATUS k) t).testBit 1 = true ∧ SameCue s t)

/-- R177 to R179: a walk reads the ASID table and four levels, each indexed by 9 bits of the
address; a 4 KiB leaf gives the physical page and the permissions; an entry without V is
NOT_MAPPED. -/
def Obligations.WalkTranslates : Prop :=
  ∀ (t asid va w0 w1 w2 w3 w4 : Nat) (s : State), va < 2 ^ 48 →
    let a0 := rd (Mmu.ASID_TABLE_BASE t) s / 4096 % 2 ^ 28 * 4096 + asid * 8
    let page (w : Nat) := w / 4096 % 2 ^ 28 * 4096
    let holds (a w : Nat) : Prop := isDram a 8 = true ∧ poisoned a 8 s = false ∧ memNat a 8 s = w
    let table (w : Nat) : Prop := w % 4096 = 3 ∧ w < 2 ^ 40
    holds a0 w0 → w0 % 4096 = 1 → w0 < 2 ^ 40 →
    (holds (page w0 + va / 2 ^ 39 % 512 * 8) 0 → walk t asid va s = .fault kNotMapped)
    ∧ (holds (page w0 + va / 2 ^ 39 % 512 * 8) w1 → table w1 →
      holds (page w1 + va / 2 ^ 30 % 512 * 8) w2 → table w2 →
      holds (page w2 + va / 2 ^ 21 % 512 * 8) w3 → table w3 →
      holds (page w3 + va / 2 ^ 12 % 512 * 8) w4 → w4 < 2 ^ 40 →
      (w4 % 2 = 0 → walk t asid va s = .fault kNotMapped)
      ∧ ∀ r x g : Bool, w4 % 4096 = 1 + 4 * b2n r + 16 * b2n x + 64 * b2n g →
        ∃ e, walk t asid va s = .leaf e (page w4 + va % 4096)
          ∧ e.asid = asid ∧ e.va = va / 4096 * 4096 ∧ e.size = 4096 ∧ e.pa = page w4
          ∧ e.r = r ∧ e.w = false ∧ e.x = x ∧ e.glob = g)

/-- R181: each form of TLBI_CTRL that keeps the rules starts an invalidation with the TYPE, SPAN,
ASID and TLBI_VA of that moment, and one that breaks them sets TLBI_REJ and nothing else; the end
comes when every access translated before has completed: it drops the entries the invalidation
names from every TLB of its block, and no other, and GO reads 0, or 1 where Renro has the next
invalidation to issue; the host's writes are ignored. R174, R176: the scrubber, while it is on,
reads the next line: a corrected error is counted with its address, an uncorrectable one poisons
the line; after the last line the pass is counted; while it is off it reads nothing. -/
def Obligations.InvalidationsAndScrubs : Prop :=
  (∀ (t : Fin 5) (span : Fin 32) (asid : BitVec 16) (s : State),
      let r := Mmu.TLBI_CTRL t.val
      let va := rd (Mmu.TLBI_VA t.val) s
      (∀ q ∈ ([(.tlbiAll, 0), (.tlbiAsid, 1), (.tlbiAsidSpan, 2), (.tlbiSpan, 3)] :
            List ((Fin 5 → Req → Fin 32 → BitVec 16 → Instr) × Nat)),
        let legal : Prop := span.val ≤ 18 ∧ bit r 2 s = false
          ∧ (2 ≤ q.2 → va % (2 ^ span.val * 4096) = 0)
        (legal → Answers (q.1 t .renro span asid) s fun u =>
          rd r u = q.2 + 4 + 16 * span.val + 65536 * asid.toNat ∧ RegsBut [r.addr] s u ∧ u.tlb = s.tlb
          ∧ tlbiOf t.val u = ⟨q.2, span.val, asid.toNat, va, s.clk⟩)
        ∧ (¬ legal → Answers (q.1 t .renro span asid) s fun u =>
          rd (Mmu.MMU_ERR t.val) u = rd (Mmu.MMU_ERR t.val) s ||| 4
          ∧ RegsBut [(Mmu.MMU_ERR t.val).addr] s u ∧ u.tlb = s.tlb)
        ∧ Answers (q.1 t .host span asid) s fun u => RegsBut [] s u ∧ u.tlb = s.tlb)
      ∧ (bit r 2 s = true →
        let q := tlbiOf t.val s
        (tlbiWaits t.val s = false → Answers (.tlbiComplete t) s fun u =>
          bit r 2 u = (s.host.tlbiDue.any fun p => p.1 == t.val)
          ∧ (∀ k ∈ blockTlbs t.val, tlbAt k u = (tlbAt k s).filter fun e =>
            !tlbiMatches q.type q.asid q.va (spanBytes q.span) e)
          ∧ ∀ k, k ∉ blockTlbs t.val → tlbAt k u = tlbAt k s)
        ∧ (tlbiWaits t.val s = true → Answers (.tlbiComplete t) s fun u =>
          bit r 2 u = true ∧ u.tlb = s.tlb)))
  ∧ (∀ (t : Fin 4) (s : State),
      (bit (Mc.MC_SCRUB_CFG t.val) 0 s = false → ∀ e, Answers (.scrubLineRead t e) s fun u =>
        u.scrubAt = s.scrubAt ∧ u.poison = s.poison ∧ RegsBut [] s u ∧ SameCue s u)
      ∧ (bit (Mc.MC_SCRUB_CFG t.val) 0 s = true →
        let l := kget 0 t.val s.scrubAt
        let a := t.val * 0x200000000 + 64 * l
        l < scrubLines → sound a 64 s = true →
        (∀ e, Answers (.scrubLineRead t e) s fun u =>
          kget 0 t.val u.scrubAt = (l + 1) % scrubLines ∧ u.dram = s.dram)
        ∧ Answers (.scrubLineRead t .corrected) s (fun u =>
          rd (Mc.MC_CE_COUNT t.val) u = min (rd (Mc.MC_CE_COUNT t.val) s + 1) 0xFFFFFFFF
          ∧ rd (Mc.MC_LAST_ADDR t.val) u = a ∧ linePoisoned (a / 64) u = false)
        ∧ Answers (.scrubLineRead t .uncorrectable) s (fun u =>
          rd (Mc.MC_UE_COUNT t.val) u = min (rd (Mc.MC_UE_COUNT t.val) s + 1) 0xFFFFFFFF
          ∧ rd (Mc.MC_LAST_ADDR t.val) u = a ∧ linePoisoned (a / 64) u = true)
        ∧ (l + 1 = scrubLines → Answers (.scrubLineRead t .clean) s fun u =>
          rd (Mc.MC_SCRUB_PASSES t.val) u = min (rd (Mc.MC_SCRUB_PASSES t.val) s + 1) 0xFFFFFFFF)))

/-- R186 to R189, R194: a held record is posted when there is space and takes the next token, and
stays held when there is none; Renro's pop removes the head, the host's is ignored; RESUME of a
context makes it READY again, TERMINATE ends its task FAULTED; RESUME of a channel lets it run, or
stops it where it was to stop, TERMINATE is an error; an answer to no outstanding token sets
BAD_TOKEN; one that does not come within FAULT_HOLD is TERMINATE. -/
def Obligations.FaultsAreAnswered : Prop :=
  ∀ (b : Fin 5) (s : State),
    let q := fqAt b.val s
    (∀ r src rest, q.held = (r, src) :: rest →
      (q.recs.length < 256 → Answers (.faultRecordPost b) s fun t =>
        (fqAt b.val t).recs = q.recs ++ [{ r with token := q.nextToken }]
        ∧ (fqAt b.val t).held = rest ∧ (fqAt b.val t).nextToken = (q.nextToken + 1) % 65536)
      ∧ (256 ≤ q.recs.length → Answers (.faultRecordPost b) s fun t => fqAt b.val t = q))
    ∧ Answers (.fqPop b .renro) s (fun t => fqAt b.val t = { q with recs := q.recs.drop 1 } ∧ SameCue s t)
    ∧ Answers (.fqPop b .host) s (fun t => t.fq = s.fq ∧ SameCue s t)
    ∧ (∀ token : BitVec 16, openFault b.val token.toNat s = none →
      ∀ form ∈ [Instr.faultRespResume b .renro token, .faultRespTerminate b .renro token],
        Answers form s fun t => rd (Mmu.MMU_ERR b.val) t = rd (Mmu.MMU_ERR b.val) s ||| 2
          ∧ RegsBut [(Mmu.MMU_ERR b.val).addr] s t ∧ SameCue s t)
    ∧ (∀ (token : BitVec 16) (c : Nat), openFault b.val token.toNat s = some (.chan c) → c < 72 →
      chState c s = chFaulted →
      (bit (Dma.CH_STATUS c) 3 s = true → Answers (.faultRespResume b .renro token) s fun t =>
        chState c t = chStopped ∧ openFault b.val token.toNat t = none ∧ t.dram = s.dram)
      ∧ (bit (Dma.CH_STATUS c) 3 s = false → (chanAt c s).wantProd = false → (chanAt c s).desc.isSome →
        Answers (.faultRespResume b .renro token) s fun t =>
          chState c t = chRunning ∧ chanAt c t = chanAt c s ∧ openFault b.val token.toNat t = none
          ∧ t.dram = s.dram)
      ∧ Answers (.faultRespTerminate b .renro token) s fun t =>
        chState c t = chError ∧ fld (Dma.CH_STATUS c) 15 8 t = 1)
    ∧ ∀ (token : BitVec 16) (d gen k : Nat) (f : CtxFault),
      openFault b.val token.toNat s = some (.ctx d gen) → (descAt d s).gen = gen →
      beingKilled d s = false →
      (descAt d s).ctx = some k → (ctxAt k s).st = .faulted → (ctxAt k s).fault = some f →
      f.token = some token.toNat → d = descOf (ctxSlice k) (ctxAt k s).desc →
      Answers (.faultRespResume b .renro token) s (fun t =>
        ctxAt k t = { ctxAt k s with st := .ready, stall := none, fault := none }
        ∧ openFault b.val token.toNat t = none ∧ t.dram = s.dram)
      ∧ Answers (.faultRespTerminate b .renro token) s (fun t =>
        TaskEnds k 2 f.cause s t ∧ openFault b.val token.toNat t = none)
      ∧ ((q.open_.head?.map OpenFault.token = some token.toNat) → Answers (.faultTimeout b) s fun t =>
        TaskEnds k 2 f.cause s t ∧ ∀ i ∈ holdEnds b.val s, i ≤ t.clk)

/-- R192, R194: a doorbell of an enabled channel that is IDLE, RUNNING or STOPPED reads its
producer word: with a descriptor in progress it is RUNNING with the new producer; with none, equal
to RING_HEAD it is IDLE, else it is RUNNING with the descriptor at RING_HEAD read, or ERROR where
that keeps not the rules of R191; a trigger edge does the same for a channel that is not STOPPED; a
doorbell of any other channel does nothing. R190, R195: the engine serves the channel whose turn it
is: a FILL writes its pattern, a COPY the source's bytes, a host read what the host's memory holds,
at the destination; a host write gives the host the source's bytes; BYTES_DONE counts them. -/
def Obligations.DmaTransfers : Prop :=
  (∀ (k : Fin 72) (who : Req) (s : State), Lands who s →
      let c := k.val
      let st := chState c s
      let pa := rd (Dma.PROD_ADDR c) s
      let head := rd (Dma.RING_HEAD c) s
      let p := memNat pa 4 s % ringSize c s
      let va := descVa c head s
      let d := parseDesc (memBytes va 64 s)
      let ways := fun (P : State → Prop) => Answers (.doorbell k who) s P
        ∧ ∀ h : c < 64, (chanAt c s).edge = true → st ≠ chStopped →
          Answers (.dmaTrigger ⟨c, h⟩) s fun t => P t ∧ (chanAt c t).edge = false
      (chEnabled c s = true → st = chIdle ∨ st = chRunning ∨ st = chStopped → Bypass c s →
        isDram pa 1 = true → sound pa 4 s = true →
        (∀ x, (chanAt c s).desc = some x → ways fun t =>
          chState c t = chRunning ∧ (chanAt c t).desc = some x ∧ (chanAt c t).prod = p
          ∧ (chanAt c t).wantProd = false ∧ t.dram = s.dram)
        ∧ ((chanAt c s).desc = none →
          (head = p → bit (Dma.CH_CTRL c) 1 s = false → ways fun t => chState c t = chIdle ∧ t.dram = s.dram)
          ∧ (head ≠ p → isDram va 1 = true → sound va 64 s = true →
            (d.good (isHostCh c) = true → ways fun t =>
              chState c t = chRunning ∧ (chanAt c t).desc = some d
              ∧ (chanAt c t).prod = p ∧ rd (Dma.BYTES_DONE c) t = 0 ∧ t.dram = s.dram)
            ∧ (d.good (isHostCh c) = false → ways fun t =>
              chState c t = chError ∧ fld (Dma.CH_STATUS c) 15 8 t = 4))))
      ∧ (chEnabled c s = false ∨ st = chFaulted ∨ st = chError → Answers (.doorbell k who) s fun t =>
        chanAt c t = chanAt c s ∧ RegsBut [] s t ∧ t.dram = s.dram))
  ∧ (∀ (e : Fin 5) (k : Nat) (d : DmaDesc) (s : State), shed s = false → frozen s = false →
      nextBurst e.val s = some k → (chanAt k s).desc = some d → Bypass k s →
      let done := rd (Dma.BYTES_DONE k) s
      let b := burstOf d done
      done + b.n < 2 ^ 64 →
      let moves (bs : List Byte) : Prop := isDram b.dst 1 = true → sound b.dst b.n s = true →
        Answers (.dmaBurst e .clean) s fun t =>
          memBytes b.dst b.n t = bs ∧ rd (Dma.BYTES_DONE k) t = done + b.n
          ∧ (∀ a, ¬ (b.dst ≤ a ∧ a < b.dst + b.n) → memByte a t = memByte a s) ∧ t.ctxs = s.ctxs
      (d.op = 2 → moves ((List.range b.n).map fun i => BitVec.ofNat 8 (d.fill / 256 ^ ((done + i) % 8))))
      ∧ (d.op = 3 → moves (hostBytes b.src b.n s))
      ∧ (isDram b.src 1 = true → sound b.src b.n s = true →
        (d.op ≤ 1 → moves (memBytes b.src b.n s))
        ∧ (d.op = 4 → Answers (.dmaBurst e .clean) s fun t =>
          hostBytes b.dst b.n t = memBytes b.src b.n s ∧ rd (Dma.BYTES_DONE k) t = done + b.n
          ∧ t.dram = s.dram ∧ t.ctxs = s.ctxs)))

/-- R193, R194, R196: the end of a descriptor writes STATUS where asked for, then moves RING_HEAD
on and counts it, then raises the interrupt and the event it asks for, and a channel with nothing
more is IDLE, one that is to stop STOPPED; STOP, its completion, ENABLE and a host read that times
out change the state as R194 says. -/
def Obligations.ChannelStates : Prop :=
  ∀ (k : Fin 72) (who : Req) (s : State), Lands who s →
    let c := k.val
    let st := chState c s
    let stops (t : State) : Prop := chState c t = chStopped ∧ bit (Dma.CH_CTRL c) 1 t = false
      ∧ fld (Dma.CH_STATUS c) 15 8 t = 6
    (∀ d, (chanAt c s).desc = some d → st = chRunning → d.total ≤ rd (Dma.BYTES_DONE c) s →
      (chanAt c s).wantProd = false → Bypass c s →
      let sva := descVa c (ringHead c s) s + 0x38
      (d.ctrl.testBit 5 = true → isDram sva 1 = true ∧ sound sva 8 s = true) →
      Answers (.dmaDescComplete k) s (fun t =>
        ringHead c t = (ringHead c s + 1) % ringSize c s
        ∧ rd (Dma.DESC_COUNT c) t = min (rd (Dma.DESC_COUNT c) s + 1) 0xFFFFFFFF
        ∧ (d.ctrl.testBit 4 = true → (rd (Dma.INT_STATUS c) t).testBit 0 = true)
        ∧ (d.ctrl.testBit 3 = true → (rd (DmaB.DMA_EV_STATUS (chBlock c)) t).testBit (chBit c) = true))
      ∧ (chStopping c s = true → Answers (.dmaDescComplete k) s fun t => stops t
        ∧ (d.ctrl.testBit 5 = true → memBytes sva 8 t = p4 0 ++ p4 (rd (Dma.BYTES_DONE c) s)))
      ∧ (d.ctrl.testBit 5 = false → chStopping c s = false →
        (ringHead c s + 1) % ringSize c s = (chanAt c s).prod →
        let pa := rd (Dma.PROD_ADDR c) s
        isDram pa 1 = true → sound pa 4 s = true → memNat pa 4 s % ringSize c s = (chanAt c s).prod →
        Answers (.dmaDescComplete k) s fun t => chState c t = chIdle ∧ t.dram = s.dram))
    ∧ (st = chIdle → Answers (.dmaStop k who) s fun t => stops t ∧ t.dram = s.dram)
    ∧ (st = chRunning ∨ st = chFaulted → Answers (.dmaStop k who) s fun t =>
      chState c t = st ∧ bit (Dma.CH_CTRL c) 1 t = true ∧ t.dram = s.dram)
    ∧ (st = chRunning → chStopping c s = true → Answers (.dmaStopComplete k) s fun t =>
      stops t ∧ t.dram = s.dram)
    ∧ (∀ v, Answers (.dmaEnableWrite k who v) s fun t =>
      chEnabled c t = v ∧ t.dram = s.dram
      ∧ (v = false → st = chStopped ∨ st = chError → chState c t = chIdle ∧ (chanAt c t).desc = none)
      ∧ (v = false → st = chFaulted → chState c t = chFaulted ∧ bit (Dma.CH_STATUS c) 3 t = true)
      ∧ (v = true ∨ st = chIdle ∨ st = chRunning → chState c t = st ∧ chanAt c t = chanAt c s))
    ∧ ∀ h : Fin 8, ∀ d, (chanAt (64 + h.val) s).desc = some d → chState (64 + h.val) s = chRunning →
      d.op = 3 → rd (Dma.BYTES_DONE (64 + h.val)) s < d.total →
      Answers (.hostCompletionTimeout h) s fun t =>
        chState (64 + h.val) t = chError ∧ fld (Dma.CH_STATUS (64 + h.val)) 15 8 t = 3
        ∧ (d.ctrl.testBit 5 = false → t.dram = s.dram)

/-! ### Trunk ports and time -/

/-- R234, R235, R26, R232, R254: the link states: enabling an idle link starts training; the sets
that complete training end it after the 64 TP2 sets, in the applied mode, and others are counted;
training that fails is retried after 100 ms; code errors are counted, and 4 within 64 symbols, like
the loss of the recovered clock, put a trained link back to training; without that clock receive
status holds; disabling makes the link idle and every latency invalid. R249, R251, R253, R254, R258
to R260: a good telemetry packet stands in the port's table and its node is seen, a bad one is
counted; a node unheard of for 16 frame periods is no longer seen; a copy is written at TEL_BASE;
an echo gives its node's latency, or moves it a quarter of the way where it lies within the
tolerance, one without a probe is an error, and one that does not come is counted; a pushed command
joins its queue, and a full queue is an error. -/
def Obligations.TrunkPorts : Prop :=
  (∀ (p : Fin 32) (who : Req) (s : State), Lands who s → shed s = false →
      let k := p.val
      let sl := k / 8
      let pl := k % 8
      (bit (trkCtrl k) 0 s = false → linkState k s = 0 → Answers (.trunkEnable p who) s fun t =>
        linkState k t = 1 ∧ bit (trkCtrl k) 0 t = true ∧ (trunkAt k t).goodSets = 0 ∧ SameCue s t)
      ∧ Answers (.trunkDisable p who) s (fun t => linkState k t = 0 ∧ bit (trkCtrl k) 0 t = false
        ∧ (∀ n < 64, latValid (nodeLat k n t) = false) ∧ (portAt k t).tx = none ∧ SameCue s t)
      ∧ (∀ sets, linkState k s = 1 →
        (((trunkAt k s).hears sets).trained = true → s.clk + tp2Time ≤ (trunkAt k s).trainAt + tenMs →
          Answers (.linkUp ⟨p, sets⟩) s fun t =>
            linkState k t = linkOfMode (appliedMode k s) ∧ rxClock k t = true ∧ s.clk + tp2Time ≤ t.clk
            ∧ rd (Trunk.TRAIN_COUNT sl pl) t = min (rd (Trunk.TRAIN_COUNT sl pl) s + 1) 0xFFFFFFFF
            ∧ SameCue s t)
        ∧ (((trunkAt k s).hears sets).trained = false → Answers (.linkUp ⟨p, sets⟩) s fun t =>
          linkState k t = 1 ∧ trunkAt k t = (trunkAt k s).hears sets ∧ SameCue s t))
      ∧ (linkState k s = 1 → Answers (.trainFail p) s fun t =>
        linkState k t = 0 ∧ rd (trkErr k) t = rd (trkErr k) s ||| 1
        ∧ (trunkAt k t).retryAt = some (t.clk + 10 * tenMs) ∧ (trunkAt k s).trainAt + tenMs ≤ t.clk)
      ∧ (∀ i, (trunkAt k s).retryAt = some i → bit (trkCtrl k) 0 s = true → linkState k s = 0 →
        Answers (.trainRetry p) s fun t => linkState k t = 1 ∧ i ≤ t.clk)
      ∧ (∀ disp groups, (rxClock k s = true → Answers (.linkDown p ⟨disp, groups⟩) s fun t =>
          let es := codeErrors disp 0 groups
          let drops : Bool := linkTrained k s && fourClose es
          rd (Trunk.RX_CODE_ERRS sl pl) t = min (rd (Trunk.RX_CODE_ERRS sl pl) s + es.length) 0xFFFFFFFF
          ∧ linkState k t = (if drops then 1 else linkState k s)
          ∧ (drops = true → rd (Trunk.LINK_DOWN_COUNT sl pl) t
            = min (rd (Trunk.LINK_DOWN_COUNT sl pl) s + 1) 0xFFFFFFFF ∧ (portAt k t).tx = none))
        ∧ (rxClock k s = false → Answers (.linkDown p ⟨disp, groups⟩) s fun t =>
          linkState k t = linkState k s ∧ RegsBut [] s t))
      ∧ (rxClock k s = true → Answers (.rxClkLoss p) s fun t =>
        linkState k t = (if linkTrained k s = true then 1 else linkState k s) ∧ rxClock k t = false
        ∧ bit (trkStatus k) 4 t = bit (trkStatus k) 4 s)
      ∧ Answers (.rxClkReturn p) s fun t => rxClock k t = true ∧ linkState k t = linkState k s)
  ∧ (∀ (p : Fin 32) (s : State), shed s = false →
      let k := p.val
      let sl := k / 8
      let pl := k % 8
      (∀ bytes : List Byte, linkTrained k s = true → rxClock k s = true → bytes.length = 64 →
        bytes.head? = some 0x10 →
        (leNat (bytes.drop 60) ≠ crc32c (bytes.take 60) → Answers (.telemetryPacket p bytes) s fun t =>
          t.trunk = s.trunk
          ∧ rd (Trunk.TEL_CRC_ERRS sl pl) t = min (rd (Trunk.TEL_CRC_ERRS sl pl) s + 1) 0xFFFFFFFF)
        ∧ ∀ n < 64, leNat (bytes.drop 60) = crc32c (bytes.take 60) → bytes[1]? = some (BitVec.ofNat 8 n) →
          Answers (.telemetryPacket p bytes) s fun t =>
            (telOf k n t).bytes = bytes ∧ (telOf k n t).fresh = true ∧ nodeSeen k n t = true)
      ∧ (∀ n : Fin 64, nodeSeen k n.val s = true → rxClock k s = true →
        Answers (.nodeSeenExpiry p n) s fun t =>
          nodeSeen k n.val t = false ∧ (telOf k n.val s).at_ + sixteenPeriods s < t.clk)
      ∧ (Answers (.telemetryCopyDone ⟨sl % 4, Nat.mod_lt _ (by decide)⟩) s fun t =>
        (trunkAt k t).copy = none
        ∧ ∀ bytes, (trunkAt k s).copy = some bytes →
          (∀ j < 8, 8 * sl + j ≠ k → (trunkAt (8 * sl + j) s).copy = none) →
          let base := rd (Trunk.TEL_BASE sl pl) s
          Bypass (0x80 + k) s → isDram base bytes.length = true → sound base bytes.length s = true →
            memBytes base bytes.length t = bytes)
      ∧ (∀ (rtt : BitVec 20), rxClock k s = true →
        ((trunkAt k s).probe = none → Answers (.echoArrival p rtt) s fun t =>
          rd (trkErr k) t = rd (trkErr k) s ||| 16 ∧ t.trunk = s.trunk)
        ∧ ∀ b x, (trunkAt k s).probe = some b →
          2 * rtt.toNat ≤ echoLimit → latencyOf k b.node rtt.toNat s = some x → b.node < 64 →
          let old := nodeLat k b.node s
          let e := latTicks old
          let d : Int := (x : Int) - e
          (latValid old = false → Answers (.echoArrival p rtt) s fun t =>
            (trunkAt k t).probe = none ∧ nodeLat k b.node t = x % 2 ^ 24 + 2 ^ 31)
          ∧ (latValid old = true → d.natAbs ≤ fld (Trunk.PROBE_CFG sl pl) 7 0 s →
            Answers (.echoArrival p rtt) s fun t =>
              (trunkAt k t).probe = none ∧ (nodeLat k b.node t : Int) = e + Int.tdiv d 4 + 2 ^ 31))
      ∧ (∀ b, (trunkAt k s).probe = some b → Answers (.probeLost p) s fun t =>
        (trunkAt k t).probe = none ∧ b.leftAt + echoLimit ≤ t.clk
        ∧ rd (Trunk.PROBES_LOST sl pl) t = min (rd (Trunk.PROBES_LOST sl pl) s + 1) 0xFFFFFFFF)
      ∧ ∀ who, Lands who s →
        ((trunkAt k s).cmds.length < 16 → Answers (.cmdPush p who) s fun t =>
          (trunkAt k t).cmds.length = (trunkAt k s).cmds.length + 1 ∧ SameCue s t)
        ∧ (16 ≤ (trunkAt k s).cmds.length → Answers (.cmdPush p who) s fun t =>
          t.trunk = s.trunk ∧ rd (trkErr k) t = rd (trkErr k) s ||| 4))

/-- R268, R274, R276, R278: a snapshot, the two steps of the counter and their rejections, a servo
sample that steps it or slews the rate within its limit, or is not taken, HOLDOVER after SERVO_TMO,
and the reselection of the master after announceReceiptTimeout. -/
def Obligations.TimeAndServo : Prop :=
  ∀ (who : Req) (s : State), Lands who s →
    Answers (.timeSnap who) s (fun t =>
      rd Time.SNAP_SEC t = nowSec s % 2 ^ 48 ∧ rd Time.SNAP_NS t = nowNsec s
      ∧ rd Time.SNAP_SUB t = nowSub s + 65536 * stepSeq s ∧ t.cnt = s.cnt)
    ∧ (let d := sgn 64 (rd Time.STEP_OFF s) * 2 ^ 32
      (0 ≤ (s.cnt : Int) + d → Answers (.stepCmdStep who) s fun t =>
        (t.cnt : Int) = s.cnt + d ∧ stepSeq t = (stepSeq s + 1) % 16
        ∧ rd Time.STEP_COUNT t = min (rd Time.STEP_COUNT s + 1) 0xFFFFFFFF ∧ t.clk = s.clk)
      ∧ ((s.cnt : Int) + d < 0 → Answers (.stepCmdStep who) s fun t =>
        t.cnt = s.cnt ∧ rd Time.TIME_ERR t = rd Time.TIME_ERR s ||| 2))
    ∧ (rd Time.SET_NS s < 1000000000 → Answers (.stepCmdSet who) s fun t =>
      t.cnt = (rd Time.SET_SEC s % 2 ^ 48 * 1000000000 + rd Time.SET_NS s) * 2 ^ 32
      ∧ timeValid t = true ∧ t.clk = s.clk)
    ∧ (1000000000 ≤ rd Time.SET_NS s → Answers (.stepCmdSet who) s fun t =>
      t.cnt = s.cnt ∧ rd Time.TIME_ERR t = rd Time.TIME_ERR s ||| 2)
    ∧ (∀ v : Word,
      let o := v.toInt
      let lim : Int := rd Time.RATE_LIMIT s * 2 ^ 32
      let i := clampI (-lim) lim (s.time.integ - (rd Time.SERVO_KI s : Nat) * o)
      let r := clampI (-lim) lim (i - (rd Time.SERVO_KP s : Nat) * o)
      let counted (t : State) : Prop :=
        rd Time.SAMPLE_COUNT t = min (rd Time.SAMPLE_COUNT s + 1) 0xFFFFFFFF
      let large : Prop := bit Time.TIME_CTRL 3 s = true ∧ rd Time.STEP_THRESH s * 65536 ≤ o.natAbs
      (servoEn s = true → servoSrc s = 1 → steppedNow s = false →
        (timeValid s = true → ¬ large → Answers (.servoSample who v) s fun t =>
          t.time.integ = i ∧ rd Time.RATE_ACT t = rateReg r ∧ rd Time.RATE_HOLD t = rateReg i
          ∧ counted t ∧ t.cnt = s.cnt)
        ∧ (timeValid s = false ∨ large → 0 ≤ (s.cnt : Int) - o * 65536 →
          Answers (.servoSample who v) s fun t =>
            (t.cnt : Int) = s.cnt - o * 65536 ∧ timeValid t = true ∧ counted t))
      ∧ (servoEn s = false ∨ servoSrc s ≠ 1 ∨ steppedNow s = true →
        Answers (.servoSample who v) s fun t => t.time = s.time ∧ t.cnt = s.cnt ∧ RegsBut [] s t))
    ∧ (servoState s = 2 ∨ servoState s = 3 → Answers .holdoverEnter s fun t =>
      servoState t = 4 ∧ rd Time.RATE_ACT t = rateReg s.time.integ
      ∧ s.time.sampleAt + 10 * (rd Time.SERVO_TMO s * 1000000) ≤ t.clk)
    ∧ ∀ slave gm tr, Answers (.announceReceiptTimeout slave gm tr) s fun t =>
      t.time.slave = slave.map Fin.val ∧ t.time.gm = gm.toNat ∧ bit Time.TIME_CTRL 4 t = tr
      ∧ (∀ a ∈ s.time.ptp.annAt, a + s.upd.cur.ptp.announce * ptpLog s.time.ptp.annLog ≤ t.clk)
      ∧ (s.time.gm ≠ gm.toNat → Logs 0x020E (p8 s.time.gm ++ p8 gm.toNat) s t)

/-- R272, R280, R282 to R285: a trigger that is enabled arms its first instant, one that breaks a
rule is refused; firing counts and arms the next, to the last of COUNT; queues give up their head;
an LTC frame joins its FIFO, or is lost, and frames that stay away end the lock; an edge of
FRAME_IN is stamped, or is a glitch, and its absence seen. -/
def Obligations.TriggersAndInputs : Prop :=
  ∀ (who : Req) (s : State), Lands who s →
    (∀ (j : Fin 8) (v : BitVec 32), bit (Time.TRIG_CTRL j.val) 0 s = false →
      (trigBad j.val ((v.toNat ||| 1) &&& 0xFFFF3FF7) s = true → Answers (.triggerEnable j who v) s fun t =>
        trigEnabled j.val t = false ∧ rd Time.TIME_ERR t = rd Time.TIME_ERR s ||| 4)
      ∧ (trigBad j.val ((v.toNat ||| 1) &&& 0xFFFF3FF7) s = false →
        let first := nsUnits (trigStart j.val s)
        let lim := s.cnt + nsUnits 100
        let per := nsUnits (trigPeriod j.val s)
        (v.getLsbD 1 = true → Answers (.triggerEnable j who v) s fun t =>
          (trigAt j.val t).next = [] ∧ trigEnabled j.val t = true ∧ bit (Time.TRIG_STATUS j.val) 0 t = true)
        ∧ (v.getLsbD 1 = false →
          (per ≠ 0 → Answers (.triggerEnable j who v) s fun t =>
            (trigAt j.val t).next = [first + ceilDiv (lim - first) per * per] ∧ trigEnabled j.val t = true
            ∧ bit (Time.TRIG_STATUS j.val) 0 t = true ∧ rd (Time.TRIG_FIRED j.val) t = 0)
          ∧ (per = 0 → lim ≤ first → Answers (.triggerEnable j who v) s fun t =>
            (trigAt j.val t).next = [first] ∧ trigEnabled j.val t = true)
          ∧ (per = 0 → first < lim → Answers (.triggerEnable j who v) s fun t =>
            (trigAt j.val t).next = [] ∧ trigEnabled j.val t = false
            ∧ bit (Time.TRIG_STATUS j.val) 1 t = true))))
    ∧ (∀ (j : Fin 8) i rest, (trigAt j.val s).next = i :: rest → trigEnabled j.val s = true →
      let n := fld (Time.TRIG_CTRL j.val) 31 16 s
      let fired := min (rd (Time.TRIG_FIRED j.val) s + 1) 0xFFFFFFFF
      let last : Prop := n ≠ 0 ∧ n ≤ fired
      Answers (.triggerFire j) s fun t =>
        i ≤ t.cnt ∧ rd (Time.TRIG_FIRED j.val) t = fired
        ∧ (last → (trigAt j.val t).next = [] ∧ trigEnabled j.val t = false)
        ∧ (¬ last → trigEnabled j.val t = true
          ∧ (trigMode j.val s = 0 → (trigAt j.val t).next
            = if trigPeriod j.val s = 0 then [] else [i + nsUnits (trigPeriod j.val s)])
          ∧ (trigMode j.val s ≠ 0 → (trigAt j.val t).next = rest)))
    ∧ (∀ (p : Fin 4) e rest, tsqOf p.val s = e :: rest → rest.length < 16 →
      Answers (.tsqPop p who) s fun t =>
        tsqOf p.val t = rest ∧ rd (Time.TSQ_STATUS p.val) t = rest.length)
    ∧ (∀ (tc ub : BitVec 32) (df cf rev : Bool) (rate : Fin 5) (back : BitVec 24),
      let forced := fld Time.LTC_CTRL 3 1 s
      let taken : Prop := bit Time.LTC_CTRL 0 s = true ∧ (forced = 0 ∨ forced = rate.val + 1)
      (taken → s.time.ltc.length < 16 → Answers (.ltcFrame tc ub df cf rev rate back) s fun t =>
        ∃ e, t.time.ltc = s.time.ltc ++ [e]
          ∧ e.bytes = p4 tc.toNat ++ p4 ub.toNat ++ p4 (b2n df + 2 * b2n rev + 4 * b2n cf + 8)
          ∧ (s.time.steps = [] → (e.sec * 1000000000 + e.ns : Nat) = (s.cnt - nsUnits back.toNat) / 2 ^ 32
            % (2 ^ 48 * 1000000000))
          ∧ fld Time.LTC_STATUS 3 1 t = rate.val + 1)
      ∧ (taken → 16 ≤ s.time.ltc.length → Answers (.ltcFrame tc ub df cf rev rate back) s fun t =>
        t.time.ltc = s.time.ltc ∧ rd Time.LTC_LOST t = min (rd Time.LTC_LOST s + 1) 0xFFFFFFFF)
      ∧ (¬ taken → Answers (.ltcFrame tc ub df cf rev rate back) s fun t =>
        t.time.ltc = s.time.ltc ∧ RegsBut [] s t))
    ∧ (s.time.ltcRun ≠ 0 ∨ bit Time.TIME_STATUS 5 s = true → Answers .ltcLost s fun t =>
      bit Time.TIME_STATUS 5 t = false ∧ t.time.ltcRun = 0
      ∧ s.time.ltcAt + threeFrames (fld Time.LTC_STATUS 3 1 s) ≤ t.clk)
    ∧ Answers (.ltcPop who) s (fun t => t.time.ltc = s.time.ltc.drop 1)
    ∧ (∀ f, bit Time.FI_CFG 0 s = true → bit Time.FI_CFG 1 s = f →
      let gap := 10 * (fld Time.FI_CFG 31 16 s * 1000)
      let early : Prop := ∃ x ∈ s.time.fiAt, s.clk < x + gap
      (early → Answers (.frameInEdge f) s fun t =>
        t.time = s.time ∧ rd Time.FI_GLITCHES t = min (rd Time.FI_GLITCHES s + 1) 0xFFFFFFFF)
      ∧ (¬ early → servoSrc s ≠ 2 → Answers (.frameInEdge f) s fun t =>
        t.time.fiAt = some s.clk ∧ rd Time.FI_LAST_NS t = nowNsec s
        ∧ bit Time.TIME_STATUS 6 t = true ∧ t.cnt = s.cnt))
    ∧ ∀ i, s.time.fiAt = some i → bit Time.TIME_STATUS 6 s = true → Answers .frameInLost s fun t =>
      bit Time.TIME_STATUS 6 t = false
      ∧ i + 20 * rd Time.FI_PERIOD_NUM s / max 1 (rd Time.FI_PERIOD_DEN s) ≤ t.clk

/-! ### Network ports -/

/-- R290 to R293, R295, R296: runts, frames that find the FIFO full and unwanted frames are counted
and dropped; a good frame for a running ring with a posted buffer is written to it, its descriptor
written back, and HEAD moves on; with none posted it is counted; Renro's ring 3 counts its frames;
a notification, and the enabling of a ring. R303 to R305: the first packet of a video frame takes
the next FREE slot, its pixel is written, and the marker makes the slot READY; with no FREE slot
the frame is dropped; a packet seen before on the other path is a duplicate; a slot no packet comes
for becomes READY with INCOMPLETE; only READY slots are released. -/
def Obligations.PortsReceive : Prop :=
  (∀ (p r : Fin 4) (who : Req) (s : State),
      let q := p.val
      let k := r.val
      let size := rxSize q k s
      let head := rd (Net.RXR_HEAD q k) s
      let va := rxDescVa q k head s
      let d := memBytes va 32 s
      let buf := leNat (d.take 8)
      let one (x : Reg) (t : State) : Prop := rd x t = min (rd x s + 1) 0xFFFFFFFF
      (netUp q s = true → ∀ (bytes : List Byte) (back : BitVec 48),
        (∀ full pre fcs code, bytes.length + 4 < 64 ∨ pre = true →
          Answers (.rxFrame p bytes full pre fcs code back) s fun t =>
            one (Net.RX_RUNTS q) t ∧ t.net = s.net ∧ SameCue s t)
        ∧ (64 ≤ bytes.length + 4 → ∀ fcs code, Answers (.rxFrame p bytes true false fcs code back) s fun t =>
            one (Net.RX_FIFO_DROPS q) t ∧ t.net = s.net ∧ SameCue s t)
        ∧ (64 ≤ bytes.length + 4 → bytes.length + 4 ≤ maxFrame q s →
          (classify q bytes s = .filtered → ∀ fcs code,
            Answers (.rxFrame p bytes false false fcs code back) s fun t =>
              one (Net.RX_FILTER_DROPS q) t ∧ one (Net.RX_FRAMES q) t ∧ t.net = s.net ∧ SameCue s t)
          ∧ ∀ m, classify q bytes s = .ring k m → rxState q k s = 1 →
            (k = 3 → ptpPayload bytes = none → (q = 3 → isTwinFrame (headerOf bytes) = false) →
              Answers (.rxFrame p bytes false false false false back) s fun t =>
                one (Net.RXR_FRAMES q k) t ∧ one (Net.RX_FRAMES q) t ∧ SameCue s t)
            ∧ (k < 3 → activationPaused s = false → rxPosted q k s = 0 →
              Answers (.rxFrame p bytes false false false false back) s fun t =>
                one (Net.RXR_NOBUF q k) t ∧ t.net = s.net ∧ SameCue s t)
            ∧ (k < 3 → 0 < rxPosted q k s →
            activationPaused s = false → Bypass (netStream q) s → va % 32 = 0 → isDram va 32 = true →
            sound va 32 s = true →
            let data := stripTag bytes
            let n := data.length
            n ≤ leNat ((d.drop 8).take 4) → isDram buf n = true → buf % 4096 + n ≤ 4096 →
            sound buf n s = true → buf + n ≤ va ∨ va + 32 ≤ buf →
            Answers (.rxFrame p bytes false false false false back) s fun t =>
              memBytes buf n t = data ∧ memNat (va + 8) 2 t = n ∧ memNat (va + 10) 2 t = bytes.length
              ∧ memNat (va + 12) 2 t = 7 + 256 * b2n (headerOf bytes).tag.isSome
              ∧ rd (Net.RXR_HEAD q k) t = (head + 1) % size
              ∧ one (Net.RXR_FRAMES q k) t ∧ one (Net.RX_FRAMES q) t
              ∧ ∀ a, ¬ (buf ≤ a ∧ a < buf + n) → ¬ (va + 8 ≤ a ∧ a < va + 32) → memByte a t = memByte a s)))
      ∧ (∀ a, (rxRing q k s).firstAt = some a → fld (Net.RXR_NOTIFY q k) 17 8 s ≠ 0 →
        Answers (.rxNotifyTimer p r) s fun t =>
          rxRing q k t = {} ∧ a + realNs (fld (Net.RXR_NOTIFY q k) 17 8 s * 1000) ≤ t.clk
          ∧ (k < 3 → bit (Net.INT_STATUS q) k t = true)
          ∧ (bit (Net.RXR_NOTIFY q k) 24 s = true → ∀ sl < 4, bit (Net.RXR_NOTIFY q k) (20 + sl) s = true →
            bit (Sched.EV_SEEN sl) (40 + fld (Net.RXR_NOTIFY q k) 19 18 s) t = true))
      ∧ ∀ v : BitVec 32,
        (who = .host → k = 3 → Answers (.rxrEnable p r who v) s fun t => t.net = s.net ∧ RegsBut [] s t)
        ∧ (who = .renro ∨ k < 3 → v.getLsbD 0 = true → bit (Net.RXR_CTRL q k) 0 s = false →
          Answers (.rxrEnable p r who v) s fun t =>
            rxState q k t = 1 ∧ rd (Net.RXR_HEAD q k) t = 0 ∧ bit (Net.RXR_CTRL q k) 0 t = true
            ∧ fld (Net.RXR_CTRL q k) 7 4 t = bitsOf v.toNat 7 4 ∧ SameCue s t)
        ∧ (who = .renro ∨ k < 3 → v.getLsbD 0 = false → bit (Net.RXR_CTRL q k) 0 s = true →
          Answers (.rxrEnable p r who v) s fun t =>
            rxState q k t = 0 ∧ bit (Net.RXR_CTRL q k) 0 t = false
            ∧ fld (Net.RXR_CTRL q k) 7 4 t = fld (Net.RXR_CTRL q k) 7 4 s ∧ SameCue s t))
  ∧ (∀ (f : Fin 32) (s : State), shed s = false →
      let g := f.val
      let q := flowAt g s
      let one (x : Reg) (t : State) : Prop := rd x t = min (rd x s + 1) 0xFFFFFFFF
      (∀ (p : Fin 2) (udp : List Byte) (k : VideoPacket), flowFed g p.val s = true →
        activationPaused s = false → parseVideo udp = some k → k.field = false →
        let both : Prop := fld (Net.FLOW_CTRL g) 2 1 s = 3
        (both → q.seen.contains k.seq = true → Answers (.depktPacket f p udp) s fun t =>
          one (Net.FLOW_DUPES g) t ∧ t.net = s.net ∧ SameCue s t)
        ∧ ((both → q.seen.contains k.seq = false) → q.filling = none → q.high = none →
          q.ended ≠ some k.rtp → q.dropping ≠ some k.rtp →
          (nextFree g s = none → Answers (.depktPacket f p udp) s fun t =>
            one (Net.FLOW_DROPPED g) t ∧ (flowAt g t).dropping = some k.rtp ∧ (flowAt g t).filling = none
            ∧ SameCue s t)
          ∧ ∀ (b row off : Nat) (x y z : Byte), nextFree g s = some b → k.srds = [⟨row, off, [x, y, z]⟩] →
            flowRaw g s = false → flowDepth g s = 0 →
            row < flowHeight g s → off < flowWidth g s → Bypass (0x48 + g) s →
            let a := rd (Net.FLOW_BUF g b) s + (row * rd (Net.FLOW_STRIDE g) s + off * 3)
            isDram a 3 = true → a % 4096 + 3 ≤ 4096 → sound a 3 s = true →
            Answers (.depktPacket f p udp) s fun t =>
              memBytes a 3 t = [x, y, z] ∧ slotSt g b t = (if k.marker then slotReady else slotFilling)
              ∧ (flowAt g t).filling = (if k.marker then none else some b)
              ∧ one (Net.FLOW_PKTS g) t
              ∧ (k.marker = true → rd (Net.SLOT_RTP g b) t = k.rtp % 2 ^ 64 ∧ bit Net.DEPKT_INT_STATUS g t = true)
              ∧ ∀ c, ¬ (a ≤ c ∧ c < a + 3) → memByte c t = memByte c s))
      ∧ (∀ b < 4, q.filling = some b → q.missing < 65536 → fld (Net.FLOW_TMO g) 15 0 s ≠ 0 →
        Answers (.flowTimeout f) s fun t =>
          slotSt g b t = slotReady ∧ (flowAt g t).filling = none
          ∧ rd (Net.SLOT_INFO g b) t = q.missing + 65536 * (1 + 2 * b2n q.fault)
          ∧ bit Net.DEPKT_INT_STATUS g t = true
          ∧ q.lastAt + realNs (fld (Net.FLOW_TMO g) 15 0 s * 1000) ≤ t.clk)
      ∧ ∀ who (v : BitVec 4), Lands who s → Answers (.flowReleaseWrite f who v) s fun t =>
        (∀ b < 4, slotSt g b t =
          if v.getLsbD b && slotSt g b s == slotReady then slotFree else slotSt g b s) ∧ SameCue s t)

/-- R289, R297 to R299, R301: a frame of one descriptor is read whole into its ring's buffer, and
one that Renro posted moves to ring 3's; at a frame boundary a pending PAUSE frame goes first, then
the highest ring that its gate lets start, and while a PAUSE holds nothing; a frame that has left
completes SENT in its descriptor. -/
def Obligations.PortsSend : Prop :=
  ∀ (p r : Fin 4) (s : State), netUp p.val s = true →
    let q := p.val
    let k := r.val
    let size := txSize q k s
    let head := rd (Net.TXR_HEAD q k) s
    let x := netPort q s
    let one (x : Reg) (t : State) : Prop := rd x t = min (rd x s + 1) 0xFFFFFFFF
    (txState q k s = 1 → txFrameOf q k s = none → x.sending = none →
      (k = 3 → ∀ f rest, x.out = f :: rest → f.bytes.length ≤ maxFrame q s - 4 →
        Answers (.txFrameFetch p r) s fun t =>
          txFrameOf q k t = some f ∧ (netPort q t).out = rest ∧ SameCue s t)
      ∧ (let va := txDescVa q k head s
        let d := parseTx head (memBytes va 32 s)
        k < 3 → 0 < txPosted q k s →
        Bypass (netStream q) s → va % 32 = 0 → isDram va 32 = true → sound va 32 s = true →
        d.flags = 1 → d.len ≤ maxFrame q s - 4 → isDram d.buf d.len = true →
        d.buf % 4096 + d.len ≤ 4096 → sound d.buf d.len s = true →
        Answers (.txFrameFetch p r) s fun t =>
          txFrameOf q k t = some ⟨[head], 1, d.tsId, d.tci, d.seq, memBytes d.buf d.len s⟩
          ∧ SameCue s t ∧ RegsBut [] s t))
    ∧ (x.sending = none → ∀ n, x.pause = some n → Answers (.txFrameStart p) s fun t =>
      (netPort q t).sending = some ⟨none, noFrame, pauseBytes q n s, s.clk + wireTime q 60 s⟩
      ∧ (netPort q t).pause = none ∧ (netPort q t).tx = x.tx ∧ SameCue s t)
    ∧ (x.sending = none → x.pause = none →
      (gclRuns q s = true → ∀ j < 4, ∀ z, txFrameOf q j s = some z → ∀ w, longestWindow q j s = some w →
        wireCnt q (txLen z) s ≤ w) →
      (x.heldUntil ≤ s.clk → ∀ y, txFrameOf q k s = some y → txEligible q k s = true →
        (∀ j < 4, k < j → txEligible q j s = false) →
        Answers (.txFrameStart p) s fun t =>
          let b := txBytes y s
          (netPort q t).sending = some ⟨some k, y, b, s.clk + wireTime q b.length s⟩
          ∧ txFrameOf q k t = none ∧ SameCue s t)
      ∧ (s.clk < x.heldUntil ∨ (∀ j < 4, txEligible q j s = false) → Answers (.txFrameStart p) s fun t =>
        netPort q t = x ∧ SameCue s t))
    ∧ ∀ y (back : BitVec 48), x.sending = some y →
      (y.ring = none → Answers (.txFrameDone p back) s fun t =>
        (netPort q t).sending = none ∧ one (Net.TX_FRAMES q) t ∧ one (Net.TX_PAUSE q) t
        ∧ y.endAt ≤ t.clk ∧ SameCue s t)
      ∧ (y.ring = some 3 → Answers (.txFrameDone p back) s fun t =>
        (netPort q t).sending = none ∧ one (Net.TX_FRAMES q) t ∧ one (Net.TXR_FRAMES q 3) t
        ∧ rd (Net.TXR_HEAD q 3) t = (rd (Net.TXR_HEAD q 3) s + 1) % 4096 ∧ y.endAt ≤ t.clk)
      ∧ ∀ i, k < 3 → y.ring = some k → y.frame.descs = [i] → Bypass (netStream q) s →
        let va := txDescVa q k i s
        va % 32 = 0 → isDram va 32 = true → sound va 32 s = true →
        Answers (.txFrameDone p back) s fun t =>
          (netPort q t).sending = none ∧ memNat (va + 0x1C) 4 t = 1
          ∧ rd (Net.TXR_HEAD q k) t = (head + 1) % size ∧ one (Net.TX_FRAMES q) t
          ∧ one (Net.TXR_FRAMES q k) t ∧ y.endAt ≤ t.clk
          ∧ ∀ a, ¬ (va + 0x1C ≤ a ∧ a < va + 0x20) → memByte a t = memByte a s

/-- R288, R289, R299 to R302: a gate change puts the entry's gates in force; a checked list is
pending from its base and becomes operational then; the host's command on T0 is ignored; a received
PAUSE holds transmission where that is enabled and its time runs out; XOFF is entered when an
enabled source asserts, repeated, and left when every one has released, with PAUSE frames; a link
comes up and goes down, with what it was to send. -/
def Obligations.GatesPauseLinks : Prop :=
  ∀ (p : Fin 4) (who : Req) (s : State),
    let q := p.val
    let x := netPort q s
    let asks (t : State) (n : Nat) : Prop :=
      (netPort q t).pause = if bit (Net.PORT_CTRL q) 6 s then some n else x.pause
    (gclRuns q s = true → Answers (.gateChange p) s fun t =>
      let e := (gatePos q t.cnt s).entry
      (netPort q t).gates = gclGates (gclEntry q e s) ∧ fld (Net.GCL_STATUS q) 13 8 t = e % 64
      ∧ (netPort q t).holdTo = none ∧ SameCue s t)
    ∧ (who = .host → q = 3 → Answers (.gclSwitchCmd p who) s fun t => t.net = s.net ∧ RegsBut [] s t)
    ∧ (who = .renro ∨ q < 3 →
      (x.switchAt = none →
        (∀ k, gclCheck q s = some k → Answers (.gclSwitchCmd p who) s fun t =>
          bit (Net.PORT_ERR q) 1 t = true ∧ (netPort q t).switchAt = none ∧ Logs 0x070A (p1 k) s t)
        ∧ (gclCheck q s = none → Answers (.gclSwitchCmd p who) s fun t =>
          ∃ c, (netPort q t).switchAt = some c ∧ s.cnt + nsUnits 1000 ≤ c
            ∧ (∃ n, c = nsUnits (rd (Net.ADMIN_BASE_SEC q) s * 1000000000 + rd (Net.ADMIN_BASE_NS q) s)
                + n * nsUnits (rd (Net.ADMIN_CYCLE q) s))
            ∧ bit (Net.GCL_CTRL q) 1 t = true ∧ SameCue s t))
      ∧ (∀ c, x.switchAt = some c → Answers (.gclSwitchCmd p who) s fun t =>
        bit (Net.PORT_ERR q) 2 t = true ∧ t.net = s.net))
    ∧ (∀ c, x.switchAt = some c → Answers (.gclSwitch p) s fun t =>
      operBank q t = 1 - operBank q s ∧ rd (Net.OPER_CYCLE q) t = x.admin.2.2.1 % 2 ^ 64
      ∧ rd (Net.OPER_LEN q) t = x.admin.2.2.2 % 2 ^ 64 ∧ (netPort q t).switchAt = none
      ∧ bit (Net.GCL_CTRL q) 1 t = false ∧ bit (Net.INT_STATUS q) 10 t = true ∧ c ≤ t.cnt ∧ SameCue s t)
    ∧ (∀ n : BitVec 16, netUp q s = true →
      (bit (Net.PORT_CTRL q) 5 s = true → Answers (.pauseReceived p n) s fun t =>
        bit (Net.PORT_STATUS q) 1 t = decide (n ≠ 0)
        ∧ (netPort q t).heldUntil = (if n = 0 then 0 else s.clk + ceilDiv (n.toNat * quantum q s) 10)
        ∧ rd (Net.RX_PAUSE q) t = min (rd (Net.RX_PAUSE q) s + 1) 0xFFFFFFFF ∧ SameCue s t)
      ∧ (bit (Net.PORT_CTRL q) 5 s = false → Answers (.pauseReceived p n) s fun t =>
        t.net = s.net ∧ rd (Net.RX_PAUSE q) t = min (rd (Net.RX_PAUSE q) s + 1) 0xFFFFFFFF ∧ SameCue s t))
    ∧ (bit (Net.PORT_STATUS q) 1 s = true → Answers (.pauseExpiry p) s fun t =>
      bit (Net.PORT_STATUS q) 1 t = false ∧ x.heldUntil ≤ t.clk ∧ SameCue s t)
    ∧ (shed s = false →
      (∀ (fifo : BitVec 19) (qs : List (Fin 32 × BitVec 9)),
        let src := xoffAsserts q fifo.toNat (queueLevels qs) s &&& xoffEnabled q s
        let on := rd (Net.XOFF_STATUS q) s &&& xoffEnabled q s
        let left := on ^^^ (on &&& xoffReleases q fifo.toNat (queueLevels qs) s)
        (src ≠ 0 → netEnabled q s = true → Answers (.xoffEnter p fifo qs) s fun t =>
          bit (Net.PORT_STATUS q) 2 t = true
          ∧ rd (Net.XOFF_STATUS q) t = rd (Net.XOFF_STATUS q) s ||| src
          ∧ (bit (Net.PORT_STATUS q) 2 s = false → asks t (fld (Net.PAUSE_CFG q) 15 0 s)))
        ∧ (src = 0 → Answers (.xoffEnter p fifo qs) s fun t => t.net = s.net ∧ RegsBut [] s t)
        ∧ (bit (Net.PORT_STATUS q) 2 s = true → Answers (.xoffLeave p fifo qs) s fun t =>
          rd (Net.XOFF_STATUS q) t = left ∧ bit (Net.PORT_STATUS q) 2 t = decide (left ≠ 0)
          ∧ (left = 0 → asks t 0) ∧ SameCue s t))
      ∧ (bit (Net.PORT_STATUS q) 2 s = true → Answers (.xoffRefresh p) s fun t =>
        asks t (fld (Net.PAUSE_CFG q) 15 0 s)
        ∧ x.xoffAt + realNs (fld (Net.PAUSE_CFG q) 31 16 s * 1000) ≤ t.clk ∧ SameCue s t)
      ∧ ∀ pause, netEnabled q s = true → netLink q s = false → Answers (.netLinkUp p pause) s fun t =>
        netLink q t = true ∧ bit (Net.PORT_STATUS q) 4 t = pause
        ∧ Logs 0x0701 (p1 q ++ p1 (netMode q s)) s t ∧ SameCue s t)
    ∧ ∀ speed, netLink q s = true →
      Answers (.netLinkDown p speed) s (fun t =>
        netLink q t = false ∧ bit (Net.INT_STATUS q) 8 t = true
        ∧ (netPort q t).sending = none ∧ ∀ j < 4, txFrameOf q j t = none)
      ∧ (x.sending = none → (∀ j < 4, txFrameOf q j s = none) →
        Answers (.netLinkDown p speed) s fun t => Logs 0x0702 (p1 q ++ p1 (b2n speed)) s t ∧ SameCue s t)

/-! ### Twin operation -/

/-- R309, R310, R315 to R320: a paired module sends a beat at its instant, with the claim and its
check, and posts it on T0; a beat that is not valid is counted; a valid one gives the peer's state
and moves a SEEKING or a split module; a path that falls silent fails, both mean the peer has
failed; a SEEKING module that hears nothing becomes ACTIVE and raises its epoch; a lane that
differs from the other two is named and moves nothing, two that agree on another output carry the
module with them. R322, R324, R329, R330, R332, R334: a complete set is applied by the standby: its
sequence and frame are kept, its show values stand, its delayed tasks and contexts take the place
of those before; frames of a set are joined in order, one out of order drops it; another role
ignores them. ILK_IN live or static; the sinks are taken only while it is static; a planned switch
is accepted when all that it needs holds, and else rejected. -/
def Obligations.TwinOperation : Prop :=
  (∀ s : State, s.power.off = false →
      (s.red.paired = true → Answers .heartbeatSend s fun t =>
        let b := t.red.txBeat
        (s.cnt / nsUnits beatGap + 1) * nsUnits beatGap ≤ t.cnt ∧ b.length = 40
        ∧ at_ 0x24 4 b = crc32c (b.take 36) ∧ at_ 4 4 b = rd Red.CLAIM s % 2 ^ 32
        ∧ at_ 20 2 b = s.red.beatNo % 65536 ∧ t.red.beatNo = (s.red.beatNo + 1) % 65536
        ∧ rd Red.HB_SENT t = min (rd Red.HB_SENT s + 1) 0xFFFFFFFF ∧ fld Red.RED_STATUS 11 9 t = 0
        ∧ (shed s = false → fld (Net.TXR_STATUS 3 3) 1 0 s = 1 → ∃ f,
          (netPort 3 t).out = (netPort 3 s).out ++ [f] ∧ f.bytes = etherFrame 3 beatDst 0x88B5 b s))
      ∧ (s.red.paired = false → Answers .heartbeatSend s fun t =>
        t.red.txBeat = s.red.txBeat ∧ t.red.beatNo = s.red.beatNo ∧ rd Red.HB_SENT t = rd Red.HB_SENT s)
      ∧ (∀ (path : Fin 2) (back : BitVec 32) (bytes : List Byte),
        (parseBeat bytes = none → Answers (.heartbeatReceived path back bytes) s fun t =>
          rd Red.HB_BAD t = min (rd Red.HB_BAD s + 1) 0xFFFFFFFF ∧ t.red = s.red ∧ SameCue s t)
        ∧ ∀ b, parseBeat bytes = some b →
          (s.red.paired = false → Answers (.heartbeatReceived path back bytes) s fun t =>
            t.red.peer = some b ∧ roleOf t = roleOf s
            ∧ rd Red.PEER t = b.role + 8 * b2n b.synced + 16 * b2n b.sinks + 65536 * (b.claim / 65536))
          ∧ (s.red.paired = true → roleOf s = rSeeking → b.role = rActive →
            Answers (.heartbeatReceived path back bytes) s fun t => roleOf t = rStandby ∧ t.red.peer = some b)
          ∧ (s.red.paired = true → roleOf s = rActive → b.role = rActive → b.failed = false →
            rd Red.CLAIM s < b.claim → Answers (.heartbeatReceived path back bytes) s fun t =>
              roleOf t = rStandby ∧ ownsSinks t = false))
      ∧ (∀ path : Fin 2,
        let w := pathWindow s
        let own := if path.val = 0 then s.red.lastA else s.red.lastB
        let other := if path.val = 0 then s.red.lastB else s.red.lastA
        (max s.clk (own + w) + timeClk ≤ other + w → bit Red.RED_STATUS (3 + path.val) s = true →
          Answers (.pathFail path) s fun t =>
            bit Red.RED_STATUS (3 + path.val) t = false ∧ bit Red.INT_STATUS 1 t = true
            ∧ roleOf t = roleOf s ∧ own + w ≤ t.clk ∧ Logs 0x0A03 (p1 path.val) s t)
        ∧ (other ≤ own → s.red.paired = true → roleOf s = rActive → Answers (.pathFail path) s fun t =>
            t.red.peerLost = true ∧ roleOf t = rActive)
        ∧ (other ≤ own → s.red.paired = true → roleOf s = rStandby →
          Answers (.pathFail path) s fun t =>
            roleOf t = rActive ∧ t.red.tookOver = true
            ∧ rd Red.TAKEOVER_COUNT t = min (rd Red.TAKEOVER_COUNT s + 1) 0xFFFFFFFF
            ∧ t.upd.cur.epoch = min (max s.upd.cur.epoch s.red.heard + 1) 0xFFFF
            ∧ ∀ p < 32, bit Red.TWIN_PORTS p s = true → bit (trkCtrl p) 1 t = true))
      ∧ (s.red.paired = true → roleOf s = rSeeking → Answers .seekTimeout s fun t =>
        roleOf t = rActive ∧ max s.red.seekAt (max s.red.lastA s.red.lastB) + realNs 2000000000 ≤ t.clk
        ∧ t.upd.cur.epoch = min (max s.upd.cur.epoch s.red.heard + 1) 0xFFFF)
      ∧ ∀ (l j k : Fin 3) (o : LaneOut), o ≠ laneNow s → l ≠ j → l ≠ k → j ≠ k →
        (s.red.lanes = [] → Answers (.laneDissent l o) s fun t =>
          bit Red.RED_STATUS (9 + l.val) t = true ∧ laneOut l.val t = o
          ∧ fld Red.LANE_VOTES (4 * l.val + 2) (4 * l.val) t = o.role.val ∧ roleOf t = roleOf s ∧ SameCue s t)
        ∧ (laneOut j.val s = o → laneOut k.val s = laneNow s → Answers (.laneDissent l o) s fun t =>
          roleOf t = o.role.val ∧ bit Red.RED_STATUS (9 + k.val) t = true))
  ∧ (∀ s : State, shed s = false →
      (∀ (seq index : BitVec 32) (body : List Byte),
        (roleOf s ≠ rStandby → Answers (.mirrorFrameReceived seq index body) s fun t =>
          t.red = s.red ∧ RegsBut [] s t)
        ∧ (roleOf s = rStandby → index = 0 → goodSet body = none →
          Answers (.mirrorFrameReceived seq index body) s fun t =>
            t.red.rxBytes = body ∧ t.red.rxNext = 1 ∧ RegsBut [] s t)
        ∧ (roleOf s = rStandby → index ≠ 0 → s.red.rxSeq = some seq.toNat → s.red.rxNext = index.toNat →
          goodSet (s.red.rxBytes ++ body) = none → Answers (.mirrorFrameReceived seq index body) s fun t =>
            t.red.rxBytes = s.red.rxBytes ++ body ∧ t.red.rxNext = index.toNat + 1 ∧ RegsBut [] s t)
        ∧ (roleOf s = rStandby → index ≠ 0 → s.red.rxSeq ≠ some seq.toNat ∨ s.red.rxNext ≠ index.toNat →
          Answers (.mirrorFrameReceived seq index body) s fun t =>
            t.red = { s.red with rxSeq := none, rxBytes := [] } ∧ RegsBut [] s t)
        ∧ (∀ h n rs, roleOf s = rStandby → index = 0 → goodSet body = some ((0x01, n, h) :: rs) →
          let ctxs := (rs.filter fun r => r.1 == 0x14).map fun r => parseCtx r.2.2
          Answers (.mirrorFrameReceived seq index body) s fun t =>
            rd Red.MIRROR_SEQ_APPLIED t = at_ 0 4 h ∧ t.red.appliedFrame = some (at_ 4 4 h)
            ∧ bit Red.RED_STATUS 7 t = true ∧ t.red.rxSeq = none ∧ SameCue s t
            ∧ t.red.delays = (rs.filter fun r => r.1 == 0x13).map (fun r => parseDelay r.2.2)
            ∧ ((∀ c ∈ ctxs, (imageOfBuild c.buildId s).isSome) → t.red.contexts = ctxs))
        ∧ ∀ h b e n m, roleOf s = rStandby → index = 0 →
          goodSet body = some [(0x01, n, h), (0x10, m, b), e] → e.1 = 0x1F →
          Answers (.mirrorFrameReceived seq index body) s fun t =>
            rd Red.SHOW_ORIGIN t = at_ 0 8 b ∧ rd Red.SHOW_HELD t = at_ 8 8 b
            ∧ rd Red.SHOW_CTRL t = at_ 16 4 b % 2
            ∧ (∀ i < 32, rd (Red.SHOW_WORD i) t = at_ (24 + 4 * i) 4 b))
      ∧ Answers .ilkInLive s (fun t =>
        ilkInLive t = true ∧ bit Red.RED_STATUS 8 t = false ∧ t.red = s.red ∧ SameCue s t)
      ∧ Answers .ilkInStatic s (fun t => ilkInLive t = false
        ∧ (roleOf s = rSolo → s.red.handover = none → ownsSinks s = false →
          ownsSinks t = true ∧ t.red.ilkOut = true ∧ bit Red.INT_STATUS 2 t = true))
      ∧ (∀ c, s.red.handover = some c → ilkInLive s = false → ownsSinks s = false → roleOf s = rActive →
        Answers .sinkHandoverTake s fun t =>
          ownsSinks t = true ∧ t.red.ilkOut = true ∧ c ≤ t.cnt ∧ Logs 0x0A0B (p1 wHandover) s t)
      ∧ (∀ c, s.red.handover = some c → ilkInLive s = true → Answers .sinkHandoverTake s fun t =>
        ownsSinks t = ownsSinks s ∧ t.red = s.red)
      ∧ ∀ who (v : BitVec 32),
        let lead := bitsOf v.toNat 15 8
        let ready : Prop := roleOf s = rActive ∧ s.red.paired = true
          ∧ (∃ b, s.red.peer = some b ∧ b.role = rStandby ∧ b.synced = true)
          ∧ pathAOk s = true ∧ pathBOk s = true ∧ s.red.switch = none ∧ 4 ≤ lead
        (v.getLsbD 0 = false → Answers (.switchCmd who v) s fun t => t.red = s.red ∧ RegsBut [] s t)
        ∧ (v.getLsbD 0 = true → ¬ ready → Answers (.switchCmd who v) s fun t =>
          rd Red.SWITCH_STATUS t = 3 ∧ t.red = s.red ∧ RegsBut [Red.SWITCH_STATUS.addr] s t)
        ∧ (v.getLsbD 0 = true → ready → Answers (.switchCmd who v) s fun t =>
          rd Red.SWITCH_STATUS t = 1 ∧ rd Red.SWITCH_FRAME t = (rd Time.FT_FRAME s + lead) % 2 ^ 32
          ∧ t.red.switch = some (rd Time.FT_FRAME s + lead) ∧ SameCue s t))

/-! ### LED drive, measurement, calibration -/

/-- R341, R343, R345 to R349, R353, R355, R357 to R359: a period start runs the channel's engine,
takes the duty that CH_DUTY, the engine and the scales give, or that FREEZE holds, and drives its
clocks while the channel may conduct; the PWM wrap takes a pending period; the phase reference; a
sample and an OPEN; SHORT_HARD latches the channel off and CH_CLEAR clears it; derating, the sink
power estimate and the headroom loop. -/
def Obligations.LedChannels : Prop :=
  ∀ s : State, shed s = false →
    (∀ c : Fin 48,
      let k := c.val
      let h := ledCh k s
      let u := usedRegs k (nextStart k s) s
      let cfg := u.2.1
      let e := bitsOf cfg 5 3
      let p := s.led.period
      (rd Led.PWM_PERIOD s = p → s.led.written = false → Answers (.pwmPeriodStart c) s fun t =>
        let src := if bit Led.LED_CTRL 2 s then h.src else srcOf u.1 cfg t
        let d := dutyOf src cfg s
        let on := if mayConduct k s && cfg.testBit 0 then min p (onClocks d p (cfg.testBit 9) h.acc).1 else 0
        fld (Led.ENG_STATUS e) 15 0 t = (engine e (nowNs t) s).1 % 65536
        ∧ rd (Led.CH_DUTY_ACT k) t = d ∧ (ledCh k t).src = src ∧ (ledCh k t).curr = u.2.2 % 1024
        ∧ (ledCh k t).onAt = nextStart k s ∧ nextStart k s ≤ t.clk ∧ SameCue s t
        ∧ (cfg.testBit 10 = false →
          (ledCh k t).onClk = on ∧ bit (Led.CH_STATUS k) 0 t = decide (0 < on)))
      ∧ (h.measurable = true → h.sampled = false → mayConduct k s = true → ∀ ok (v : BitVec 8) lo hi,
        Answers (.sinkSample c ok v lo hi) s fun t =>
          fld (Led.CH_STATUS k) 23 16 t = v.toNat ∧ (ledCh k t).sampled = true
          ∧ bit (Led.CH_STATUS k) 3 t = false ∧ h.onAt + 200 * ledClk ≤ t.clk
          ∧ (ok = false → v.toNat < 3 → openCount s ≤ h.openRun + 1 → bit (Led.CH_STATUS k) 2 t = true))
      ∧ (400 ≤ h.onClk → mayConduct k s = true → s.clk ≤ h.onAt + ledClk * h.onClk →
        Answers (.ledShortHard c) s fun t =>
          bit (Led.CH_STATUS k) 5 t = true ∧ bit (Led.CH_STATUS k) 10 t = true
          ∧ bit (Led.CH_STATUS k) 0 t = false ∧ mayConduct k t = false
          ∧ bit Led.INT_STATUS 0 t = true ∧ Logs 0x0804 (p1 k) s t)
      ∧ ∀ who, Answers (.chClear c who) s fun t =>
        bit (Led.CH_STATUS k) 10 t = false ∧ bit (Led.CH_STATUS k) 5 t = false
        ∧ bit (Led.CH_STATUS k) 6 t = false ∧ ledCh k t = h.restart ∧ SameCue s t)
    ∧ (s.clk < wrapAt s → Answers .pwmWrap s fun t =>
      t.led.period = rd Led.PWM_PERIOD s ∧ t.led.zeroAt = wrapAt s ∧ t.led.stretch = 0 ∧ wrapAt s ≤ t.clk)
    ∧ (s.led.refPending = false → Answers .phaseReference s fun t => t.led = s.led ∧ RegsBut [] s t)
    ∧ (s.led.refPending = true → s.clk < wrapAt s →
      let pos := ceilDiv (s.clk - s.led.zeroAt) ledClk
      let e := phaseError pos (s.led.period + s.led.stretch)
      Answers .phaseReference s fun t =>
        t.led.refPending = false ∧ bit Led.LED_STATUS 2 t = true
        ∧ (e = 0 → t.led.zeroAt = s.led.zeroAt ∧ t.led.stretch = s.led.stretch)
        ∧ (bit Led.LED_CTRL 1 s = true → 0 < e → e ≤ 16 →
          t.led.zeroAt = s.led.zeroAt ∧ t.led.stretch = s.led.stretch + e.toNat)
        ∧ (bit Led.LED_CTRL 1 s = true → e < 0 → -16 ≤ e →
          t.led.zeroAt = s.led.zeroAt + ledClk * pos ∧ t.led.stretch = 0 ∧ t.led.period = rd Led.PWM_PERIOD s)
        ∧ (e ≠ 0 → bit Led.LED_CTRL 1 s = false ∨ 16 < e.natAbs →
          t.led.zeroAt = s.led.zeroAt + ledClk * pos ∧ t.led.stretch = 0
          ∧ rd Led.PHASE_SNAPS t = min (rd Led.PHASE_SNAPS s + 1) 0xFFFFFFFF))
    ∧ (Answers .derateUpdate s fun t => s.led.derateAt + realNs 100000000 ≤ t.clk ∧ ∀ k < 8,
      let v := rd (Adc.HK_RESULT (2 + k)) s
      let code := v % 65536
      (bit (Led.TH_CFG k) 0 s = false ∨ v.testBit 16 = false →
        rd (Led.TH_STATUS k) t = rd (Led.TH_STATUS k) s)
      ∧ (bit (Led.TH_CFG k) 0 s = true → v.testBit 16 = true →
        max s.clk (s.led.derateAt + realNs 100000000) + timeClk ≤ kget 0 (2 + k) s.adc.hkWhen + realNs oneSecond →
        (code ≤ 1310 ∨ 64226 ≤ code →
          fld (Led.TH_STATUS k) 31 16 t = fld (Led.TH_CFG k) 31 24 s * 128)
        ∧ (1310 < code → code < 64226 →
          fld (Led.TH_STATUS k) 15 0 t = unsgn 16 (thTemp code s)
          ∧ fld (Led.TH_STATUS k) 31 16 t = stepTowards (fld Led.DERATE_STEP 15 0 s)
            (fld (Led.TH_STATUS k) 31 16 s) (derateTarget k (thTemp code s) s))))
    ∧ (Answers .sinkPowerEstimate s fun t =>
      let est := sinkPower s
      let lim := fld Led.SINK_PWR_LIMIT 15 0 s
      rd Led.SINK_POWER t = min 65535 est + 65536 *
        (if lim < est then globalScale s * lim / est else min 0x8000 (globalScale s + 0x200))
      ∧ s.led.powerAt + realNs 10000000 ≤ t.clk)
    ∧ (bit Led.HR_CTRL 0 s = true → Answers .headroomUpdate s fun t =>
      let qs := hrChannels s
      let target := fld Led.HR_CTRL 15 8 s
      let low := minOf (qs.filterMap fun q => (ledCh q s).hrMin)
      let up : Prop := (∃ q ∈ qs, bit (Led.CH_STATUS q) 8 s = true) ∨ ∃ v ∈ low, v < target
      let down : Prop := ∃ v ∈ low, target + 5 < v
      s.led.headAt + realNs (1000000 * max 1 (fld Led.HR_CTRL 23 16 s)) ≤ t.clk
      ∧ (bit Led.HR_STATUS 11 s = true ∨ qs = [] ∨ ¬ up ∧ ¬ down → rd Led.HR_ADJ t = rd Led.HR_ADJ s)
      ∧ (bit Led.HR_STATUS 11 s = false →
        bit Led.HR_STATUS 8 t = decide (qs = [])
        ∧ (up → rd Led.HR_ADJ t = hrMove true (max 1 (fld Led.HR_CTRL 31 24 s)) s)
        ∧ (¬ up → down → rd Led.HR_ADJ t = hrMove false 1 s)))

/-- R361 to R364, R371, R374, R483: a trigger, by software, timed, of the PWM or continuous, starts
an idle converter; one of the first three waits, one deep, or is lost, as any is of a converter
under calibration; a slot's conversions give their trimmed mean, in RESULT and the FIFO; the scan
converts its next input. -/
def Obligations.Converters : Prop :=
  ∀ (u : Fin 2) (s : State),
    let k := u.val
    let c := convAt k s
    let takes (i : Instr) : Prop :=
      (c.slot = none → Answers i s fun t =>
        (convAt k t).slot = some 0 ∧ bit (Adc.CONV_STATUS k) 0 t = true ∧ bit Adc.ADC_STATUS k t = true)
      ∧ (c.slot ≠ none → bit (Adc.CONV_STATUS k) 1 s = false → Answers i s fun t =>
        bit (Adc.CONV_STATUS k) 1 t = true ∧ (convAt k t).slot = c.slot)
      ∧ (c.slot ≠ none → bit (Adc.CONV_STATUS k) 1 s = true → Answers i s fun t =>
        rd (Adc.TRIG_LOST k) t = min (rd (Adc.TRIG_LOST k) s + 1) 0xFFFFFFFF
        ∧ (convAt k t).slot = c.slot ∧ bit Adc.INT_STATUS (2 + k) t = true)
    (bit (Adc.CONV_CTRL k) 0 s = true → underCal k s = false →
      (fld (Adc.CONV_CTRL k) 2 1 s = 0 → ∀ who, takes (.convGo u who))
      ∧ (fld (Adc.CONV_CTRL k) 2 1 s = 1 → c.fired = true → takes (.adcTrigger u))
      ∧ (fld (Adc.CONV_CTRL k) 2 1 s = 2 → ∀ i, pwmTrigger k s = some i →
        takes (.adcTrigger u) ∧ Answers (.adcTrigger u) s fun t => i ≤ t.clk)
      ∧ (fld (Adc.CONV_CTRL k) 2 1 s = 3 → c.slot = none → Answers (.adcTrigger u) s fun t =>
        (convAt k t).slot = some 0 ∧ bit (Adc.CONV_STATUS k) 0 t = true))
    ∧ (bit (Adc.CONV_CTRL k) 0 s = true → underCal k s = true → fld (Adc.CONV_CTRL k) 2 1 s = 0 →
      ∀ who, Answers (.convGo u who) s fun t =>
        rd (Adc.TRIG_LOST k) t = min (rd (Adc.TRIG_LOST k) s + 1) 0xFFFFFFFF ∧ convAt k t = c)
    ∧ ((fld (Adc.CONV_CTRL k) 2 1 s ≠ 0 ∨ bit (Adc.CONV_CTRL k) 0 s = false) →
      ∀ who, Answers (.convGo u who) s fun t => convAt k t = c ∧ RegsBut [] s t)
    ∧ (∀ (j : Nat) (codes : List (BitVec 16)), c.slot = some j → j < 16 → codes.length = 2 ^ avgOf k j s →
      let code := ((codes.map fun w => trimCode k w.toNat s).foldl (· + ·) 0 + 2 ^ avgOf k j s / 2) / 2 ^ avgOf k j s
      Answers (.conversionDone u codes) s fun t =>
        rd (Adc.RESULT k j) t = code + 2 ^ 31
        ∧ (64 ≤ c.fifo.length → (convAt k t).fifo = c.fifo
          ∧ rd (Adc.FIFO_LOST k) t = min (rd (Adc.FIFO_LOST k) s + 1) 0xFFFFFFFF)
        ∧ (c.fifo.length < 64 → ∃ e, (convAt k t).fifo = c.fifo ++ [e] ∧ e.code = code ∧ e.slot = j)
        ∧ (j = fld (Adc.CONV_CTRL k) 7 4 s → bit Adc.INT_STATUS k t = true)
        ∧ (j ≠ fld (Adc.CONV_CTRL k) 7 4 s → (convAt k t).slot = some (j + 1)))
    ∧ (∀ raw : BitVec 16, hkMay k s = true → s.adc.hkNext < 32 →
      (s.adc.hkNext ∈ tempInputs → s.power.tripped = false ∧ s.adc.lastHot = false) → Answers (.hkConversion u raw) s fun t =>
        let i := s.adc.hkNext
        rd (Adc.HK_RESULT i) t = trimCode k raw.toNat s + 65536 ∧ t.adc.hkNext = nextInput i
        ∧ c.hkAt + realNs 10000 ≤ t.clk ∧ (i = 0 → rd Sys.VIN_NOW t = codeMv (trimCode k raw.toNat s)))
    ∧ ∀ who, Answers (.fifoPop u who) s fun t =>
      convAt k t = { c with fifo := c.fifo.drop 1 } ∧ SameCue s t ∧ RegsBut [] s t

/-- R372 to R376, R378: a START whose checks pass begins a run; the first check that fails ends it
with its code and detail; a START during a run is refused; pulses are summed; an ABORT ends the run
with code 9; the reference's trim moves one step at a time. -/
def Obligations.CalibrationRuns : Prop :=
  ∀ (who : Req) (vref iset : BitVec 32) (op : Bool) (bad : BitVec 48) (s : State),
    (∀ q ∈ ([(0, .calStartRef who vref, ⟨vref.toNat, 0, false, 0⟩),
        (1, .calStartOpen who vref iset op bad, ⟨vref.toNat, iset.toNat, op, bad.toNat⟩),
        (2, .calStartJig who vref iset op bad, ⟨vref.toNat, iset.toNat, op, bad.toNat⟩)] :
          List (Nat × Instr × CalObs)),
      (bit Adc.CAL_STATUS 0 s = true → Answers q.2.1 s fun t =>
        bit Adc.ADC_ERR 0 t = true ∧ t.cal = s.cal ∧ SameCue s t)
      ∧ (bit Adc.CAL_STATUS 0 s = false → s.cal.run = none →
        ((calCheck q.1 q.2.2 s).1 = none → Answers q.2.1 s fun t =>
          bit Adc.CAL_STATUS 0 t = true ∧ ∃ r, t.cal.run = some r ∧ r.mode = q.1
            ∧ r.seq = s.cal.runSeq + 1 ∧ r.step = 1 ∧ r.pulse = 0 ∧ r.vref0 = vref.toNat)
        ∧ ∀ code detail, (calCheck q.1 q.2.2 s).1 = some (code, detail) → Answers q.2.1 s fun t =>
          t.cal.run = none ∧ bit Adc.CAL_STATUS 0 t = false
          ∧ rd Adc.CAL_RESULT t = code + 256 * (detail % 256) + 65536 * ((s.cal.runSeq + 1) % 65536)
          ∧ rd Adc.CAL_ABORTS t = min (rd Adc.CAL_ABORTS s + 1) 0xFFFFFFFF
          ∧ Logs 0x0903 (p1 code ++ p1 detail) s t))
    ∧ (∀ r, s.cal.run = some r →
      (∀ code : BitVec 32, r.mode = 0 → r.step = 1 ∨ r.step = 2 →
        (code.toNat ≤ 64 → Answers (.calPulse code vref iset) s fun t =>
          t.cal.run = some { r with step := r.step + 1, refTrims := r.refTrims ++ [-(code.toNat : Int)] })
        ∧ (64 < code.toNat → Answers (.calPulse code vref iset) s fun t => t.cal.run = none
          ∧ rd Adc.CAL_RESULT t = 10 + 256 * 255 + 65536 * (r.seq % 65536)
          ∧ rd Adc.CAL_ABORTS t = min (rd Adc.CAL_ABORTS s + 1) 0xFFFFFFFF))
      ∧ (∀ code : BitVec 32, r.mode ≠ 0 → r.pulse < 15 → Answers (.calPulse code vref iset) s fun t =>
        t.cal.run = some { r with pulse := r.pulse + 1, sum := r.sum + code.toNat, pulseAt := t.clk }
        ∧ r.pulseAt + realNs 1000000 ≤ t.clk)
      ∧ Answers (.calAbort who) s fun t =>
        t.cal.run = none ∧ rd Adc.CAL_RESULT t = 9 + 65536 * (r.seq % 65536)
        ∧ bit Adc.CAL_STATUS 0 t = false ∧ Logs 0x0903 (p1 9 ++ p1 0) s t)
    ∧ (s.cal.run = none → Answers (.calAbort who) s fun t => t.cal = s.cal ∧ RegsBut [] s t)
    ∧ (bit Adc.CAL_STATUS 1 s = true → Answers .vrefRampStep s fun t =>
      s.cal.rampAt + realNs 100000000 ≤ t.clk ∧ vrefTarget t = vrefTarget s
      ∧ (vrefInUse s < vrefTarget s → vrefInUse t = vrefInUse s + 1)
      ∧ (vrefTarget s < vrefInUse s → vrefInUse t = vrefInUse s - 1)
      ∧ bit Adc.CAL_STATUS 1 t = decide (vrefInUse t ≠ vrefTarget t))

/-! ### Event recorder and check-value units -/

/-- R384 to R393, R395: a record enters with the next SEQ, without one while the scan runs, or is
lost; the commit of the oldest record completes in its slot 1.8 us after it began, and the ring
wraps; flushes start; CLEAR with its key flushes what is staged and erases, and is else refused;
the erase clears every MARK; DIRECT and FREEZE; a slot is read; the scan numbers REC_BOOT after the
highest SEQ found; a host record. -/
def Obligations.EventRecorder : Prop :=
  ∀ s : State, s.rcd.arriving = [] →
    let q := s.rcd
    let one (x : Reg) (t : State) : Prop := rd x t = min (rd x s + 1) 0xFFFFFFFF
    let turn : Prop := q.entered = 0 ∨ q.enteredAt ≠ s.clk
    (∀ code sev origin inst payload,
      (q.staged.length < 256 → Answers (.recordEnter code sev origin inst payload) s fun t =>
        t.rcd.staged.length = q.staged.length + 1
        ∧ rd Rec.REC_NEXT_SEQ t
          = (if recScanning s then rd Rec.REC_NEXT_SEQ s else (rd Rec.REC_NEXT_SEQ s + 1) % 2 ^ 64)
        ∧ (turn → ∃ r, t.rcd.staged = q.staged ++ [r] ∧ r.code = code
          ∧ r.seq = (if recScanning s then none else some (rd Rec.REC_NEXT_SEQ s))
          ∧ r.payload = payload.take 28 ∧ r.uptime = uptime s
          ∧ r.source = sev + 16 * origin + 256 * (inst % 256)))
      ∧ (256 ≤ q.staged.length → Answers (.recordEnter code sev origin inst payload) s fun t =>
        t.rcd.staged = q.staged ∧ one Rec.REC_LOST t ∧ bit Rec.REC_ERR 1 t = true
        ∧ rd Rec.REC_NEXT_SEQ t = rd Rec.REC_NEXT_SEQ s))
    ∧ (∀ r rest, mayCommit s = true → q.lost = 0 → q.staged = r :: rest → rest ≠ [] ∨ q.clearing = none →
      Answers .recordCommit s fun t =>
        t.rcd.staged = rest ∧ t.rcd.store = kset [] (commitSlot s) (recBytes r) q.store
        ∧ one Rec.REC_COMMITS t ∧ q.commitFrom.getD s.clk + 18000 ≤ t.clk
        ∧ (rd Rec.REC_PERM_COUNT s < rd Rec.REC_PERM_ACT s →
          rd Rec.REC_PERM_COUNT t = rd Rec.REC_PERM_COUNT s + 1 ∧ rd Rec.REC_RING_HEAD t = rd Rec.REC_RING_HEAD s)
        ∧ (rd Rec.REC_PERM_ACT s ≤ rd Rec.REC_PERM_COUNT s →
          (rd Rec.REC_RING_HEAD s + 1 < storeSlots → rd Rec.REC_RING_HEAD t = rd Rec.REC_RING_HEAD s + 1)
          ∧ (rd Rec.REC_RING_HEAD s + 1 = storeSlots →
            rd Rec.REC_RING_HEAD t = rd Rec.REC_PERM_ACT s ∧ bit Rec.REC_STATUS 4 t = true)))
    ∧ (recDirect s = false → Answers .flushTimer s fun t =>
      t.rcd.lastFlush = t.clk ∧ (q.staged ≠ [] → recFlushing t = true)
      ∧ q.lastFlush + realNs (fld Rec.REC_CTRL 31 16 s * 1000000) ≤ t.clk)
    ∧ Answers .recFlush s (fun t => t.rcd.staged = q.staged
      ∧ recFlushing t = (recFlushing s || !q.staged.isEmpty)
      ∧ (recFlushing s = false → t.rcd.lastFlush = s.clk) ∧ (recFlushing s = true → t.rcd = q))
    ∧ (∀ who (key : BitVec 16),
      let taken : Prop := key = 0xC1EA ∧ bit Rec.REC_CTRL 1 s = false ∧ recClearing s = false
        ∧ recScanning s = false
      (¬ taken → Answers (.recClear who key) s fun t => bit Rec.REC_ERR 0 t = true ∧ t.rcd = q)
      ∧ (taken → q.staged = [] → Answers (.recClear who key) s fun t =>
        recClearing t = true ∧ t.rcd.erase.isSome = true ∧ ∃ r, t.rcd.staged = [r] ∧ r.code = 0x0C01)
      ∧ (taken → q.staged ≠ [] → Answers (.recClear who key) s fun t =>
        recClearing t = true ∧ recFlushing t = true ∧ t.rcd.staged = q.staged ∧ t.rcd.erase = q.erase
        ∧ t.rcd.clearing.isSome = true))
    ∧ (∀ at' n, q.erase = some (at', n) → n < 2 ^ 17 → Answers .clearDone s fun t =>
      t.rcd.store = q.store.map (fun p => (p.1, unmark p.2)) ∧ t.rcd.staged = q.staged
      ∧ t.rcd.erase = none ∧ recClearing t = false ∧ (q.staged ≠ [] → recFlushing t = true)
      ∧ rd Rec.REC_PERM_ACT t = n ∧ rd Rec.REC_PERM_COUNT t = 0 ∧ rd Rec.REC_RING_HEAD t = n
      ∧ at' ≤ t.clk ∧ t.upd.cur.clearCount = s.upd.cur.clearCount + 1)
    ∧ (∀ v, Answers (.recDirectWrite v) s fun t => bit Rec.REC_CTRL 0 t = v
      ∧ (v = true → bit Rec.REC_CTRL 0 s = false → q.staged ≠ [] → recFlushing t = true))
    ∧ (bit Rec.REC_CTRL 1 s = false → Answers (.recFreeze true) s fun t =>
      bit Rec.REC_CTRL 1 t = true ∧ t.rcd.staged = q.staged ∧ t.rcd.commitFrom = q.commitFrom
      ∧ (q.commitFrom = none → recFrozen t = true ∧ mayCommit t = false)
      ∧ (q.commitFrom ≠ none → recFrozen t = recFrozen s))
    ∧ (bit Rec.REC_CTRL 1 s = true → Answers (.recFreeze false) s fun t =>
      recFrozen t = false ∧ (q.staged ≠ [] → recFlushing t = true))
    ∧ (bit Rec.REC_CTRL 1 s = true → Answers .recFreezeTimeout s fun t =>
      recFrozen t = false ∧ bit Rec.REC_CTRL 1 t = false
      ∧ q.frozenAt + realNs oneMinute ≤ t.clk ∧ Logs 0x0C05 [] s t)
    ∧ (∀ idx : BitVec 17,
      let b := kget [] idx.toNat q.store
      (beingCommitted idx.toNat s = true → Answers (.recRead idx) s fun t =>
        rd Rec.REC_READ_STATE t = 2 ^ 31 ∧ t.rcd = q)
      ∧ (beingCommitted idx.toNat s = false → Answers (.recRead idx) s fun t =>
        (rd Rec.REC_READ_STATE t = slotState b + 2 ^ 31
          ∨ q.erase ≠ none ∧ rd Rec.REC_READ_STATE t = 2 ^ 31)
        ∧ (∀ i < 16, rd (Rec.REC_READ_DATA i) t = leNat ((b.drop (4 * i)).take 4))
        ∧ (q.erase = none → slotState b = 2 → one Rec.REC_CORRUPT t) ∧ t.rcd = q))
    ∧ (recScanning s = true → Answers .recScanDone s fun t =>
      recScanning t = false ∧ ∃ r, t.rcd.staged.head? = some r ∧ r.code = 0x0C04
        ∧ r.seq = some (match highestValid 0 q.store with
          | none => 0
          | some (n, _) => (n + 1) % 2 ^ 64))
    ∧ (let code := fld Rec.HOST_LOG_CODE 15 0 s
      let sev := fld Rec.HOST_LOG_CODE 18 16 s
      (0x0D80 ≤ code → code ≤ 0x0DFF → 1 ≤ sev → sev ≤ 3 → q.staged.length < 256 → turn →
        Answers .hostLogSubmit s fun t =>
          ∃ r, t.rcd.staged = q.staged ++ [r] ∧ r.code = code ∧ r.source % 256 = sev + 32
            ∧ r.payload = (List.range 7).flatMap fun i => p4 (rd (Rec.HOST_LOG_PAYLOAD i) s))
      ∧ (code < 0x0D80 ∨ 0x0DFF < code ∨ sev = 0 ∨ 3 < sev → Answers .hostLogSubmit s fun t =>
        t.rcd = q ∧ bit Rec.REC_ERR 0 t = true))

/-- R399 to R405: an operation on an idle unit, or as soon as it is idle: bytes are fed lowest
first and counted; INIT and a change of POLY load the standard value and clear the count; a value
write is cut to the width; the host cannot write G.CRC3, nor the units of slices that are off. -/
def Obligations.CheckValueUnits : Prop :=
  ∀ (u : Fin 20) (who : Req) (s : State),
    let k := u.val
    let alg := crcAlg k s
    let value (v : Nat) (t : State) : Prop := rd (Crc.CRC_VALUE k) t = v
    let count (v : Nat) (t : State) : Prop := rd (Crc.CRC_BYTES k) t = v
    let feeds (i : Instr) (bs : List Byte) : Prop := Answers i s fun t =>
      value (crcFeed alg (crcRaw k s) bs) t ∧ count ((rd (Crc.CRC_BYTES k) s + bs.length) % 2 ^ 32) t
      ∧ kget 0 k s.crcBusy ≤ t.clk ∧ RegsBut [(Crc.CRC_VALUE k).addr, (Crc.CRC_BYTES k).addr] s t ∧ SameCue s t
    (∀ (v : BitVec 32) (poly : Fin 4) (raw : Bool),
      ∀ i ∈ [Instr.crcInit u who, .crcFeed8 u who (v.setWidth 8), .crcFeed16 u who (v.setWidth 16),
        .crcFeed32 u who v, .crcValueWrite u who v, .crcCfgWrite u who poly raw],
      (who = .host → k = 19 → Answers i s fun t => RegsBut [] s t)
      ∧ (who = .host → k < 16 → slicesOn s = false → Answers i s fun t =>
        RegsBut [Hst.HOST_ERR.addr] s t ∧ bit Hst.HOST_ERR 1 t = true))
    ∧ (who = .renro ∨ (k < 16 ∧ slicesOn s = true) ∨ (16 ≤ k ∧ k < 19) →
      (∀ v : BitVec 8, feeds (.crcFeed8 u who v) [v])
      ∧ (∀ v : BitVec 16, feeds (.crcFeed16 u who v) [v.setWidth 8, (v >>> 8).setWidth 8])
      ∧ (∀ v : BitVec 32, feeds (.crcFeed32 u who v)
        [v.setWidth 8, (v >>> 8).setWidth 8, (v >>> 16).setWidth 8, (v >>> 24).setWidth 8])
      ∧ Answers (.crcInit u who) s (fun t => value (crcInit alg) t ∧ count 0 t ∧ crcAlg k t = alg)
      ∧ (∀ v : BitVec 32, Answers (.crcValueWrite u who v) s fun t =>
        value (v.toNat % 2 ^ crcWidth alg) t ∧ count (rd (Crc.CRC_BYTES k) s) t)
      ∧ ∀ (poly : Fin 4) raw, Answers (.crcCfgWrite u who poly raw) s fun t =>
        rd (Crc.CRC_CFG k) t = poly.val + 4 * b2n raw
        ∧ (poly.val = alg → value (crcRaw k s) t ∧ count (rd (Crc.CRC_BYTES k) s) t)
        ∧ (poly.val ≠ alg → value (crcInit poly.val) t ∧ count 0 t))

/-! ### Host interface, start-up, update, power -/

/-- R420, R101 to R103, R175, R182, R184, R189, R289, R436: each mailbox command takes effect as it
is given and leaves its answer for MBX_DONE, which waits for the invalidations of UNMAP and
UNLOAD_IMAGE; a command while one runs is refused, before step 5 every command is BUSY, under
Quartz REJECTED; arguments outside their ranges, an image that fails its check, IDs in use and
pages that run out are answered so; an uncorrectable table entry of Renro's is a fatal error of
cause 1 (DESIGN CHOICE, log entry 105). -/
def Obligations.MailboxCommands : Prop :=
  ∀ s : State, shed s = false →
    let answered (t : State) (r : Nat) (w : List Nat) (wait : Bool) : Prop := t.host.mbx = some ⟨r, w, wait⟩
    let calm := s.latent = [] ∧ s.poison = []
    (s.host.mbx ≠ none → Answers .continueCmd s fun t =>
      t.host = s.host ∧ bit Hst.HOST_ERR 5 t = true ∧ t.boot = s.boot)
    ∧ (s.host.mbx = none → s.boot.quartz = false → fld Sys.BOOT_STAGE 3 0 s < 5 →
      Answers .continueCmd s fun t => answered t 4 [] false ∧ t.boot = s.boot)
    ∧ (s.host.mbx = none → s.boot.quartz = true →
      Answers .continueCmd s fun t => answered t 5 [] false ∧ t.boot = s.boot)
    ∧ (∀ m, s.host.mbx = some m → m.resp.length ≤ 16 → (∀ w ∈ m.resp, w < 2 ^ 64) →
      (m.wait = false ∨ tlbiGoing s = false → Answers .mbxDone s fun t =>
        t.host.mbx = none ∧ fld Hst.MBX_STATUS 15 8 t = m.result % 256 ∧ bit Hst.INT_STATUS 0 t = true
        ∧ ∀ i < m.resp.length, rd (Hst.MBX_RESP i) t = m.resp.getD i 0)
      ∧ (m.wait = true → tlbiGoing s = true → Answers .mbxDone s fun t => t.host = s.host ∧ RegsBut [] s t))
    ∧ (s.host.mbx = none → s.boot.quartz = false → frozen s = false → 5 ≤ fld Sys.BOOT_STAGE 3 0 s →
      (∀ (addr len : Word) (mask : BitVec 4) (id : BitVec 6) (asid : BitVec 16) (place : BitVec 33),
        let u := putCmd (cmdWords 1 [addr.toNat, len.toNat, mask.toNat]) s
        let b := memBytes addr.toNat len.toNat s
        let found := sound addr.toNat len.toNat s
        let i := Instr.loadImage addr len mask id asid place
        (mask = 0 ∨ isDram addr.toNat len.toNat = false → Answers i s fun t => answered t 2 [] false)
        ∧ (mask ≠ 0 → isDram addr.toNat len.toNat = true →
          (found = true ∧ imageBad b ≠ none ∨ s.latent = [] ∧ poisoned addr.toNat len.toNat s = true →
            Answers i s fun t => answered t 5 [] false ∧ t.host.images = s.host.images ∧ t.dram = s.dram)
          ∧ (found = true → imageBad b = none →
            (id = 0 ∨ imageAt id.toNat s ≠ none ∨ asidUsed asid.toNat s = true →
              Answers i s fun t => answered t 3 [] false ∧ t.host.images = s.host.images ∧ t.dram = s.dram)
            ∧ (calm → id ≠ 0 → imageAt id.toNat s = none → asidUsed asid.toNat s = false →
              let p := placeImage b (bitList 4 mask.toNat) id.toNat asid.toNat place.toNat
                (renroCrc (imgChecked b) u)
              (∀ w, p = some w → Answers i s fun t => answered t 0 [id.toNat, asid.toNat] false
                ∧ t.host.images = w.host.images ∧ t.dram = w.dram)
              ∧ (p = none → Answers i s fun t => answered t 3 [] false ∧ t.dram = s.dram)))))
      ∧ (∀ id : Word,
        (imageAt id.toNat s = none → Answers (.unloadImage id) s fun t => answered t 2 [] false)
        ∧ ∀ m, imageAt id.toNat s = some m →
          let u := forAll (fun sl s => wr (Sched.IMG_CFG sl id.toNat) 0 s) (bitList 4 m.slices)
            (putCmd (cmdWords 2 [id.toNat]) s)
          let p := m.pages.foldl (fun acc q => acc.bind (unmapRange m.asid q.1 q.2)) (some u)
          (imageBusy id.toNat s = true → Answers (.unloadImage id) s fun t =>
            answered t 4 [] false ∧ imageAt id.toNat t = some m ∧ t.dram = s.dram)
          ∧ (imageBusy id.toNat s = false → calm →
            (∀ w, p = some w → Answers (.unloadImage id) s fun t =>
              answered t 0 [] true ∧ imageAt id.toNat t = none ∧ t.dram = w.dram)
            ∧ (p = none → Answers (.unloadImage id) s fun t =>
              answered t 3 [] false ∧ imageAt id.toNat t = some m ∧ t.dram = s.dram)))
      ∧ (∀ asid va pa len perm : Word,
        let i := Instr.mapCmd asid va pa len perm
        let ok := rangeOk asid.toNat va.toNat len.toNat && mayMap pa.toNat len.toNat && permOk perm.toNat
        let u := putCmd (cmdWords 3 [asid.toNat, va.toNat, pa.toNat, len.toNat, perm.toNat]) s
        let p := mapPages asid.toNat va.toNat perm.toNat 0 (fun _ i => pa.toNat + 4096 * i) (len.toNat / 4096) u
        (ok = false → Answers i s fun t => answered t 2 [] false ∧ t.dram = s.dram)
        ∧ (ok = true → calm →
          (∀ w, p = some w → Answers i s fun t => answered t 0 [] false
            ∧ let v := resumeCovered asid.toNat va.toNat len.toNat w
              t.dram = v.dram ∧ t.ctxs = v.ctxs ∧ t.descs = v.descs ∧ t.fq = v.fq)
          ∧ (p = none → Answers i s fun t => answered t 3 [] false ∧ t.dram = s.dram))
        ∧ (ok = true → s.latent = [] →
          (∃ q ∈ pagesOf va.toNat len.toNat, ∃ k < 5, ∃ a ∈ tableReads k asid.toNat q u,
            poisoned a 8 u = true) →
          Answers i s fun t => answered t 4 [] false ∧ fld Sys.FATAL_CAUSE 7 0 t = 1))
      ∧ (∀ asid va len : Word,
        let u := putCmd (cmdWords 4 [asid.toNat, va.toNat, len.toNat]) s
        let p := unmapRange asid.toNat va.toNat len.toNat u
        (rangeOk asid.toNat va.toNat len.toNat = false → Answers (.unmapCmd asid va len) s fun t =>
          answered t 2 [] false ∧ t.dram = s.dram)
        ∧ (rangeOk asid.toNat va.toNat len.toNat = true → calm →
          (∀ w, p = some w → Answers (.unmapCmd asid va len) s fun t =>
            answered t 0 [] true ∧ t.dram = w.dram ∧ ∀ k < 5, bit (Mmu.TLBI_CTRL k) 2 t = true)
          ∧ (p = none → Answers (.unmapCmd asid va len) s fun t => answered t 3 [] false ∧ t.dram = s.dram)))
      ∧ (∀ st asid on : Word,
        let ok := streamOpen st.toNat && decide (asid.toNat < 65536) && decide (on.toNat ≤ 1)
        (ok = true → Answers (.setStream st asid on) s fun t =>
          answered t 0 [] false ∧ rd (Iommu.STE st.toNat) t = asid.toNat + 65536 * on.toNat)
        ∧ (ok = false → Answers (.setStream st asid on) s fun t => answered t 2 [] false))
      ∧ (∀ (port : Word) (g : BitVec 32) src,
        let named := ((src.map BitVec.toNat).take 8).filter (· ≠ 0)
        let its (q : Nat × Nat × List Nat) : Prop := q.1 = port.toNat ∧ q.2.1 = g.toNat
        (groupOk port.toNat g.toNat = false → ∀ i ∈ [Instr.joinGroup port g src, .leaveGroup port g src],
          Answers i s fun t => answered t 2 [] false ∧ t.host.groups = s.host.groups)
        ∧ (groupOk port.toNat g.toNat = true →
          (Answers (.joinGroup port g src) s fun t => answered t 0 [] false
            ∧ (∀ q, ¬ its q → (q ∈ t.host.groups ↔ q ∈ s.host.groups))
            ∧ ∀ q, its q → (q ∈ t.host.groups ↔ q.2.2 = named))
          ∧ Answers (.leaveGroup port g src) s fun t => answered t 0 [] false
            ∧ (∀ q, ¬ its q → (q ∈ t.host.groups ↔ q ∈ s.host.groups))
            ∧ (named = [] → ∀ q ∈ t.host.groups, ¬ its q)
            ∧ ∀ l, (port.toNat, g.toNat, l) ∈ s.host.groups → named ≠ [] →
              l.filter (fun a => !named.contains a) ≠ [] →
              (port.toNat, g.toNat, l.filter fun a => !named.contains a) ∈ t.host.groups))
      ∧ (∀ tlv, Answers (.readTlv tlv) s fun t => answered t 0 (wordsOf 16 tlv) false)
      ∧ (Answers .continueCmd s fun t => answered t 0 [] false
        ∧ (bit Sys.BOOT_STAGE 8 s = true → t.boot.contSent = true))
      ∧ (∀ slot addr : Word,
        let b := if slot.toNat = 0 then s.boot.firstSummary else s.boot.latestSummary
        (1 < slot.toNat ∨ hostDram addr.toNat b.length = false → Answers (.readSummary slot addr) s fun t =>
          answered t 2 [] false ∧ t.dram = s.dram)
        ∧ (slot.toNat ≤ 1 → hostDram addr.toNat b.length = true → sound addr.toNat b.length s = true →
          Answers (.readSummary slot addr) s fun t =>
            answered t 0 [b.length] false ∧ memBytes addr.toNat b.length t = b))
      ∧ ∀ mask : Word, (3 < mask.toNat → Answers (.clearSummary mask) s fun t => answered t 2 [] false)
        ∧ (mask.toNat ≤ 3 → Answers (.clearSummary mask) s fun t => answered t 0 [] false
          ∧ t.boot.firstSummary = (if mask.getLsbD 0 then [] else s.boot.firstSummary)
          ∧ t.boot.latestSummary = if mask.getLsbD 1 then [] else s.boot.latestSummary))

/-- R411, R415 to R421, R424, R428 to R430, R436, R437: an unaligned access is refused; BAR2 reads
and writes DRAM at its base, reads the dump, and neither reads nor writes Renro's memory; vectors
send once until acknowledged; notifications enter the ring, a FAULT entry with the copy of a record
of a fault queue (its layout: DESIGN CHOICE, log entry 106); a host reset gives the HOST block its reset values;
the link's speed; the AON copy; the dump's acknowledgement; filtered inputs. -/
def Obligations.HostAccessAndInputs : Prop :=
  ∀ s : State, shed s = false →
    (∀ off, Answers (.hostUr off) s fun t => bit Hst.HOST_ERR 0 t = true ∧ SameCue s t)
    ∧ (∀ (off : BitVec 32) (len : BitVec 13) (data : List Byte), hostAsleep .host s = false →
      let a := rd Hst.BAR2_BASE s + off.toNat
      let reads := Instr.bar2Access false off len [] .clean
      let writes := Instr.bar2Access true off len data .clean
      (off.toNat + len.toNat ≤ 2 ^ 32 → touches a len.toNat renroBase dumpBase = false →
        (sound a len.toNat s = true → Answers reads s fun t =>
          kget [] 0 t.host.readOut = memBytes a len.toNat s ∧ t.dram = s.dram)
        ∧ (s.latent = [] → poisoned a len.toNat s = true → Answers reads s fun t =>
          kget [] 0 t.host.readOut = memBytes a len.toNat s ∧ t.dram = s.dram
          ∧ bit Hst.HOST_ERR 4 t = true))
      ∧ (off.toNat + len.toNat ≤ 2 ^ 32 → touches a len.toNat renroBase dumpBase = true →
        Answers reads s fun t =>
          kget [] 0 t.host.readOut = [] ∧ t.dram = s.dram ∧ bit Hst.HOST_ERR 2 t = true)
      ∧ (off.toNat + data.length ≤ 2 ^ 32 → touches a data.length renroBase dumpEnd = false →
        sound a data.length s = true → Answers writes s fun t =>
          memBytes a data.length t = data
          ∧ ∀ b, ¬ (a ≤ b ∧ b < a + data.length) → memByte b t = memByte b s)
      ∧ (off.toNat + data.length ≤ 2 ^ 32 → touches a data.length renroBase dumpEnd = true →
        Answers writes s fun t => t.dram = s.dram ∧ bit Hst.HOST_ERR 2 t = true)
      ∧ (2 ^ 32 < off.toNat + data.length → Answers writes s fun t => t.dram = s.dram ∧ RegsBut [] s t))
    ∧ (∀ who (v : Word),
      (v.toNat % 0x40000000 = 0 → v.toNat ≤ 0x700000000 → Answers (.bar2BaseWrite who v) s fun t =>
        rd Hst.BAR2_BASE t = v.toNat ∧ RegsBut [Hst.BAR2_BASE.addr] s t
        ∧ heldLow who Hst.BAR2_BASE.addr t = none)
      ∧ (v.toNat % 0x40000000 ≠ 0 ∨ 0x700000000 < v.toNat → Answers (.bar2BaseWrite who v) s fun t =>
        rd Hst.BAR2_BASE t = rd Hst.BAR2_BASE s ∧ bit Hst.HOST_ERR 3 t = true))
    ∧ (∀ v : Fin 64, v.val < 62 →
      let sent (t : State) : Prop := inService v.val t = true
        ∧ hostBytes (rd (Hst.MSIX v.val 0) s + 2 ^ 32 * rd (Hst.MSIX v.val 1) s) 4 t
          = p4 (rd (Hst.MSIX v.val 2) s)
      let pba (t : State) : Bool := bit (Hst.MSIX_PBA (v.val / 32)) (v.val % 32) t
      (inService v.val s = false →
        (vecCond v.val s = true → vecMasked v.val s = false → Answers (.msixMessage v) s fun t =>
          sent t ∧ pba t = false)
        ∧ (vecCond v.val s = true → vecMasked v.val s = true → Answers (.msixMessage v) s fun t =>
          inService v.val t = false ∧ pba t = true ∧ t.hostMem = s.hostMem)
        ∧ (vecCond v.val s = false → Answers (.msixMessage v) s fun t =>
          inService v.val t = false ∧ pba t = false ∧ t.hostMem = s.hostMem)
        ∧ Answers (.vecAck (BitVec.ofFin v)) s fun t => t.host = s.host ∧ t.hostMem = s.hostMem)
      ∧ (inService v.val s = true →
        (Answers (.msixMessage v) s fun t => t.host = s.host ∧ t.hostMem = s.hostMem)
        ∧ (vecCond v.val s = false → Answers (.vecAck (BitVec.ofFin v)) s fun t =>
          inService v.val t = false ∧ t.hostMem = s.hostMem)
        ∧ (vecCond v.val s = true → vecMasked v.val s = false →
          Answers (.vecAck (BitVec.ofFin v)) s sent)
        ∧ (vecCond v.val s = true → vecMasked v.val s = true →
          Answers (.vecAck (BitVec.ofFin v)) s fun t =>
            inService v.val t = false ∧ pba t = true ∧ t.hostMem = s.hostMem)))
    ∧ (∀ (k : BitVec 8) body,
      let i := Instr.notificationWrite k body
      let n := ntfSize s
      let at' := rd Hst.NTF_TAIL s % n
      let enters (b : List Byte) (t : State) : Prop :=
        (bit Hst.NTF_CFG 8 s = true → ntfFull s = false →
          rd Hst.NTF_TAIL t = (at' + 1) % n ∧ bit Hst.INT_STATUS 1 t = true
          ∧ hostBytes (rd Hst.NTF_BASE s + 64 * at') 64 t = ntfBytes k.toNat s.host.ntfSeq b)
        ∧ (bit Hst.NTF_CFG 8 s = true → ntfFull s = true →
          rd Hst.NTF_LOST t = min (rd Hst.NTF_LOST s + 1) 0xFFFFFFFF ∧ t.hostMem = s.hostMem)
        ∧ (bit Hst.NTF_CFG 8 s = false → t.hostMem = s.hostMem ∧ RegsBut [] s t)
      (k = 2 ∨ k = 3 → Answers i s fun t => enters body t ∧ t.fq = s.fq)
      ∧ (k = 1 → (∀ q r, nextCopy s = some (q, r) → Answers i s fun t =>
          enters (faultBytes r ++ p1 q ++ body.drop 33) t
          ∧ (fqAt q t).toCopy = (fqAt q s).toCopy.drop 1 ∧ (fqAt q t).recs = (fqAt q s).recs)
        ∧ (nextCopy s = none → Answers i s fun t => t.hostMem = s.hostMem ∧ RegsBut [] s t))
      ∧ (k ≠ 1 → k ≠ 2 → k ≠ 3 → Answers i s fun t => t.hostMem = s.hostMem ∧ RegsBut [] s t))
    ∧ (∀ kind, Answers (.hostReset kind) s fun t => t.host.mbx = none ∧ t.host.inService = []
      ∧ (∀ r : Reg, hstBase ≤ r.addr → r.addr < hstBase + 0x2000 → rd r t = r.reset.toNat)
      ∧ (∀ h < 8, chState (64 + h) t = chIdle ∧ chEnabled (64 + h) t = false)
      ∧ (kind.val ≠ 3 → Logs 0x0D02 (p1 kind.val) s t) ∧ SameCue s t)
    ∧ (∀ speed width, Answers (.hostLinkUp speed width) s fun t =>
      fld Hst.HOST_STATUS 2 0 t = speed.val ∧ fld Hst.HOST_STATUS 6 4 t = width.val
      ∧ Logs 0x0D04 (p1 0 ++ p1 speed.val ++ p1 width.val) s t)
    ∧ (Answers .aonCopyRefresh s fun t => s.host.aonAt + realNs 1000000 ≤ t.clk ∧ t.host.aonAt = t.clk
      ∧ kget 0 Sys.PF_COUNT.addr t.host.aon = BitVec.ofNat 64 (rd Sys.PF_COUNT s)
      ∧ kget 0 Sys.FATAL_CAUSE.addr t.host.aon = BitVec.ofNat 64 (rd Sys.FATAL_CAUSE s))
    ∧ (∀ who (v : BitVec 32), Answers (.dumpAck who v) s fun t =>
      bit Sys.DUMP_STATUS 1 t = (bit Sys.DUMP_STATUS 1 s || v == 0xA5C3) ∧ SameCue s t)
    ∧ ∀ i : Fin 8,
      let k := i.val
      let g := gpiAt k s
      (∀ level : Bool,
        let act := level != bit (Sys.GPI_CFG k) 1 s
        (bit (Sys.GPI_CFG k) 0 s = false → Answers (.gpiSample i level) s fun t =>
          RegsBut [] s t ∧ t.gpi = s.gpi)
        ∧ (bit (Sys.GPI_CFG k) 0 s = true →
          (act = gpiActive k s → Answers (.gpiSample i level) s fun t =>
            gpiActive k t = gpiActive k s ∧ (gpiAt k t).count = 0 ∧ bit (Sys.GPI_STATUS k) 0 t = level
            ∧ rd (Sys.GPI_OVERSPEED k) t
              = (if 0 < g.count then min (rd (Sys.GPI_OVERSPEED k) s + 1) 0xFFFFFFFF
                else rd (Sys.GPI_OVERSPEED k) s))
          ∧ (act ≠ gpiActive k s → g.count < gpiFilter k s → Answers (.gpiSample i level) s fun t =>
            gpiActive k t = gpiActive k s ∧ (gpiAt k t).count = g.count + 1)
          ∧ (act ≠ gpiActive k s → gpiFilter k s ≤ g.count → Answers (.gpiSample i level) s fun t =>
            gpiActive k t = act ∧ (gpiAt k t).count = 0
            ∧ (act = true → rd (Sys.GPI_ACTS k) t = min (rd (Sys.GPI_ACTS k) s + 1) 0xFFFFFFFF
              ∧ rd (Sys.GPI_LAST k) t = g.stamp % 2 ^ 64 ∧ (gpiAt k t).activeAt = t.clk
              ∧ (bit (Sys.GPI_CFG k) 2 s = true → bit (Sys.GPI_INT k) 0 t = true))
            ∧ (act = false → gpiIsStuck k t = false))))
      ∧ (gpiActive k s = true → gpiIsStuck k s = false → fld (Sys.GPI_STUCK k) 15 0 s ≠ 0 →
        Answers (.gpiStuck i) s fun t => gpiIsStuck k t = true ∧ bit (Sys.GPI_INT k) 1 t = true
          ∧ g.activeAt + realNs (1000000 * fld (Sys.GPI_STUCK k) 15 0 s) ≤ t.clk ∧ Logs 0x0106 (p1 k) s t)

/-- R442 to R447, R449, R450, R452: the update commands as they start (with what turns each away)
and as they end, confirmation, activation by warm reset or live, its pause and its end, the
settings log and what its wrap keeps. -/
def Obligations.UpdateCommands : Prop :=
  ∀ (who : Req) (s : State), shed s = false →
    let i := inactive s
    let x := slotOf i s
    let a := rd Upd.UPD_ARG0 s
    let h := memBytes a 256 s
    let k := rd Upd.UPD_ARG1 s
    let live := mayGoLive i (k.testBit 0) s
    let runs (t : State) (r : UpdRun) : Prop := t.upd.cmd = some r ∧ bit Upd.UPD_CMD_STATUS 0 t = true
    let refused (j : Instr) (op result : Nat) : Prop := Answers j s fun t =>
      runs t ⟨op, result, 0, [], 0, 0, 0⟩ ∧ t.upd.boot = s.upd.boot ∧ slotOf i t = x
    let restarts (t : State) : Prop := fld Sys.RESET_CAUSE 3 0 t = 4 ∧ t.ctxs = [] ∧ t.dram = s.dram
    (bit Upd.UPD_CMD_STATUS 0 s = true → ∀ b c d, ∀ j ∈ [Instr.beginCmd who b c, .chunk who b,
        .verify who b c d, .activate who, .confirm who, .revertCmd who, .abortCmd who],
      Answers j s fun t => t.upd = s.upd ∧ bit Upd.UPD_ERR 0 t = true)
    ∧ (bit Upd.UPD_CMD_STATUS 0 s = false →
      (∀ sig flash, let j := Instr.beginCmd who sig flash
        (x.st = stTrial → refused j 1 rBadState)
        ∧ (x.st ≠ stTrial → isDram a 256 = false → refused j 1 rBadCmd)
        ∧ (x.st ≠ stTrial → isDram a 256 = true →
          (∀ why, imageFault h sig true true s = some why → Answers j s fun t =>
            runs t ⟨1, why.2, 0x0B03, p1 why.1, 2, 0, 0⟩ ∧ slotOf i t = x)
          ∧ (imageFault h sig true true s = none →
            (flash = false → refused j 1 rFlashErr)
            ∧ (flash = true → ¬ (x.st = stDownloading ∧ x.header = h) → Answers j s fun t =>
              runs t ⟨1, 0, 0x0B01, p4 (fwVersion h) ++ p1 1, 2, 0, 0⟩ ∧ (slotOf i t).st = stDownloading
              ∧ (slotOf i t).header = h ∧ (slotOf i t).marks = []
              ∧ fld Upd.UPD_STATUS (10 + 4 * i) (8 + 4 * i) t = 1)
            ∧ (flash = true → x.st = stDownloading → x.header = h → Answers j s fun t =>
              runs t ⟨1, 0, 0x0B01, p4 (fwVersion h) ++ p1 0, 2, 0, 0⟩ ∧ (slotOf i t).header = h
              ∧ (slotOf i t).marks = goodMarks x ∧ (slotOf i t).chunks = x.chunks))))
      ∧ (∀ flash, let j := Instr.chunk who flash
        (x.st ≠ stDownloading → refused j 2 rBadState)
        ∧ (x.st = stDownloading → chunkCount x.header ≤ k ∨ isDram a 65536 = false → refused j 2 rBadCmd)
        ∧ (x.st = stDownloading → k < chunkCount x.header → isDram a 65536 = true →
          (flash = true → Answers j s fun t => runs t ⟨2, 0, 0, [], i, k, 0⟩
            ∧ kget [] k (slotOf i t).chunks = memBytes a (chunkLen x.header k) s)
          ∧ (flash = false → Answers j s fun t => runs t ⟨2, rFlashErr, 0, [], 0, 0, 0⟩
            ∧ kget 0 k (slotOf i t).marks = 0 ∧ (slotOf i t).chunks = x.chunks)))
      ∧ (∀ sig hash tag, let j := Instr.verify who sig hash tag
        let may := (x.st = stDownloaded ∨ x.st = stVerified) ∧ allMarked x = true
        (¬ may → refused j 3 rBadState)
        ∧ (may → imageFault x.header sig hash tag s = none → Answers j s fun t =>
          runs t ⟨3, 0, 0x0B02, [], i, 0, stVerified⟩)
        ∧ (may → ∀ why, imageFault x.header sig hash tag s = some why → Answers j s fun t =>
          runs t ⟨3, why.2, 0x0B03, p1 why.1, i, 0, stBad⟩))
      ∧ (x.st = stVerified → s.red.switch = none →
        (live = false → Answers (.activate who) s fun t =>
          restarts t ∧ t.upd.boot.active = i ∧ t.upd.boot.trial = true ∧ t.upd.boot.tries = 0
          ∧ (slotOf i t).st = stTrial)
        ∧ (live = true → Answers (.activate who) s fun t =>
          t.upd.act = some ⟨i, portModes s, runningSlices s, false⟩ ∧ t.upd.boot = s.upd.boot
          ∧ runs t ⟨4, 0, 0, [], i, 0, 1⟩))
      ∧ (x.st ≠ stVerified ∨ s.red.switch ≠ none → refused (.activate who) 4 rBadState)
      ∧ (let may := running s < 2 ∧ x.st ≠ stEmpty ∧ x.st ≠ stDownloading ∧ x.st ≠ stBad
        (may → live = false → Answers (.revertCmd who) s fun t =>
          restarts t ∧ t.upd.boot.active = i ∧ t.upd.boot.trial = false)
        ∧ (may → live = true → Answers (.revertCmd who) s fun t =>
          t.upd.act = some ⟨i, portModes s, runningSlices s, false⟩ ∧ t.upd.boot = s.upd.boot
          ∧ runs t ⟨6, 0, 0, [], i, 0, 0⟩)
        ∧ (¬ may → refused (.revertCmd who) 6 rBadState))
      ∧ (mayConfirm s = true → Answers (.confirm who) s fun t =>
        runs t ⟨5, 0, 0x0B05, p1 0, 2, 0, 0⟩ ∧ onTrial t = false ∧ t.upd.boot.trial = false
        ∧ t.upd.boot.active = running s ∧ (slotOf (running s) t).st = stConfirmed)
      ∧ (mayConfirm s = false → refused (.confirm who) 5 rBadState)
      ∧ (let may := x.st = stDownloading ∨ x.st = stDownloaded ∨ x.st = stVerified
        (may → Answers (.abortCmd who) s fun t =>
          runs t ⟨7, 0, 0, [], 0, 0, 0⟩ ∧ (slotOf i t).st = stEmpty ∧ (slotOf i t).marks = [])
        ∧ (¬ may → refused (.abortCmd who) 7 rBadState)))
    ∧ (∀ r, s.upd.cmd = some r → s.upd.act = none → r.result < 256 → Answers .updCmdDone s fun t =>
      t.upd.cmd = none ∧ rd Upd.UPD_CMD_STATUS t = 256 * r.result ∧ bit Upd.INT_STATUS 0 t = true
      ∧ (r.op = 3 → r.st ≠ 0 → (slotOf r.slot t).st = r.st)
      ∧ (r.op = 2 → r.result = rOk →
        kget 0 r.idx (slotOf r.slot t).marks = crc32c (kget [] r.idx (slotOf r.slot s).chunks) + 1))
    ∧ (mayConfirm s = true → bit Upd.UPD_CTRL 0 s = true → 60 ≤ rd Upd.TRIAL_HEALTHY s →
      Answers .autoConfirm s fun t => onTrial t = false ∧ t.upd.boot.trial = false
        ∧ rd Upd.SEC_COUNTER t = max (rd Upd.SEC_COUNTER s) (secVersion (slotOf (running s) s).header))
    ∧ (mayConfirm s = false ∨ bit Upd.UPD_CTRL 0 s = false ∨ rd Upd.TRIAL_HEALTHY s < 60 →
      Answers .autoConfirm s fun t => t.upd = s.upd ∧ RegsBut [] s t)
    ∧ (onTrial s = true → Answers .trialHealthySecond s fun t =>
      s.upd.healthAt + realNs oneSecond ≤ t.clk ∧ t.upd.broken = false
      ∧ rd Upd.TRIAL_HEALTHY t = if healthy s then min 0xFFFFFFFF (rd Upd.TRIAL_HEALTHY s + 1) else 0)
    ∧ (∀ c, s.upd.act = some c → frozen s = false →
      (c.paused = false → holdReached c s = true → Answers .activationPause s fun t =>
        t.upd.act = some { c with paused := true } ∧ bit Led.LED_CTRL 2 t = true ∧ t.upd.boot.active = c.target)
      ∧ (c.paused = true ∨ holdReached c s = false → Answers .activationPause s fun t => t.upd = s.upd)
      ∧ ∀ adopts cs fails,
        (c.paused = false → ∀ ok, Answers (.activationResume ok adopts cs fails) s fun t => t.upd = s.upd)
        ∧ (c.paused = true →
          (Answers (.activationResume true true cs fails) s fun t =>
            t.upd.act = none ∧ bit Led.LED_CTRL 2 t = false ∧ t.dram = s.dram)
          ∧ Answers (.activationResume true false cs fails) s restarts
          ∧ Answers (.activationResume false adopts cs fails) s fun t =>
            restarts t ∧ (slotOf c.target t).st = stBad))
    ∧ ∀ (bytes : BitVec 32) (changes : List SetObj),
      let j := Instr.settingsWrite bytes changes
      let u := settingsHop (applySettings changes s)
      (u.upd.dirty = true ∨ u.upd.urgent = true →
        u.upd.urgent = true ∨ todayBytes u + bytes.toNat ≤ dailyBytes →
        Answers j s fun t =>
          (∃ g ∈ t.upd.gens, g.gen = highestGen s + 1 ∧ g.data = t.upd.cur ∧ g.size = bytes.toNat
            ∧ g.ok0 = true ∧ g.ok1 = true
            ∧ (∀ o ∈ t.upd.gens, o ∈ s.upd.gens ∨ o = g)
            ∧ (∀ o ∈ s.upd.gens, o.ver ≠ g.ver → (∀ p ∈ s.upd.gens, p.ver = o.ver → p.gen ≤ o.gen) →
              o ∈ t.upd.gens)
            ∧ (((s.upd.gens.map (·.size)).foldl (· + ·) 0) + g.size ≤ sectorSize * logSectors →
              t.upd.gens = s.upd.gens ++ [g]))
          ∧ t.upd.cur = (changes.foldl (fun u o => applySetting o u) s.upd).cur
          ∧ t.upd.dirty = false ∧ t.upd.urgent = false
          ∧ (s.upd.urgent = false → s.upd.genAt + realNs 10000000000 ≤ t.clk))
      ∧ (u.upd.urgent = false → u.upd.dirty = true → dailyBytes < todayBytes u + bytes.toNat →
        Answers j s fun t => t.upd.gens = s.upd.gens ∧ t.upd.dirty = true)

/-- R316, R422, R423, R425, R426, R431 to R434, R436, R463 to R469, R483: start-up steps 4, 7, 8
(where it waits) and 9; warm resets and what they keep; the fatal sequence, its dump and its
summaries; the power-fail warning, the rails off, power restored and power-on. -/
def Obligations.StartUpFatalsPower : Prop :=
  ∀ s : State,
    let fatals (cause : Nat) (t : State) : Prop := t.boot.fatalStep = 1 ∧ roleOf t = rFatal
      ∧ ownsSinks t = false ∧ fld Sys.FATAL_CAUSE 7 0 t = cause
      ∧ rd Sys.FATAL_COUNT t = min (rd Sys.FATAL_COUNT s + 1) 0xFFFFFFFF
    let warm (cause : Nat) (t : State) : Prop := fld Sys.RESET_CAUSE 3 0 t = cause
      ∧ fld Sys.RESET_CAUSE 15 8 t = min 255 (fld Sys.RESET_CAUSE 15 8 s + 1) ∧ t.ctxs = [] ∧ t.descs = []
      ∧ t.tlm = [] ∧ roleOf t = rSeeking
    let uncut := mayCommit s = false ∧ s.rcd.erase = none
    (shed s = false → frozen s = false →
      (s.boot.quartz = false → bootHeld s = false → ∀ u,
        (bootStep s = 3 → Answers (.startupStep u) s fun t =>
          let a := renroBase + 4096 * u.tables.toNat
          rd Sys.BOOT_STAGE t = 4 ∧ (∀ k < 5, rd (Mmu.MMU_CTRL k) t = 1
            ∧ rd (Mmu.ASID_TABLE_BASE k) t = a + 0x80000 * k) ∧ t.host.nextTable = a + 5 * 0x80000
          ∧ Bypass 0xA0 t)
        ∧ (bootStep s = 6 → Answers (.startupStep u) s fun t =>
          bootStep t = 7 ∧ t.boot.step7At = t.clk)
        ∧ (bootStep s = 7 → nodesReady s = false ∨ timeReady s = false ∨ (∃ sl < 4, inBezelNow sl s = true) →
          Answers (.startupStep u) s fun t => RegsBut [] s t ∧ t.boot = s.boot)
        ∧ (bootStep s = 8 → bit Red.RED_CTRL 0 s = true → Answers (.startupStep u) s fun t =>
          rd Sys.BOOT_STAGE t = 9 ∧ roleOf t = rSeeking ∧ t.red.paired = true)
        ∧ (bootStep s = 8 → bit Red.RED_CTRL 0 s = false → ilkInLive s = false → s.red.handover = none →
          Answers (.startupStep u) s fun t =>
            rd Sys.BOOT_STAGE t = 9 ∧ roleOf t = rSolo ∧ ownsSinks t = true
            ∧ t.upd.cur.epoch = min (max s.upd.cur.epoch s.red.heard + 1) 0xFFFF))
      ∧ (s.boot.quartz = true ∨ bootHeld s = true → ∀ u, Answers (.startupStep u) s fun t =>
        RegsBut [] s t ∧ t.boot = s.boot)
      ∧ (∀ (c : Fin 6) detail, c.val ≠ 0 → Answers (.fatal c detail) s (fatals c.val))
      ∧ (Answers .watchdogExpiry s fun t => fatals 3 t ∧ s.boot.watchdogAt + realNs 500000000 ≤ t.clk)
      ∧ ∀ g j t' : Fin 5, g ≠ j → j ≠ t' → g ≠ t' → Answers (.supervisorDisagree g j t') s fun t =>
        fatals 2 t ∧ rd Red.LANE_VOTES t = (g.val + 16 * j.val + 256 * t'.val) &&& 0x777)
    ∧ (shed s = false → frozen s = true → ∀ (c : Fin 6) detail, c.val ≠ 0 →
      Answers (.fatal c detail) s fun t => t.boot.later = min 255 (s.boot.later + 1)
        ∧ rd Sys.FATAL_COUNT t = min (rd Sys.FATAL_COUNT s + 1) 0xFFFFFFFF ∧ t.boot.fatalStep = s.boot.fatalStep)
    ∧ (shed s = false → ∀ fw,
      (s.boot.fatalStep = 1 → dumpWaits s = false → Answers (.dumpWritten fw) s fun t =>
        t.boot.fatalStep = 7 ∧ t.boot.dumpKept = false ∧ rd Sys.DUMP_STATUS t = (1 + 256 * s.boot.later) % 2 ^ 64
        ∧ memBytes dumpRegion 4 t = [0x54, 0x4B, 0x44, 0x50])
      ∧ (s.boot.fatalStep = 1 → dumpWaits s = true → Answers (.dumpWritten fw) s fun t =>
        t.boot.fatalStep = 7 ∧ t.boot.dumpKept = true
        ∧ fld Sys.DUMP_STATUS 15 8 t = min 255 (laterInDump s + 1 + s.boot.later))
      ∧ (s.boot.fatalStep = 7 → s.upd.cur.fatalRestart = false → Answers (.fatalSummaryDone fw) s fun t =>
        t.boot.fatalStep = 8 ∧ 64 ≤ t.boot.latestSummary.length
        ∧ t.boot.firstSummary = (if s.boot.firstSummary = [] then t.boot.latestSummary else s.boot.firstSummary)
        ∧ bit Sys.SYS_INT_STATUS 2 t = true)
      ∧ (s.boot.fatalStep = 7 → s.upd.cur.fatalRestart = true → Answers (.fatalSummaryDone fw) s fun t =>
        warm 2 t ∧ 64 ≤ t.boot.latestSummary.length))
    ∧ (∀ who (v : BitVec 32),
      (bitsOf v.toNat 31 16 = 0x5A17 → v.getLsbD 0 = true → Answers (.sysReset who v) s fun t =>
        warm 1 t ∧ t.dram = s.dram ∧ t.clk = s.clk ∧ t.cnt = s.cnt)
      ∧ (bitsOf v.toNat 31 16 ≠ 0x5A17 ∨ v.getLsbD 0 = false → Answers (.sysReset who v) s fun t =>
        RegsBut [] s t ∧ SameCue s t))
    ∧ (∀ vin power, shed s = false → Answers (.powerFail vin power) s fun t =>
      t.power.warnAt = some s.clk ∧ shed t = true ∧ roleOf t = rFatal ∧ ownsSinks t = false
      ∧ bit Sys.PWR_STATUS 1 t = true ∧ bit Sys.PWR_STATUS 0 t = false
      ∧ rd Sys.PF_COUNT t = min (rd Sys.PF_COUNT s + 1) 0xFFFFFFFF)
    ∧ (Answers .shutOff s fun t => t.power.off = true ∧ t.dram = [] ∧ t.ctxs = [] ∧ t.cnt = 0
      ∧ (uncut → t.rcd.store = s.rcd.store) ∧ t.upd.gens = s.upd.gens)
    ∧ (∀ w, s.power.warnAt = some w →
      (s.power.tripped = false → Answers .powerRestored s fun t =>
        warm 3 t ∧ t.dram = s.dram ∧ t.power.restored = some ((s.clk - w) / 10)
        ∧ s.clk + realNs 10000000 ≤ t.clk ∧ shed t = false)
      ∧ (s.power.tripped = true → Answers .powerRestored s fun t =>
        bit Sys.PWR_STATUS 0 t = true ∧ t.power = s.power))
    ∧ (s.power.off = true → ∀ charge : BitVec 32, Answers (.powerOnReset charge) s fun t =>
      t.power.off = false ∧ t.dram = [] ∧ t.cnt = 0 ∧ rd Sys.HOLDUP_UF t = holdupUf charge.toNat
      ∧ (holdupUf charge.toNat < 2200 → bit Sys.PWR_STATUS 4 t = true)
      ∧ (uncut → t.rcd.store = s.rcd.store))
    ∧ (s.power.off = false → ∀ v : BitVec 32,
      (Answers (.vinOver v) s fun t => bit Sys.PWR_STATUS 2 t = decide (75000 < v.toNat) ∧ SameCue s t)
      ∧ Answers (.ovCutoff v) s fun t => bit Sys.PWR_STATUS 3 t = true ∧ Logs 0x0113 (p4 v.toNat) s t)
    ∧ (Answers .ovRejoin s fun t => bit Sys.PWR_STATUS 3 t = false ∧ SameCue s t)
    ∧ ∀ who, Answers (.pwrClear who) s fun t => rd Sys.VIN_MIN t = rd Sys.VIN_NOW s
      ∧ rd Sys.TEMP_PEAK t = unsgn 16 (maxInt (dieTemps s)) ∧ SameCue s t
end

