-- ==== Sys2Proof/Laws/KMap.lean ====
section
/-! SUPPORT. What reading and writing sparse data does. -/

namespace Sys2Proof.Machine

variable {β : Type}

@[simp] theorem kget_nil (d : β) (k : Nat) : kget d k [] = d := rfl

theorem kget_kdel_same (d : β) (k : Nat) (m : KMap β) : kget d k (kdel k m) = d := by
  induction m with
  | nil => rfl
  | cons p t ih =>
    obtain ⟨k', v⟩ := p
    by_cases h : k' = k <;> simp [kdel, kget, h, ih]

theorem kget_kdel_other (d : β) {k j : Nat} (h : j ≠ k) (m : KMap β) :
    kget d j (kdel k m) = kget d j m := by
  induction m with
  | nil => rfl
  | cons p t ih =>
    obtain ⟨k', v⟩ := p
    by_cases h1 : k' = k
    · have : ¬ k' = j := by omega
      simp [kdel, kget, h1, ih, Ne.symm h]
    · simp [kdel, kget, h1, ih]

theorem kget_kins_other (d : β) {k j : Nat} (h : j ≠ k) (v : β) (m : KMap β) :
    kget d j (kins k v m) = kget d j m := by
  induction m with
  | nil => simp [kins, kget, Ne.symm h]
  | cons p t ih =>
    obtain ⟨k', v'⟩ := p
    by_cases h1 : k < k'
    · simp [kins, h1, kget, Ne.symm h]
    · simp [kins, h1, kget, ih]

theorem kget_kins_same (d : β) (k : Nat) (v : β) (m : KMap β) (h : ∀ p ∈ m, p.1 ≠ k) :
    kget d k (kins k v m) = v := by
  induction m with
  | nil => simp [kins, kget]
  | cons p t ih =>
    obtain ⟨k', v'⟩ := p
    have h0 : k' ≠ k := h (k', v') (by simp)
    by_cases h1 : k < k'
    · simp [kins, h1, kget]
    · simp [kins, h1, kget, h0, ih (fun q hq => h q (by simp [hq]))]

theorem kdel_ne (k : Nat) (m : KMap β) : ∀ p ∈ kdel k m, p.1 ≠ k := by
  induction m with
  | nil => simp [kdel]
  | cons p t ih =>
    obtain ⟨k', v'⟩ := p
    by_cases h : k' = k
    · simpa [kdel, h] using ih
    · intro q hq
      simp only [kdel, h, if_false, List.mem_cons] at hq
      rcases hq with rfl | hq
      · exact h
      · exact ih q hq

/-- A read after a write to the same key gives the value written. -/
@[simp] theorem kget_kset_same [DecidableEq β] (d : β) (k : Nat) (v : β) (m : KMap β) :
    kget d k (kset d k v m) = v := by
  unfold kset
  split
  · next h => rw [kget_kdel_same, h]
  · exact kget_kins_same d k v _ (kdel_ne k m)

/-- A write leaves every other key alone. -/
@[simp] theorem kget_kset_other [DecidableEq β] (d d' : β) {k j : Nat} (h : j ≠ k) (v : β)
    (m : KMap β) : kget d j (kset d' k v m) = kget d j m := by
  unfold kset
  split
  · exact kget_kdel_other d h m
  · rw [kget_kins_other d h, kget_kdel_other d h]

theorem kdel_sub (k : Nat) (m : KMap β) : ∀ p ∈ kdel k m, p ∈ m := by
  induction m with
  | nil => simp [kdel]
  | cons p t ih =>
    obtain ⟨k', v'⟩ := p
    intro q hq
    by_cases h : k' = k
    · simp only [kdel, h, if_true] at hq; exact List.mem_cons_of_mem _ (ih q hq)
    · simp only [kdel, h, if_false, List.mem_cons] at hq
      rcases hq with rfl | hq
      · simp
      · exact List.mem_cons_of_mem _ (ih q hq)

theorem kdel_wf (d : β) (k : Nat) (m : KMap β) (h : KWf d m) : KWf d (kdel k m) := by
  induction m with
  | nil => exact h
  | cons p t ih =>
    obtain ⟨k', v'⟩ := p
    obtain ⟨h1, h2⟩ := h
    simp only [List.map_cons, List.pairwise_cons] at h1
    have ht : KWf d t := ⟨h1.2, fun q hq => h2 q (by simp [hq])⟩
    have ih' := ih ht
    by_cases hk : k' = k
    · simpa [kdel, hk] using ih'
    · refine ⟨?_, ?_⟩
      · simp only [kdel, hk, if_false, List.map_cons, List.pairwise_cons]
        refine ⟨fun a ha => ?_, ih'.1⟩
        obtain ⟨q, hq, rfl⟩ := List.mem_map.1 ha
        exact h1.1 _ (List.mem_map.2 ⟨q, kdel_sub k t q hq, rfl⟩)
      · intro q hq
        exact h2 q (by simpa using kdel_sub k ((k', v') :: t) q hq)

theorem kins_mem (k : Nat) (v : β) (m : KMap β) : ∀ p ∈ kins k v m, p = (k, v) ∨ p ∈ m := by
  induction m with
  | nil => simp [kins]
  | cons p t ih =>
    obtain ⟨k', v'⟩ := p
    intro q hq
    by_cases h : k < k'
    · simp only [kins, h, if_true, List.mem_cons] at hq ⊢; exact hq
    · simp only [kins, h, if_false, List.mem_cons] at hq
      rcases hq with rfl | hq
      · right; simp
      · rcases ih q hq with h | h
        · exact .inl h
        · right; simp [h]

theorem kins_wf (d : β) (k : Nat) (v : β) (m : KMap β) (hv : v ≠ d) (h : KWf d m)
    (hk : ∀ p ∈ m, p.1 ≠ k) : KWf d (kins k v m) := by
  induction m with
  | nil => exact ⟨by simp [kins], by simpa [kins] using hv⟩
  | cons p t ih =>
    obtain ⟨k', v'⟩ := p
    have h0 : k' ≠ k := hk (k', v') (by simp)
    obtain ⟨h1, h2⟩ := h
    simp only [List.map_cons, List.pairwise_cons] at h1
    by_cases hlt : k < k'
    · refine ⟨?_, ?_⟩
      · simp only [kins, hlt, if_true, List.map_cons, List.pairwise_cons]
        refine ⟨fun a ha => ?_, h1.1, h1.2⟩
        simp only [List.mem_cons] at ha
        rcases ha with rfl | ha
        · exact hlt
        · exact Nat.lt_trans hlt (h1.1 a ha)
      · intro q hq
        rcases kins_mem k v _ q hq with rfl | hq
        · exact hv
        · exact h2 q hq
    · have ht : KWf d t := ⟨h1.2, fun q hq => h2 q (by simp [hq])⟩
      have ih' := ih ht (fun q hq => hk q (by simp [hq]))
      refine ⟨?_, ?_⟩
      · simp only [kins, hlt, if_false, List.map_cons, List.pairwise_cons]
        refine ⟨fun a ha => ?_, ih'.1⟩
        obtain ⟨q, hq, rfl⟩ := List.mem_map.1 ha
        rcases kins_mem k v t q hq with rfl | hq
        · simp only; omega
        · exact h1.1 _ (List.mem_map.2 ⟨q, hq, rfl⟩)
      · intro q hq
        rcases kins_mem k v _ q hq with rfl | hq
        · exact hv
        · exact h2 q hq

/-- A write keeps the canonical form. -/
theorem kset_wf [DecidableEq β] (d : β) (k : Nat) (v : β) (m : KMap β) (h : KWf d m) :
    KWf d (kset d k v m) := by
  unfold kset
  split
  · exact kdel_wf d k m h
  · next hv => exact kins_wf d k v _ hv (kdel_wf d k m h) (kdel_ne k m)

theorem kupd_wf [DecidableEq β] (d : β) (k : Nat) (f : β → β) (m : KMap β) (h : KWf d m) :
    KWf d (kupd d k f m) := kset_wf d k _ m h

theorem kwf_nil (d : β) : KWf d ([] : KMap β) := ⟨List.Pairwise.nil, by simp⟩

end Sys2Proof.Machine
end

