-- ==== Sys2Proof/Laws/State.lean ====
section
/-! SUPPORT. What each update of the state does to each of its fields: it sets its own and leaves
the others. -/

namespace Sys2Proof.Machine

@[simp] theorem wr_clk (r : Reg) (v : Nat) (s : State) : (wr r v s).clk = s.clk := rfl
@[simp] theorem wr_upBase (r : Reg) (v : Nat) (s : State) : (wr r v s).upBase = s.upBase := rfl
@[simp] theorem wr_cnt (r : Reg) (v : Nat) (s : State) : (wr r v s).cnt = s.cnt := rfl
@[simp] theorem wr_freeCtr (r : Reg) (v : Nat) (s : State) : (wr r v s).freeCtr = s.freeCtr := rfl
@[simp] theorem wr_armed (r : Reg) (v : Nat) (s : State) : (wr r v s).armed = s.armed := rfl
@[simp] theorem wr_heldLow (r : Reg) (v : Nat) (s : State) : (wr r v s).heldLow = s.heldLow := rfl
@[simp] theorem wr_setNow (r : Reg) (v : Nat) (s : State) : (wr r v s).setNow = s.setNow := rfl
@[simp] theorem wr_lastIssue (r : Reg) (v : Nat) (s : State) : (wr r v s).lastIssue = s.lastIssue := rfl
@[simp] theorem wr_issuedAt (r : Reg) (v : Nat) (s : State) : (wr r v s).issuedAt = s.issuedAt := rfl
@[simp] theorem wr_woke (r : Reg) (v : Nat) (s : State) : (wr r v s).woke = s.woke := rfl
@[simp] theorem wr_crcTurns (r : Reg) (v : Nat) (s : State) : (wr r v s).crcTurns = s.crcTurns := rfl
@[simp] theorem wr_edges (r : Reg) (v : Nat) (s : State) : (wr r v s).edges = s.edges := rfl
@[simp] theorem wr_latent (r : Reg) (v : Nat) (s : State) : (wr r v s).latent = s.latent := rfl
@[simp] theorem wr_walkCache (r : Reg) (v : Nat) (s : State) : (wr r v s).walkCache = s.walkCache := rfl
@[simp] theorem wr_tlbis (r : Reg) (v : Nat) (s : State) : (wr r v s).tlbis = s.tlbis := rfl
@[simp] theorem wr_capture (r : Reg) (v : Nat) (s : State) : (wr r v s).capture = s.capture := rfl
@[simp] theorem wr_rcd (r : Reg) (v : Nat) (s : State) : (wr r v s).rcd = s.rcd := rfl
@[simp] theorem wr_tl (r : Reg) (v : Nat) (s : State) : (wr r v s).tl = s.tl := rfl
@[simp] theorem wr_slices (r : Reg) (v : Nat) (s : State) : (wr r v s).slices = s.slices := rfl
@[simp] theorem wr_ports (r : Reg) (v : Nat) (s : State) : (wr r v s).ports = s.ports := rfl
@[simp] theorem wr_ctxs (r : Reg) (v : Nat) (s : State) : (wr r v s).ctxs = s.ctxs := rfl
@[simp] theorem wr_tlm (r : Reg) (v : Nat) (s : State) : (wr r v s).tlm = s.tlm := rfl
@[simp] theorem wr_dcache (r : Reg) (v : Nat) (s : State) : (wr r v s).dcache = s.dcache := rfl
@[simp] theorem wr_descs (r : Reg) (v : Nat) (s : State) : (wr r v s).descs = s.descs := rfl
@[simp] theorem wr_sched (r : Reg) (v : Nat) (s : State) : (wr r v s).sched = s.sched := rfl
@[simp] theorem wr_dram (r : Reg) (v : Nat) (s : State) : (wr r v s).dram = s.dram := rfl
@[simp] theorem wr_poison (r : Reg) (v : Nat) (s : State) : (wr r v s).poison = s.poison := rfl
@[simp] theorem wr_tlb (r : Reg) (v : Nat) (s : State) : (wr r v s).tlb = s.tlb := rfl
@[simp] theorem wr_fq (r : Reg) (v : Nat) (s : State) : (wr r v s).fq = s.fq := rfl
@[simp] theorem wr_chans (r : Reg) (v : Nat) (s : State) : (wr r v s).chans = s.chans := rfl
@[simp] theorem wr_dmaTurn (r : Reg) (v : Nat) (s : State) : (wr r v s).dmaTurn = s.dmaTurn := rfl
@[simp] theorem wr_scrubAt (r : Reg) (v : Nat) (s : State) : (wr r v s).scrubAt = s.scrubAt := rfl
@[simp] theorem wr_fetchers (r : Reg) (v : Nat) (s : State) : (wr r v s).fetchers = s.fetchers := rfl
@[simp] theorem wr_store (r : Reg) (v : Nat) (s : State) : (wr r v s).store = s.store := rfl
@[simp] theorem wr_storeBad (r : Reg) (v : Nat) (s : State) : (wr r v s).storeBad = s.storeBad := rfl
@[simp] theorem wr_marks (r : Reg) (v : Nat) (s : State) : (wr r v s).marks = s.marks := rfl
@[simp] theorem wr_trunk (r : Reg) (v : Nat) (s : State) : (wr r v s).trunk = s.trunk := rfl
@[simp] theorem wr_time (r : Reg) (v : Nat) (s : State) : (wr r v s).time = s.time := rfl
@[simp] theorem wr_net (r : Reg) (v : Nat) (s : State) : (wr r v s).net = s.net := rfl
@[simp] theorem wr_red (r : Reg) (v : Nat) (s : State) : (wr r v s).red = s.red := rfl
@[simp] theorem wr_led (r : Reg) (v : Nat) (s : State) : (wr r v s).led = s.led := rfl
@[simp] theorem wr_adc (r : Reg) (v : Nat) (s : State) : (wr r v s).adc = s.adc := rfl
@[simp] theorem wr_cal (r : Reg) (v : Nat) (s : State) : (wr r v s).cal = s.cal := rfl
@[simp] theorem wr_upd (r : Reg) (v : Nat) (s : State) : (wr r v s).upd = s.upd := rfl
@[simp] theorem wr_power (r : Reg) (v : Nat) (s : State) : (wr r v s).power = s.power := rfl
@[simp] theorem wr_boot (r : Reg) (v : Nat) (s : State) : (wr r v s).boot = s.boot := rfl
@[simp] theorem wr_gpi (r : Reg) (v : Nat) (s : State) : (wr r v s).gpi = s.gpi := rfl
@[simp] theorem wr_host (r : Reg) (v : Nat) (s : State) : (wr r v s).host = s.host := rfl
@[simp] theorem wr_crcBusy (r : Reg) (v : Nat) (s : State) : (wr r v s).crcBusy = s.crcBusy := rfl
@[simp] theorem wr_hostMem (r : Reg) (v : Nat) (s : State) : (wr r v s).hostMem = s.hostMem := rfl
@[simp] theorem wr_pending (r : Reg) (v : Nat) (s : State) : (wr r v s).pending = s.pending := rfl

@[simp] theorem logBy_clk (o c i : Nat) (p : List Byte) (s : State) : (logBy o c i p s).clk = s.clk := rfl
@[simp] theorem logBy_upBase (o c i : Nat) (p : List Byte) (s : State) : (logBy o c i p s).upBase = s.upBase := rfl
@[simp] theorem logBy_cnt (o c i : Nat) (p : List Byte) (s : State) : (logBy o c i p s).cnt = s.cnt := rfl
@[simp] theorem logBy_freeCtr (o c i : Nat) (p : List Byte) (s : State) : (logBy o c i p s).freeCtr = s.freeCtr := rfl
@[simp] theorem logBy_regs (o c i : Nat) (p : List Byte) (s : State) : (logBy o c i p s).regs = s.regs := rfl
@[simp] theorem logBy_armed (o c i : Nat) (p : List Byte) (s : State) : (logBy o c i p s).armed = s.armed := rfl
@[simp] theorem logBy_heldLow (o c i : Nat) (p : List Byte) (s : State) : (logBy o c i p s).heldLow = s.heldLow := rfl
@[simp] theorem logBy_setNow (o c i : Nat) (p : List Byte) (s : State) : (logBy o c i p s).setNow = s.setNow := rfl
@[simp] theorem logBy_lastIssue (o c i : Nat) (p : List Byte) (s : State) : (logBy o c i p s).lastIssue = s.lastIssue := rfl
@[simp] theorem logBy_issuedAt (o c i : Nat) (p : List Byte) (s : State) : (logBy o c i p s).issuedAt = s.issuedAt := rfl
@[simp] theorem logBy_woke (o c i : Nat) (p : List Byte) (s : State) : (logBy o c i p s).woke = s.woke := rfl
@[simp] theorem logBy_crcTurns (o c i : Nat) (p : List Byte) (s : State) : (logBy o c i p s).crcTurns = s.crcTurns := rfl
@[simp] theorem logBy_edges (o c i : Nat) (p : List Byte) (s : State) : (logBy o c i p s).edges = s.edges := rfl
@[simp] theorem logBy_latent (o c i : Nat) (p : List Byte) (s : State) : (logBy o c i p s).latent = s.latent := rfl
@[simp] theorem logBy_walkCache (o c i : Nat) (p : List Byte) (s : State) : (logBy o c i p s).walkCache = s.walkCache := rfl
@[simp] theorem logBy_tlbis (o c i : Nat) (p : List Byte) (s : State) : (logBy o c i p s).tlbis = s.tlbis := rfl
@[simp] theorem logBy_capture (o c i : Nat) (p : List Byte) (s : State) : (logBy o c i p s).capture = s.capture := rfl
@[simp] theorem logBy_tl (o c i : Nat) (p : List Byte) (s : State) : (logBy o c i p s).tl = s.tl := rfl
@[simp] theorem logBy_slices (o c i : Nat) (p : List Byte) (s : State) : (logBy o c i p s).slices = s.slices := rfl
@[simp] theorem logBy_ports (o c i : Nat) (p : List Byte) (s : State) : (logBy o c i p s).ports = s.ports := rfl
@[simp] theorem logBy_ctxs (o c i : Nat) (p : List Byte) (s : State) : (logBy o c i p s).ctxs = s.ctxs := rfl
@[simp] theorem logBy_tlm (o c i : Nat) (p : List Byte) (s : State) : (logBy o c i p s).tlm = s.tlm := rfl
@[simp] theorem logBy_dcache (o c i : Nat) (p : List Byte) (s : State) : (logBy o c i p s).dcache = s.dcache := rfl
@[simp] theorem logBy_descs (o c i : Nat) (p : List Byte) (s : State) : (logBy o c i p s).descs = s.descs := rfl
@[simp] theorem logBy_sched (o c i : Nat) (p : List Byte) (s : State) : (logBy o c i p s).sched = s.sched := rfl
@[simp] theorem logBy_dram (o c i : Nat) (p : List Byte) (s : State) : (logBy o c i p s).dram = s.dram := rfl
@[simp] theorem logBy_poison (o c i : Nat) (p : List Byte) (s : State) : (logBy o c i p s).poison = s.poison := rfl
@[simp] theorem logBy_tlb (o c i : Nat) (p : List Byte) (s : State) : (logBy o c i p s).tlb = s.tlb := rfl
@[simp] theorem logBy_fq (o c i : Nat) (p : List Byte) (s : State) : (logBy o c i p s).fq = s.fq := rfl
@[simp] theorem logBy_chans (o c i : Nat) (p : List Byte) (s : State) : (logBy o c i p s).chans = s.chans := rfl
@[simp] theorem logBy_dmaTurn (o c i : Nat) (p : List Byte) (s : State) : (logBy o c i p s).dmaTurn = s.dmaTurn := rfl
@[simp] theorem logBy_scrubAt (o c i : Nat) (p : List Byte) (s : State) : (logBy o c i p s).scrubAt = s.scrubAt := rfl
@[simp] theorem logBy_fetchers (o c i : Nat) (p : List Byte) (s : State) : (logBy o c i p s).fetchers = s.fetchers := rfl
@[simp] theorem logBy_store (o c i : Nat) (p : List Byte) (s : State) : (logBy o c i p s).store = s.store := rfl
@[simp] theorem logBy_storeBad (o c i : Nat) (p : List Byte) (s : State) : (logBy o c i p s).storeBad = s.storeBad := rfl
@[simp] theorem logBy_marks (o c i : Nat) (p : List Byte) (s : State) : (logBy o c i p s).marks = s.marks := rfl
@[simp] theorem logBy_trunk (o c i : Nat) (p : List Byte) (s : State) : (logBy o c i p s).trunk = s.trunk := rfl
@[simp] theorem logBy_time (o c i : Nat) (p : List Byte) (s : State) : (logBy o c i p s).time = s.time := rfl
@[simp] theorem logBy_net (o c i : Nat) (p : List Byte) (s : State) : (logBy o c i p s).net = s.net := rfl
@[simp] theorem logBy_red (o c i : Nat) (p : List Byte) (s : State) : (logBy o c i p s).red = s.red := rfl
@[simp] theorem logBy_led (o c i : Nat) (p : List Byte) (s : State) : (logBy o c i p s).led = s.led := rfl
@[simp] theorem logBy_adc (o c i : Nat) (p : List Byte) (s : State) : (logBy o c i p s).adc = s.adc := rfl
@[simp] theorem logBy_cal (o c i : Nat) (p : List Byte) (s : State) : (logBy o c i p s).cal = s.cal := rfl
@[simp] theorem logBy_upd (o c i : Nat) (p : List Byte) (s : State) : (logBy o c i p s).upd = s.upd := rfl
@[simp] theorem logBy_power (o c i : Nat) (p : List Byte) (s : State) : (logBy o c i p s).power = s.power := rfl
@[simp] theorem logBy_boot (o c i : Nat) (p : List Byte) (s : State) : (logBy o c i p s).boot = s.boot := rfl
@[simp] theorem logBy_gpi (o c i : Nat) (p : List Byte) (s : State) : (logBy o c i p s).gpi = s.gpi := rfl
@[simp] theorem logBy_host (o c i : Nat) (p : List Byte) (s : State) : (logBy o c i p s).host = s.host := rfl
@[simp] theorem logBy_crcBusy (o c i : Nat) (p : List Byte) (s : State) : (logBy o c i p s).crcBusy = s.crcBusy := rfl
@[simp] theorem logBy_hostMem (o c i : Nat) (p : List Byte) (s : State) : (logBy o c i p s).hostMem = s.hostMem := rfl
@[simp] theorem logBy_pending (o c i : Nat) (p : List Byte) (s : State) : (logBy o c i p s).pending = s.pending := rfl

@[simp] theorem updRcd_clk (f : RecSt → RecSt) (s : State) : (updRcd f s).clk = s.clk := rfl
@[simp] theorem updRcd_upBase (f : RecSt → RecSt) (s : State) : (updRcd f s).upBase = s.upBase := rfl
@[simp] theorem updRcd_cnt (f : RecSt → RecSt) (s : State) : (updRcd f s).cnt = s.cnt := rfl
@[simp] theorem updRcd_freeCtr (f : RecSt → RecSt) (s : State) : (updRcd f s).freeCtr = s.freeCtr := rfl
@[simp] theorem updRcd_regs (f : RecSt → RecSt) (s : State) : (updRcd f s).regs = s.regs := rfl
@[simp] theorem updRcd_armed (f : RecSt → RecSt) (s : State) : (updRcd f s).armed = s.armed := rfl
@[simp] theorem updRcd_heldLow (f : RecSt → RecSt) (s : State) : (updRcd f s).heldLow = s.heldLow := rfl
@[simp] theorem updRcd_setNow (f : RecSt → RecSt) (s : State) : (updRcd f s).setNow = s.setNow := rfl
@[simp] theorem updRcd_lastIssue (f : RecSt → RecSt) (s : State) : (updRcd f s).lastIssue = s.lastIssue := rfl
@[simp] theorem updRcd_issuedAt (f : RecSt → RecSt) (s : State) : (updRcd f s).issuedAt = s.issuedAt := rfl
@[simp] theorem updRcd_woke (f : RecSt → RecSt) (s : State) : (updRcd f s).woke = s.woke := rfl
@[simp] theorem updRcd_crcTurns (f : RecSt → RecSt) (s : State) : (updRcd f s).crcTurns = s.crcTurns := rfl
@[simp] theorem updRcd_edges (f : RecSt → RecSt) (s : State) : (updRcd f s).edges = s.edges := rfl
@[simp] theorem updRcd_latent (f : RecSt → RecSt) (s : State) : (updRcd f s).latent = s.latent := rfl
@[simp] theorem updRcd_walkCache (f : RecSt → RecSt) (s : State) : (updRcd f s).walkCache = s.walkCache := rfl
@[simp] theorem updRcd_tlbis (f : RecSt → RecSt) (s : State) : (updRcd f s).tlbis = s.tlbis := rfl
@[simp] theorem updRcd_capture (f : RecSt → RecSt) (s : State) : (updRcd f s).capture = s.capture := rfl
@[simp] theorem updRcd_tl (f : RecSt → RecSt) (s : State) : (updRcd f s).tl = s.tl := rfl
@[simp] theorem updRcd_slices (f : RecSt → RecSt) (s : State) : (updRcd f s).slices = s.slices := rfl
@[simp] theorem updRcd_ports (f : RecSt → RecSt) (s : State) : (updRcd f s).ports = s.ports := rfl
@[simp] theorem updRcd_ctxs (f : RecSt → RecSt) (s : State) : (updRcd f s).ctxs = s.ctxs := rfl
@[simp] theorem updRcd_tlm (f : RecSt → RecSt) (s : State) : (updRcd f s).tlm = s.tlm := rfl
@[simp] theorem updRcd_dcache (f : RecSt → RecSt) (s : State) : (updRcd f s).dcache = s.dcache := rfl
@[simp] theorem updRcd_descs (f : RecSt → RecSt) (s : State) : (updRcd f s).descs = s.descs := rfl
@[simp] theorem updRcd_sched (f : RecSt → RecSt) (s : State) : (updRcd f s).sched = s.sched := rfl
@[simp] theorem updRcd_dram (f : RecSt → RecSt) (s : State) : (updRcd f s).dram = s.dram := rfl
@[simp] theorem updRcd_poison (f : RecSt → RecSt) (s : State) : (updRcd f s).poison = s.poison := rfl
@[simp] theorem updRcd_tlb (f : RecSt → RecSt) (s : State) : (updRcd f s).tlb = s.tlb := rfl
@[simp] theorem updRcd_fq (f : RecSt → RecSt) (s : State) : (updRcd f s).fq = s.fq := rfl
@[simp] theorem updRcd_chans (f : RecSt → RecSt) (s : State) : (updRcd f s).chans = s.chans := rfl
@[simp] theorem updRcd_dmaTurn (f : RecSt → RecSt) (s : State) : (updRcd f s).dmaTurn = s.dmaTurn := rfl
@[simp] theorem updRcd_scrubAt (f : RecSt → RecSt) (s : State) : (updRcd f s).scrubAt = s.scrubAt := rfl
@[simp] theorem updRcd_fetchers (f : RecSt → RecSt) (s : State) : (updRcd f s).fetchers = s.fetchers := rfl
@[simp] theorem updRcd_store (f : RecSt → RecSt) (s : State) : (updRcd f s).store = s.store := rfl
@[simp] theorem updRcd_storeBad (f : RecSt → RecSt) (s : State) : (updRcd f s).storeBad = s.storeBad := rfl
@[simp] theorem updRcd_marks (f : RecSt → RecSt) (s : State) : (updRcd f s).marks = s.marks := rfl
@[simp] theorem updRcd_trunk (f : RecSt → RecSt) (s : State) : (updRcd f s).trunk = s.trunk := rfl
@[simp] theorem updRcd_time (f : RecSt → RecSt) (s : State) : (updRcd f s).time = s.time := rfl
@[simp] theorem updRcd_net (f : RecSt → RecSt) (s : State) : (updRcd f s).net = s.net := rfl
@[simp] theorem updRcd_red (f : RecSt → RecSt) (s : State) : (updRcd f s).red = s.red := rfl
@[simp] theorem updRcd_led (f : RecSt → RecSt) (s : State) : (updRcd f s).led = s.led := rfl
@[simp] theorem updRcd_adc (f : RecSt → RecSt) (s : State) : (updRcd f s).adc = s.adc := rfl
@[simp] theorem updRcd_cal (f : RecSt → RecSt) (s : State) : (updRcd f s).cal = s.cal := rfl
@[simp] theorem updRcd_upd (f : RecSt → RecSt) (s : State) : (updRcd f s).upd = s.upd := rfl
@[simp] theorem updRcd_power (f : RecSt → RecSt) (s : State) : (updRcd f s).power = s.power := rfl
@[simp] theorem updRcd_boot (f : RecSt → RecSt) (s : State) : (updRcd f s).boot = s.boot := rfl
@[simp] theorem updRcd_gpi (f : RecSt → RecSt) (s : State) : (updRcd f s).gpi = s.gpi := rfl
@[simp] theorem updRcd_host (f : RecSt → RecSt) (s : State) : (updRcd f s).host = s.host := rfl
@[simp] theorem updRcd_crcBusy (f : RecSt → RecSt) (s : State) : (updRcd f s).crcBusy = s.crcBusy := rfl
@[simp] theorem updRcd_hostMem (f : RecSt → RecSt) (s : State) : (updRcd f s).hostMem = s.hostMem := rfl
@[simp] theorem updRcd_pending (f : RecSt → RecSt) (s : State) : (updRcd f s).pending = s.pending := rfl

@[simp] theorem setCtx_clk (k : Nat) (c : Ctx) (s : State) : (setCtx k c s).clk = s.clk := rfl
@[simp] theorem setCtx_upBase (k : Nat) (c : Ctx) (s : State) : (setCtx k c s).upBase = s.upBase := rfl
@[simp] theorem setCtx_cnt (k : Nat) (c : Ctx) (s : State) : (setCtx k c s).cnt = s.cnt := rfl
@[simp] theorem setCtx_freeCtr (k : Nat) (c : Ctx) (s : State) : (setCtx k c s).freeCtr = s.freeCtr := rfl
@[simp] theorem setCtx_regs (k : Nat) (c : Ctx) (s : State) : (setCtx k c s).regs = s.regs := rfl
@[simp] theorem setCtx_armed (k : Nat) (c : Ctx) (s : State) : (setCtx k c s).armed = s.armed := rfl
@[simp] theorem setCtx_heldLow (k : Nat) (c : Ctx) (s : State) : (setCtx k c s).heldLow = s.heldLow := rfl
@[simp] theorem setCtx_setNow (k : Nat) (c : Ctx) (s : State) : (setCtx k c s).setNow = s.setNow := rfl
@[simp] theorem setCtx_lastIssue (k : Nat) (c : Ctx) (s : State) : (setCtx k c s).lastIssue = s.lastIssue := rfl
@[simp] theorem setCtx_issuedAt (k : Nat) (c : Ctx) (s : State) : (setCtx k c s).issuedAt = s.issuedAt := rfl
@[simp] theorem setCtx_woke (k : Nat) (c : Ctx) (s : State) : (setCtx k c s).woke = s.woke := rfl
@[simp] theorem setCtx_crcTurns (k : Nat) (c : Ctx) (s : State) : (setCtx k c s).crcTurns = s.crcTurns := rfl
@[simp] theorem setCtx_edges (k : Nat) (c : Ctx) (s : State) : (setCtx k c s).edges = s.edges := rfl
@[simp] theorem setCtx_latent (k : Nat) (c : Ctx) (s : State) : (setCtx k c s).latent = s.latent := rfl
@[simp] theorem setCtx_walkCache (k : Nat) (c : Ctx) (s : State) : (setCtx k c s).walkCache = s.walkCache := rfl
@[simp] theorem setCtx_tlbis (k : Nat) (c : Ctx) (s : State) : (setCtx k c s).tlbis = s.tlbis := rfl
@[simp] theorem setCtx_capture (k : Nat) (c : Ctx) (s : State) : (setCtx k c s).capture = s.capture := rfl
@[simp] theorem setCtx_rcd (k : Nat) (c : Ctx) (s : State) : (setCtx k c s).rcd = s.rcd := rfl
@[simp] theorem setCtx_tl (k : Nat) (c : Ctx) (s : State) : (setCtx k c s).tl = s.tl := rfl
@[simp] theorem setCtx_slices (k : Nat) (c : Ctx) (s : State) : (setCtx k c s).slices = s.slices := rfl
@[simp] theorem setCtx_ports (k : Nat) (c : Ctx) (s : State) : (setCtx k c s).ports = s.ports := rfl
@[simp] theorem setCtx_tlm (k : Nat) (c : Ctx) (s : State) : (setCtx k c s).tlm = s.tlm := rfl
@[simp] theorem setCtx_dcache (k : Nat) (c : Ctx) (s : State) : (setCtx k c s).dcache = s.dcache := rfl
@[simp] theorem setCtx_descs (k : Nat) (c : Ctx) (s : State) : (setCtx k c s).descs = s.descs := rfl
@[simp] theorem setCtx_sched (k : Nat) (c : Ctx) (s : State) : (setCtx k c s).sched = s.sched := rfl
@[simp] theorem setCtx_dram (k : Nat) (c : Ctx) (s : State) : (setCtx k c s).dram = s.dram := rfl
@[simp] theorem setCtx_poison (k : Nat) (c : Ctx) (s : State) : (setCtx k c s).poison = s.poison := rfl
@[simp] theorem setCtx_tlb (k : Nat) (c : Ctx) (s : State) : (setCtx k c s).tlb = s.tlb := rfl
@[simp] theorem setCtx_fq (k : Nat) (c : Ctx) (s : State) : (setCtx k c s).fq = s.fq := rfl
@[simp] theorem setCtx_chans (k : Nat) (c : Ctx) (s : State) : (setCtx k c s).chans = s.chans := rfl
@[simp] theorem setCtx_dmaTurn (k : Nat) (c : Ctx) (s : State) : (setCtx k c s).dmaTurn = s.dmaTurn := rfl
@[simp] theorem setCtx_scrubAt (k : Nat) (c : Ctx) (s : State) : (setCtx k c s).scrubAt = s.scrubAt := rfl
@[simp] theorem setCtx_fetchers (k : Nat) (c : Ctx) (s : State) : (setCtx k c s).fetchers = s.fetchers := rfl
@[simp] theorem setCtx_store (k : Nat) (c : Ctx) (s : State) : (setCtx k c s).store = s.store := rfl
@[simp] theorem setCtx_storeBad (k : Nat) (c : Ctx) (s : State) : (setCtx k c s).storeBad = s.storeBad := rfl
@[simp] theorem setCtx_marks (k : Nat) (c : Ctx) (s : State) : (setCtx k c s).marks = s.marks := rfl
@[simp] theorem setCtx_trunk (k : Nat) (c : Ctx) (s : State) : (setCtx k c s).trunk = s.trunk := rfl
@[simp] theorem setCtx_time (k : Nat) (c : Ctx) (s : State) : (setCtx k c s).time = s.time := rfl
@[simp] theorem setCtx_net (k : Nat) (c : Ctx) (s : State) : (setCtx k c s).net = s.net := rfl
@[simp] theorem setCtx_red (k : Nat) (c : Ctx) (s : State) : (setCtx k c s).red = s.red := rfl
@[simp] theorem setCtx_led (k : Nat) (c : Ctx) (s : State) : (setCtx k c s).led = s.led := rfl
@[simp] theorem setCtx_adc (k : Nat) (c : Ctx) (s : State) : (setCtx k c s).adc = s.adc := rfl
@[simp] theorem setCtx_cal (k : Nat) (c : Ctx) (s : State) : (setCtx k c s).cal = s.cal := rfl
@[simp] theorem setCtx_upd (k : Nat) (c : Ctx) (s : State) : (setCtx k c s).upd = s.upd := rfl
@[simp] theorem setCtx_power (k : Nat) (c : Ctx) (s : State) : (setCtx k c s).power = s.power := rfl
@[simp] theorem setCtx_boot (k : Nat) (c : Ctx) (s : State) : (setCtx k c s).boot = s.boot := rfl
@[simp] theorem setCtx_gpi (k : Nat) (c : Ctx) (s : State) : (setCtx k c s).gpi = s.gpi := rfl
@[simp] theorem setCtx_host (k : Nat) (c : Ctx) (s : State) : (setCtx k c s).host = s.host := rfl
@[simp] theorem setCtx_crcBusy (k : Nat) (c : Ctx) (s : State) : (setCtx k c s).crcBusy = s.crcBusy := rfl
@[simp] theorem setCtx_hostMem (k : Nat) (c : Ctx) (s : State) : (setCtx k c s).hostMem = s.hostMem := rfl
@[simp] theorem setCtx_pending (k : Nat) (c : Ctx) (s : State) : (setCtx k c s).pending = s.pending := rfl

@[simp] theorem setDesc_clk (k : Nat) (c : Desc) (s : State) : (setDesc k c s).clk = s.clk := rfl
@[simp] theorem setDesc_upBase (k : Nat) (c : Desc) (s : State) : (setDesc k c s).upBase = s.upBase := rfl
@[simp] theorem setDesc_cnt (k : Nat) (c : Desc) (s : State) : (setDesc k c s).cnt = s.cnt := rfl
@[simp] theorem setDesc_freeCtr (k : Nat) (c : Desc) (s : State) : (setDesc k c s).freeCtr = s.freeCtr := rfl
@[simp] theorem setDesc_regs (k : Nat) (c : Desc) (s : State) : (setDesc k c s).regs = s.regs := rfl
@[simp] theorem setDesc_armed (k : Nat) (c : Desc) (s : State) : (setDesc k c s).armed = s.armed := rfl
@[simp] theorem setDesc_heldLow (k : Nat) (c : Desc) (s : State) : (setDesc k c s).heldLow = s.heldLow := rfl
@[simp] theorem setDesc_setNow (k : Nat) (c : Desc) (s : State) : (setDesc k c s).setNow = s.setNow := rfl
@[simp] theorem setDesc_lastIssue (k : Nat) (c : Desc) (s : State) : (setDesc k c s).lastIssue = s.lastIssue := rfl
@[simp] theorem setDesc_issuedAt (k : Nat) (c : Desc) (s : State) : (setDesc k c s).issuedAt = s.issuedAt := rfl
@[simp] theorem setDesc_woke (k : Nat) (c : Desc) (s : State) : (setDesc k c s).woke = s.woke := rfl
@[simp] theorem setDesc_crcTurns (k : Nat) (c : Desc) (s : State) : (setDesc k c s).crcTurns = s.crcTurns := rfl
@[simp] theorem setDesc_edges (k : Nat) (c : Desc) (s : State) : (setDesc k c s).edges = s.edges := rfl
@[simp] theorem setDesc_latent (k : Nat) (c : Desc) (s : State) : (setDesc k c s).latent = s.latent := rfl
@[simp] theorem setDesc_walkCache (k : Nat) (c : Desc) (s : State) : (setDesc k c s).walkCache = s.walkCache := rfl
@[simp] theorem setDesc_tlbis (k : Nat) (c : Desc) (s : State) : (setDesc k c s).tlbis = s.tlbis := rfl
@[simp] theorem setDesc_capture (k : Nat) (c : Desc) (s : State) : (setDesc k c s).capture = s.capture := rfl
@[simp] theorem setDesc_rcd (k : Nat) (c : Desc) (s : State) : (setDesc k c s).rcd = s.rcd := rfl
@[simp] theorem setDesc_tl (k : Nat) (c : Desc) (s : State) : (setDesc k c s).tl = s.tl := rfl
@[simp] theorem setDesc_slices (k : Nat) (c : Desc) (s : State) : (setDesc k c s).slices = s.slices := rfl
@[simp] theorem setDesc_ports (k : Nat) (c : Desc) (s : State) : (setDesc k c s).ports = s.ports := rfl
@[simp] theorem setDesc_ctxs (k : Nat) (c : Desc) (s : State) : (setDesc k c s).ctxs = s.ctxs := rfl
@[simp] theorem setDesc_tlm (k : Nat) (c : Desc) (s : State) : (setDesc k c s).tlm = s.tlm := rfl
@[simp] theorem setDesc_dcache (k : Nat) (c : Desc) (s : State) : (setDesc k c s).dcache = s.dcache := rfl
@[simp] theorem setDesc_sched (k : Nat) (c : Desc) (s : State) : (setDesc k c s).sched = s.sched := rfl
@[simp] theorem setDesc_dram (k : Nat) (c : Desc) (s : State) : (setDesc k c s).dram = s.dram := rfl
@[simp] theorem setDesc_poison (k : Nat) (c : Desc) (s : State) : (setDesc k c s).poison = s.poison := rfl
@[simp] theorem setDesc_tlb (k : Nat) (c : Desc) (s : State) : (setDesc k c s).tlb = s.tlb := rfl
@[simp] theorem setDesc_fq (k : Nat) (c : Desc) (s : State) : (setDesc k c s).fq = s.fq := rfl
@[simp] theorem setDesc_chans (k : Nat) (c : Desc) (s : State) : (setDesc k c s).chans = s.chans := rfl
@[simp] theorem setDesc_dmaTurn (k : Nat) (c : Desc) (s : State) : (setDesc k c s).dmaTurn = s.dmaTurn := rfl
@[simp] theorem setDesc_scrubAt (k : Nat) (c : Desc) (s : State) : (setDesc k c s).scrubAt = s.scrubAt := rfl
@[simp] theorem setDesc_fetchers (k : Nat) (c : Desc) (s : State) : (setDesc k c s).fetchers = s.fetchers := rfl
@[simp] theorem setDesc_store (k : Nat) (c : Desc) (s : State) : (setDesc k c s).store = s.store := rfl
@[simp] theorem setDesc_storeBad (k : Nat) (c : Desc) (s : State) : (setDesc k c s).storeBad = s.storeBad := rfl
@[simp] theorem setDesc_marks (k : Nat) (c : Desc) (s : State) : (setDesc k c s).marks = s.marks := rfl
@[simp] theorem setDesc_trunk (k : Nat) (c : Desc) (s : State) : (setDesc k c s).trunk = s.trunk := rfl
@[simp] theorem setDesc_time (k : Nat) (c : Desc) (s : State) : (setDesc k c s).time = s.time := rfl
@[simp] theorem setDesc_net (k : Nat) (c : Desc) (s : State) : (setDesc k c s).net = s.net := rfl
@[simp] theorem setDesc_red (k : Nat) (c : Desc) (s : State) : (setDesc k c s).red = s.red := rfl
@[simp] theorem setDesc_led (k : Nat) (c : Desc) (s : State) : (setDesc k c s).led = s.led := rfl
@[simp] theorem setDesc_adc (k : Nat) (c : Desc) (s : State) : (setDesc k c s).adc = s.adc := rfl
@[simp] theorem setDesc_cal (k : Nat) (c : Desc) (s : State) : (setDesc k c s).cal = s.cal := rfl
@[simp] theorem setDesc_upd (k : Nat) (c : Desc) (s : State) : (setDesc k c s).upd = s.upd := rfl
@[simp] theorem setDesc_power (k : Nat) (c : Desc) (s : State) : (setDesc k c s).power = s.power := rfl
@[simp] theorem setDesc_boot (k : Nat) (c : Desc) (s : State) : (setDesc k c s).boot = s.boot := rfl
@[simp] theorem setDesc_gpi (k : Nat) (c : Desc) (s : State) : (setDesc k c s).gpi = s.gpi := rfl
@[simp] theorem setDesc_host (k : Nat) (c : Desc) (s : State) : (setDesc k c s).host = s.host := rfl
@[simp] theorem setDesc_crcBusy (k : Nat) (c : Desc) (s : State) : (setDesc k c s).crcBusy = s.crcBusy := rfl
@[simp] theorem setDesc_hostMem (k : Nat) (c : Desc) (s : State) : (setDesc k c s).hostMem = s.hostMem := rfl
@[simp] theorem setDesc_pending (k : Nat) (c : Desc) (s : State) : (setDesc k c s).pending = s.pending := rfl

@[simp] theorem setSched_clk (k : Nat) (c : SchedSt) (s : State) : (setSched k c s).clk = s.clk := rfl
@[simp] theorem setSched_upBase (k : Nat) (c : SchedSt) (s : State) : (setSched k c s).upBase = s.upBase := rfl
@[simp] theorem setSched_cnt (k : Nat) (c : SchedSt) (s : State) : (setSched k c s).cnt = s.cnt := rfl
@[simp] theorem setSched_freeCtr (k : Nat) (c : SchedSt) (s : State) : (setSched k c s).freeCtr = s.freeCtr := rfl
@[simp] theorem setSched_regs (k : Nat) (c : SchedSt) (s : State) : (setSched k c s).regs = s.regs := rfl
@[simp] theorem setSched_armed (k : Nat) (c : SchedSt) (s : State) : (setSched k c s).armed = s.armed := rfl
@[simp] theorem setSched_heldLow (k : Nat) (c : SchedSt) (s : State) : (setSched k c s).heldLow = s.heldLow := rfl
@[simp] theorem setSched_setNow (k : Nat) (c : SchedSt) (s : State) : (setSched k c s).setNow = s.setNow := rfl
@[simp] theorem setSched_lastIssue (k : Nat) (c : SchedSt) (s : State) : (setSched k c s).lastIssue = s.lastIssue := rfl
@[simp] theorem setSched_issuedAt (k : Nat) (c : SchedSt) (s : State) : (setSched k c s).issuedAt = s.issuedAt := rfl
@[simp] theorem setSched_woke (k : Nat) (c : SchedSt) (s : State) : (setSched k c s).woke = s.woke := rfl
@[simp] theorem setSched_crcTurns (k : Nat) (c : SchedSt) (s : State) : (setSched k c s).crcTurns = s.crcTurns := rfl
@[simp] theorem setSched_edges (k : Nat) (c : SchedSt) (s : State) : (setSched k c s).edges = s.edges := rfl
@[simp] theorem setSched_latent (k : Nat) (c : SchedSt) (s : State) : (setSched k c s).latent = s.latent := rfl
@[simp] theorem setSched_walkCache (k : Nat) (c : SchedSt) (s : State) : (setSched k c s).walkCache = s.walkCache := rfl
@[simp] theorem setSched_tlbis (k : Nat) (c : SchedSt) (s : State) : (setSched k c s).tlbis = s.tlbis := rfl
@[simp] theorem setSched_capture (k : Nat) (c : SchedSt) (s : State) : (setSched k c s).capture = s.capture := rfl
@[simp] theorem setSched_rcd (k : Nat) (c : SchedSt) (s : State) : (setSched k c s).rcd = s.rcd := rfl
@[simp] theorem setSched_tl (k : Nat) (c : SchedSt) (s : State) : (setSched k c s).tl = s.tl := rfl
@[simp] theorem setSched_slices (k : Nat) (c : SchedSt) (s : State) : (setSched k c s).slices = s.slices := rfl
@[simp] theorem setSched_ports (k : Nat) (c : SchedSt) (s : State) : (setSched k c s).ports = s.ports := rfl
@[simp] theorem setSched_ctxs (k : Nat) (c : SchedSt) (s : State) : (setSched k c s).ctxs = s.ctxs := rfl
@[simp] theorem setSched_tlm (k : Nat) (c : SchedSt) (s : State) : (setSched k c s).tlm = s.tlm := rfl
@[simp] theorem setSched_dcache (k : Nat) (c : SchedSt) (s : State) : (setSched k c s).dcache = s.dcache := rfl
@[simp] theorem setSched_descs (k : Nat) (c : SchedSt) (s : State) : (setSched k c s).descs = s.descs := rfl
@[simp] theorem setSched_dram (k : Nat) (c : SchedSt) (s : State) : (setSched k c s).dram = s.dram := rfl
@[simp] theorem setSched_poison (k : Nat) (c : SchedSt) (s : State) : (setSched k c s).poison = s.poison := rfl
@[simp] theorem setSched_tlb (k : Nat) (c : SchedSt) (s : State) : (setSched k c s).tlb = s.tlb := rfl
@[simp] theorem setSched_fq (k : Nat) (c : SchedSt) (s : State) : (setSched k c s).fq = s.fq := rfl
@[simp] theorem setSched_chans (k : Nat) (c : SchedSt) (s : State) : (setSched k c s).chans = s.chans := rfl
@[simp] theorem setSched_dmaTurn (k : Nat) (c : SchedSt) (s : State) : (setSched k c s).dmaTurn = s.dmaTurn := rfl
@[simp] theorem setSched_scrubAt (k : Nat) (c : SchedSt) (s : State) : (setSched k c s).scrubAt = s.scrubAt := rfl
@[simp] theorem setSched_fetchers (k : Nat) (c : SchedSt) (s : State) : (setSched k c s).fetchers = s.fetchers := rfl
@[simp] theorem setSched_store (k : Nat) (c : SchedSt) (s : State) : (setSched k c s).store = s.store := rfl
@[simp] theorem setSched_storeBad (k : Nat) (c : SchedSt) (s : State) : (setSched k c s).storeBad = s.storeBad := rfl
@[simp] theorem setSched_marks (k : Nat) (c : SchedSt) (s : State) : (setSched k c s).marks = s.marks := rfl
@[simp] theorem setSched_trunk (k : Nat) (c : SchedSt) (s : State) : (setSched k c s).trunk = s.trunk := rfl
@[simp] theorem setSched_time (k : Nat) (c : SchedSt) (s : State) : (setSched k c s).time = s.time := rfl
@[simp] theorem setSched_net (k : Nat) (c : SchedSt) (s : State) : (setSched k c s).net = s.net := rfl
@[simp] theorem setSched_red (k : Nat) (c : SchedSt) (s : State) : (setSched k c s).red = s.red := rfl
@[simp] theorem setSched_led (k : Nat) (c : SchedSt) (s : State) : (setSched k c s).led = s.led := rfl
@[simp] theorem setSched_adc (k : Nat) (c : SchedSt) (s : State) : (setSched k c s).adc = s.adc := rfl
@[simp] theorem setSched_cal (k : Nat) (c : SchedSt) (s : State) : (setSched k c s).cal = s.cal := rfl
@[simp] theorem setSched_upd (k : Nat) (c : SchedSt) (s : State) : (setSched k c s).upd = s.upd := rfl
@[simp] theorem setSched_power (k : Nat) (c : SchedSt) (s : State) : (setSched k c s).power = s.power := rfl
@[simp] theorem setSched_boot (k : Nat) (c : SchedSt) (s : State) : (setSched k c s).boot = s.boot := rfl
@[simp] theorem setSched_gpi (k : Nat) (c : SchedSt) (s : State) : (setSched k c s).gpi = s.gpi := rfl
@[simp] theorem setSched_host (k : Nat) (c : SchedSt) (s : State) : (setSched k c s).host = s.host := rfl
@[simp] theorem setSched_crcBusy (k : Nat) (c : SchedSt) (s : State) : (setSched k c s).crcBusy = s.crcBusy := rfl
@[simp] theorem setSched_hostMem (k : Nat) (c : SchedSt) (s : State) : (setSched k c s).hostMem = s.hostMem := rfl
@[simp] theorem setSched_pending (k : Nat) (c : SchedSt) (s : State) : (setSched k c s).pending = s.pending := rfl

@[simp] theorem setSlice_clk (k : Nat) (c : SliceSt) (s : State) : (setSlice k c s).clk = s.clk := rfl
@[simp] theorem setSlice_upBase (k : Nat) (c : SliceSt) (s : State) : (setSlice k c s).upBase = s.upBase := rfl
@[simp] theorem setSlice_cnt (k : Nat) (c : SliceSt) (s : State) : (setSlice k c s).cnt = s.cnt := rfl
@[simp] theorem setSlice_freeCtr (k : Nat) (c : SliceSt) (s : State) : (setSlice k c s).freeCtr = s.freeCtr := rfl
@[simp] theorem setSlice_regs (k : Nat) (c : SliceSt) (s : State) : (setSlice k c s).regs = s.regs := rfl
@[simp] theorem setSlice_armed (k : Nat) (c : SliceSt) (s : State) : (setSlice k c s).armed = s.armed := rfl
@[simp] theorem setSlice_heldLow (k : Nat) (c : SliceSt) (s : State) : (setSlice k c s).heldLow = s.heldLow := rfl
@[simp] theorem setSlice_setNow (k : Nat) (c : SliceSt) (s : State) : (setSlice k c s).setNow = s.setNow := rfl
@[simp] theorem setSlice_lastIssue (k : Nat) (c : SliceSt) (s : State) : (setSlice k c s).lastIssue = s.lastIssue := rfl
@[simp] theorem setSlice_issuedAt (k : Nat) (c : SliceSt) (s : State) : (setSlice k c s).issuedAt = s.issuedAt := rfl
@[simp] theorem setSlice_woke (k : Nat) (c : SliceSt) (s : State) : (setSlice k c s).woke = s.woke := rfl
@[simp] theorem setSlice_crcTurns (k : Nat) (c : SliceSt) (s : State) : (setSlice k c s).crcTurns = s.crcTurns := rfl
@[simp] theorem setSlice_edges (k : Nat) (c : SliceSt) (s : State) : (setSlice k c s).edges = s.edges := rfl
@[simp] theorem setSlice_latent (k : Nat) (c : SliceSt) (s : State) : (setSlice k c s).latent = s.latent := rfl
@[simp] theorem setSlice_walkCache (k : Nat) (c : SliceSt) (s : State) : (setSlice k c s).walkCache = s.walkCache := rfl
@[simp] theorem setSlice_tlbis (k : Nat) (c : SliceSt) (s : State) : (setSlice k c s).tlbis = s.tlbis := rfl
@[simp] theorem setSlice_capture (k : Nat) (c : SliceSt) (s : State) : (setSlice k c s).capture = s.capture := rfl
@[simp] theorem setSlice_rcd (k : Nat) (c : SliceSt) (s : State) : (setSlice k c s).rcd = s.rcd := rfl
@[simp] theorem setSlice_tl (k : Nat) (c : SliceSt) (s : State) : (setSlice k c s).tl = s.tl := rfl
@[simp] theorem setSlice_ports (k : Nat) (c : SliceSt) (s : State) : (setSlice k c s).ports = s.ports := rfl
@[simp] theorem setSlice_ctxs (k : Nat) (c : SliceSt) (s : State) : (setSlice k c s).ctxs = s.ctxs := rfl
@[simp] theorem setSlice_tlm (k : Nat) (c : SliceSt) (s : State) : (setSlice k c s).tlm = s.tlm := rfl
@[simp] theorem setSlice_dcache (k : Nat) (c : SliceSt) (s : State) : (setSlice k c s).dcache = s.dcache := rfl
@[simp] theorem setSlice_descs (k : Nat) (c : SliceSt) (s : State) : (setSlice k c s).descs = s.descs := rfl
@[simp] theorem setSlice_sched (k : Nat) (c : SliceSt) (s : State) : (setSlice k c s).sched = s.sched := rfl
@[simp] theorem setSlice_dram (k : Nat) (c : SliceSt) (s : State) : (setSlice k c s).dram = s.dram := rfl
@[simp] theorem setSlice_poison (k : Nat) (c : SliceSt) (s : State) : (setSlice k c s).poison = s.poison := rfl
@[simp] theorem setSlice_tlb (k : Nat) (c : SliceSt) (s : State) : (setSlice k c s).tlb = s.tlb := rfl
@[simp] theorem setSlice_fq (k : Nat) (c : SliceSt) (s : State) : (setSlice k c s).fq = s.fq := rfl
@[simp] theorem setSlice_chans (k : Nat) (c : SliceSt) (s : State) : (setSlice k c s).chans = s.chans := rfl
@[simp] theorem setSlice_dmaTurn (k : Nat) (c : SliceSt) (s : State) : (setSlice k c s).dmaTurn = s.dmaTurn := rfl
@[simp] theorem setSlice_scrubAt (k : Nat) (c : SliceSt) (s : State) : (setSlice k c s).scrubAt = s.scrubAt := rfl
@[simp] theorem setSlice_fetchers (k : Nat) (c : SliceSt) (s : State) : (setSlice k c s).fetchers = s.fetchers := rfl
@[simp] theorem setSlice_store (k : Nat) (c : SliceSt) (s : State) : (setSlice k c s).store = s.store := rfl
@[simp] theorem setSlice_storeBad (k : Nat) (c : SliceSt) (s : State) : (setSlice k c s).storeBad = s.storeBad := rfl
@[simp] theorem setSlice_marks (k : Nat) (c : SliceSt) (s : State) : (setSlice k c s).marks = s.marks := rfl
@[simp] theorem setSlice_trunk (k : Nat) (c : SliceSt) (s : State) : (setSlice k c s).trunk = s.trunk := rfl
@[simp] theorem setSlice_time (k : Nat) (c : SliceSt) (s : State) : (setSlice k c s).time = s.time := rfl
@[simp] theorem setSlice_net (k : Nat) (c : SliceSt) (s : State) : (setSlice k c s).net = s.net := rfl
@[simp] theorem setSlice_red (k : Nat) (c : SliceSt) (s : State) : (setSlice k c s).red = s.red := rfl
@[simp] theorem setSlice_led (k : Nat) (c : SliceSt) (s : State) : (setSlice k c s).led = s.led := rfl
@[simp] theorem setSlice_adc (k : Nat) (c : SliceSt) (s : State) : (setSlice k c s).adc = s.adc := rfl
@[simp] theorem setSlice_cal (k : Nat) (c : SliceSt) (s : State) : (setSlice k c s).cal = s.cal := rfl
@[simp] theorem setSlice_upd (k : Nat) (c : SliceSt) (s : State) : (setSlice k c s).upd = s.upd := rfl
@[simp] theorem setSlice_power (k : Nat) (c : SliceSt) (s : State) : (setSlice k c s).power = s.power := rfl
@[simp] theorem setSlice_boot (k : Nat) (c : SliceSt) (s : State) : (setSlice k c s).boot = s.boot := rfl
@[simp] theorem setSlice_gpi (k : Nat) (c : SliceSt) (s : State) : (setSlice k c s).gpi = s.gpi := rfl
@[simp] theorem setSlice_host (k : Nat) (c : SliceSt) (s : State) : (setSlice k c s).host = s.host := rfl
@[simp] theorem setSlice_crcBusy (k : Nat) (c : SliceSt) (s : State) : (setSlice k c s).crcBusy = s.crcBusy := rfl
@[simp] theorem setSlice_hostMem (k : Nat) (c : SliceSt) (s : State) : (setSlice k c s).hostMem = s.hostMem := rfl
@[simp] theorem setSlice_pending (k : Nat) (c : SliceSt) (s : State) : (setSlice k c s).pending = s.pending := rfl

@[simp] theorem setPort_clk (k : Nat) (c : PortSt) (s : State) : (setPort k c s).clk = s.clk := rfl
@[simp] theorem setPort_upBase (k : Nat) (c : PortSt) (s : State) : (setPort k c s).upBase = s.upBase := rfl
@[simp] theorem setPort_cnt (k : Nat) (c : PortSt) (s : State) : (setPort k c s).cnt = s.cnt := rfl
@[simp] theorem setPort_freeCtr (k : Nat) (c : PortSt) (s : State) : (setPort k c s).freeCtr = s.freeCtr := rfl
@[simp] theorem setPort_regs (k : Nat) (c : PortSt) (s : State) : (setPort k c s).regs = s.regs := rfl
@[simp] theorem setPort_armed (k : Nat) (c : PortSt) (s : State) : (setPort k c s).armed = s.armed := rfl
@[simp] theorem setPort_heldLow (k : Nat) (c : PortSt) (s : State) : (setPort k c s).heldLow = s.heldLow := rfl
@[simp] theorem setPort_setNow (k : Nat) (c : PortSt) (s : State) : (setPort k c s).setNow = s.setNow := rfl
@[simp] theorem setPort_lastIssue (k : Nat) (c : PortSt) (s : State) : (setPort k c s).lastIssue = s.lastIssue := rfl
@[simp] theorem setPort_issuedAt (k : Nat) (c : PortSt) (s : State) : (setPort k c s).issuedAt = s.issuedAt := rfl
@[simp] theorem setPort_woke (k : Nat) (c : PortSt) (s : State) : (setPort k c s).woke = s.woke := rfl
@[simp] theorem setPort_crcTurns (k : Nat) (c : PortSt) (s : State) : (setPort k c s).crcTurns = s.crcTurns := rfl
@[simp] theorem setPort_edges (k : Nat) (c : PortSt) (s : State) : (setPort k c s).edges = s.edges := rfl
@[simp] theorem setPort_latent (k : Nat) (c : PortSt) (s : State) : (setPort k c s).latent = s.latent := rfl
@[simp] theorem setPort_walkCache (k : Nat) (c : PortSt) (s : State) : (setPort k c s).walkCache = s.walkCache := rfl
@[simp] theorem setPort_tlbis (k : Nat) (c : PortSt) (s : State) : (setPort k c s).tlbis = s.tlbis := rfl
@[simp] theorem setPort_capture (k : Nat) (c : PortSt) (s : State) : (setPort k c s).capture = s.capture := rfl
@[simp] theorem setPort_rcd (k : Nat) (c : PortSt) (s : State) : (setPort k c s).rcd = s.rcd := rfl
@[simp] theorem setPort_tl (k : Nat) (c : PortSt) (s : State) : (setPort k c s).tl = s.tl := rfl
@[simp] theorem setPort_slices (k : Nat) (c : PortSt) (s : State) : (setPort k c s).slices = s.slices := rfl
@[simp] theorem setPort_ctxs (k : Nat) (c : PortSt) (s : State) : (setPort k c s).ctxs = s.ctxs := rfl
@[simp] theorem setPort_tlm (k : Nat) (c : PortSt) (s : State) : (setPort k c s).tlm = s.tlm := rfl
@[simp] theorem setPort_dcache (k : Nat) (c : PortSt) (s : State) : (setPort k c s).dcache = s.dcache := rfl
@[simp] theorem setPort_descs (k : Nat) (c : PortSt) (s : State) : (setPort k c s).descs = s.descs := rfl
@[simp] theorem setPort_sched (k : Nat) (c : PortSt) (s : State) : (setPort k c s).sched = s.sched := rfl
@[simp] theorem setPort_dram (k : Nat) (c : PortSt) (s : State) : (setPort k c s).dram = s.dram := rfl
@[simp] theorem setPort_poison (k : Nat) (c : PortSt) (s : State) : (setPort k c s).poison = s.poison := rfl
@[simp] theorem setPort_tlb (k : Nat) (c : PortSt) (s : State) : (setPort k c s).tlb = s.tlb := rfl
@[simp] theorem setPort_fq (k : Nat) (c : PortSt) (s : State) : (setPort k c s).fq = s.fq := rfl
@[simp] theorem setPort_chans (k : Nat) (c : PortSt) (s : State) : (setPort k c s).chans = s.chans := rfl
@[simp] theorem setPort_dmaTurn (k : Nat) (c : PortSt) (s : State) : (setPort k c s).dmaTurn = s.dmaTurn := rfl
@[simp] theorem setPort_scrubAt (k : Nat) (c : PortSt) (s : State) : (setPort k c s).scrubAt = s.scrubAt := rfl
@[simp] theorem setPort_fetchers (k : Nat) (c : PortSt) (s : State) : (setPort k c s).fetchers = s.fetchers := rfl
@[simp] theorem setPort_store (k : Nat) (c : PortSt) (s : State) : (setPort k c s).store = s.store := rfl
@[simp] theorem setPort_storeBad (k : Nat) (c : PortSt) (s : State) : (setPort k c s).storeBad = s.storeBad := rfl
@[simp] theorem setPort_marks (k : Nat) (c : PortSt) (s : State) : (setPort k c s).marks = s.marks := rfl
@[simp] theorem setPort_trunk (k : Nat) (c : PortSt) (s : State) : (setPort k c s).trunk = s.trunk := rfl
@[simp] theorem setPort_time (k : Nat) (c : PortSt) (s : State) : (setPort k c s).time = s.time := rfl
@[simp] theorem setPort_net (k : Nat) (c : PortSt) (s : State) : (setPort k c s).net = s.net := rfl
@[simp] theorem setPort_red (k : Nat) (c : PortSt) (s : State) : (setPort k c s).red = s.red := rfl
@[simp] theorem setPort_led (k : Nat) (c : PortSt) (s : State) : (setPort k c s).led = s.led := rfl
@[simp] theorem setPort_adc (k : Nat) (c : PortSt) (s : State) : (setPort k c s).adc = s.adc := rfl
@[simp] theorem setPort_cal (k : Nat) (c : PortSt) (s : State) : (setPort k c s).cal = s.cal := rfl
@[simp] theorem setPort_upd (k : Nat) (c : PortSt) (s : State) : (setPort k c s).upd = s.upd := rfl
@[simp] theorem setPort_power (k : Nat) (c : PortSt) (s : State) : (setPort k c s).power = s.power := rfl
@[simp] theorem setPort_boot (k : Nat) (c : PortSt) (s : State) : (setPort k c s).boot = s.boot := rfl
@[simp] theorem setPort_gpi (k : Nat) (c : PortSt) (s : State) : (setPort k c s).gpi = s.gpi := rfl
@[simp] theorem setPort_host (k : Nat) (c : PortSt) (s : State) : (setPort k c s).host = s.host := rfl
@[simp] theorem setPort_crcBusy (k : Nat) (c : PortSt) (s : State) : (setPort k c s).crcBusy = s.crcBusy := rfl
@[simp] theorem setPort_hostMem (k : Nat) (c : PortSt) (s : State) : (setPort k c s).hostMem = s.hostMem := rfl
@[simp] theorem setPort_pending (k : Nat) (c : PortSt) (s : State) : (setPort k c s).pending = s.pending := rfl

@[simp] theorem setChan_clk (k : Nat) (c : Chan) (s : State) : (setChan k c s).clk = s.clk := rfl
@[simp] theorem setChan_upBase (k : Nat) (c : Chan) (s : State) : (setChan k c s).upBase = s.upBase := rfl
@[simp] theorem setChan_cnt (k : Nat) (c : Chan) (s : State) : (setChan k c s).cnt = s.cnt := rfl
@[simp] theorem setChan_freeCtr (k : Nat) (c : Chan) (s : State) : (setChan k c s).freeCtr = s.freeCtr := rfl
@[simp] theorem setChan_regs (k : Nat) (c : Chan) (s : State) : (setChan k c s).regs = s.regs := rfl
@[simp] theorem setChan_armed (k : Nat) (c : Chan) (s : State) : (setChan k c s).armed = s.armed := rfl
@[simp] theorem setChan_heldLow (k : Nat) (c : Chan) (s : State) : (setChan k c s).heldLow = s.heldLow := rfl
@[simp] theorem setChan_setNow (k : Nat) (c : Chan) (s : State) : (setChan k c s).setNow = s.setNow := rfl
@[simp] theorem setChan_lastIssue (k : Nat) (c : Chan) (s : State) : (setChan k c s).lastIssue = s.lastIssue := rfl
@[simp] theorem setChan_issuedAt (k : Nat) (c : Chan) (s : State) : (setChan k c s).issuedAt = s.issuedAt := rfl
@[simp] theorem setChan_woke (k : Nat) (c : Chan) (s : State) : (setChan k c s).woke = s.woke := rfl
@[simp] theorem setChan_crcTurns (k : Nat) (c : Chan) (s : State) : (setChan k c s).crcTurns = s.crcTurns := rfl
@[simp] theorem setChan_edges (k : Nat) (c : Chan) (s : State) : (setChan k c s).edges = s.edges := rfl
@[simp] theorem setChan_latent (k : Nat) (c : Chan) (s : State) : (setChan k c s).latent = s.latent := rfl
@[simp] theorem setChan_walkCache (k : Nat) (c : Chan) (s : State) : (setChan k c s).walkCache = s.walkCache := rfl
@[simp] theorem setChan_tlbis (k : Nat) (c : Chan) (s : State) : (setChan k c s).tlbis = s.tlbis := rfl
@[simp] theorem setChan_capture (k : Nat) (c : Chan) (s : State) : (setChan k c s).capture = s.capture := rfl
@[simp] theorem setChan_rcd (k : Nat) (c : Chan) (s : State) : (setChan k c s).rcd = s.rcd := rfl
@[simp] theorem setChan_tl (k : Nat) (c : Chan) (s : State) : (setChan k c s).tl = s.tl := rfl
@[simp] theorem setChan_slices (k : Nat) (c : Chan) (s : State) : (setChan k c s).slices = s.slices := rfl
@[simp] theorem setChan_ports (k : Nat) (c : Chan) (s : State) : (setChan k c s).ports = s.ports := rfl
@[simp] theorem setChan_ctxs (k : Nat) (c : Chan) (s : State) : (setChan k c s).ctxs = s.ctxs := rfl
@[simp] theorem setChan_tlm (k : Nat) (c : Chan) (s : State) : (setChan k c s).tlm = s.tlm := rfl
@[simp] theorem setChan_dcache (k : Nat) (c : Chan) (s : State) : (setChan k c s).dcache = s.dcache := rfl
@[simp] theorem setChan_descs (k : Nat) (c : Chan) (s : State) : (setChan k c s).descs = s.descs := rfl
@[simp] theorem setChan_sched (k : Nat) (c : Chan) (s : State) : (setChan k c s).sched = s.sched := rfl
@[simp] theorem setChan_dram (k : Nat) (c : Chan) (s : State) : (setChan k c s).dram = s.dram := rfl
@[simp] theorem setChan_poison (k : Nat) (c : Chan) (s : State) : (setChan k c s).poison = s.poison := rfl
@[simp] theorem setChan_tlb (k : Nat) (c : Chan) (s : State) : (setChan k c s).tlb = s.tlb := rfl
@[simp] theorem setChan_fq (k : Nat) (c : Chan) (s : State) : (setChan k c s).fq = s.fq := rfl
@[simp] theorem setChan_dmaTurn (k : Nat) (c : Chan) (s : State) : (setChan k c s).dmaTurn = s.dmaTurn := rfl
@[simp] theorem setChan_scrubAt (k : Nat) (c : Chan) (s : State) : (setChan k c s).scrubAt = s.scrubAt := rfl
@[simp] theorem setChan_fetchers (k : Nat) (c : Chan) (s : State) : (setChan k c s).fetchers = s.fetchers := rfl
@[simp] theorem setChan_store (k : Nat) (c : Chan) (s : State) : (setChan k c s).store = s.store := rfl
@[simp] theorem setChan_storeBad (k : Nat) (c : Chan) (s : State) : (setChan k c s).storeBad = s.storeBad := rfl
@[simp] theorem setChan_marks (k : Nat) (c : Chan) (s : State) : (setChan k c s).marks = s.marks := rfl
@[simp] theorem setChan_trunk (k : Nat) (c : Chan) (s : State) : (setChan k c s).trunk = s.trunk := rfl
@[simp] theorem setChan_time (k : Nat) (c : Chan) (s : State) : (setChan k c s).time = s.time := rfl
@[simp] theorem setChan_net (k : Nat) (c : Chan) (s : State) : (setChan k c s).net = s.net := rfl
@[simp] theorem setChan_red (k : Nat) (c : Chan) (s : State) : (setChan k c s).red = s.red := rfl
@[simp] theorem setChan_led (k : Nat) (c : Chan) (s : State) : (setChan k c s).led = s.led := rfl
@[simp] theorem setChan_adc (k : Nat) (c : Chan) (s : State) : (setChan k c s).adc = s.adc := rfl
@[simp] theorem setChan_cal (k : Nat) (c : Chan) (s : State) : (setChan k c s).cal = s.cal := rfl
@[simp] theorem setChan_upd (k : Nat) (c : Chan) (s : State) : (setChan k c s).upd = s.upd := rfl
@[simp] theorem setChan_power (k : Nat) (c : Chan) (s : State) : (setChan k c s).power = s.power := rfl
@[simp] theorem setChan_boot (k : Nat) (c : Chan) (s : State) : (setChan k c s).boot = s.boot := rfl
@[simp] theorem setChan_gpi (k : Nat) (c : Chan) (s : State) : (setChan k c s).gpi = s.gpi := rfl
@[simp] theorem setChan_host (k : Nat) (c : Chan) (s : State) : (setChan k c s).host = s.host := rfl
@[simp] theorem setChan_crcBusy (k : Nat) (c : Chan) (s : State) : (setChan k c s).crcBusy = s.crcBusy := rfl
@[simp] theorem setChan_hostMem (k : Nat) (c : Chan) (s : State) : (setChan k c s).hostMem = s.hostMem := rfl
@[simp] theorem setChan_pending (k : Nat) (c : Chan) (s : State) : (setChan k c s).pending = s.pending := rfl

@[simp] theorem advance_upBase (k : Nat) (s : State) : (advance k s).upBase = s.upBase := rfl
@[simp] theorem advance_freeCtr (k : Nat) (s : State) : (advance k s).freeCtr = s.freeCtr := rfl
@[simp] theorem advance_regs (k : Nat) (s : State) : (advance k s).regs = s.regs := rfl
@[simp] theorem advance_armed (k : Nat) (s : State) : (advance k s).armed = s.armed := rfl
@[simp] theorem advance_heldLow (k : Nat) (s : State) : (advance k s).heldLow = s.heldLow := rfl
@[simp] theorem advance_setNow (k : Nat) (s : State) : (advance k s).setNow = s.setNow := rfl
@[simp] theorem advance_lastIssue (k : Nat) (s : State) : (advance k s).lastIssue = s.lastIssue := rfl
@[simp] theorem advance_issuedAt (k : Nat) (s : State) : (advance k s).issuedAt = s.issuedAt := rfl
@[simp] theorem advance_woke (k : Nat) (s : State) : (advance k s).woke = s.woke := rfl
@[simp] theorem advance_crcTurns (k : Nat) (s : State) : (advance k s).crcTurns = s.crcTurns := rfl
@[simp] theorem advance_edges (k : Nat) (s : State) : (advance k s).edges = s.edges := rfl
@[simp] theorem advance_latent (k : Nat) (s : State) : (advance k s).latent = s.latent := rfl
@[simp] theorem advance_walkCache (k : Nat) (s : State) : (advance k s).walkCache = s.walkCache := rfl
@[simp] theorem advance_tlbis (k : Nat) (s : State) : (advance k s).tlbis = s.tlbis := rfl
@[simp] theorem advance_capture (k : Nat) (s : State) : (advance k s).capture = s.capture := rfl
@[simp] theorem advance_rcd (k : Nat) (s : State) : (advance k s).rcd = s.rcd := rfl
@[simp] theorem advance_tl (k : Nat) (s : State) : (advance k s).tl = s.tl := rfl
@[simp] theorem advance_slices (k : Nat) (s : State) : (advance k s).slices = s.slices := rfl
@[simp] theorem advance_ports (k : Nat) (s : State) : (advance k s).ports = s.ports := rfl
@[simp] theorem advance_ctxs (k : Nat) (s : State) : (advance k s).ctxs = s.ctxs := rfl
@[simp] theorem advance_tlm (k : Nat) (s : State) : (advance k s).tlm = s.tlm := rfl
@[simp] theorem advance_dcache (k : Nat) (s : State) : (advance k s).dcache = s.dcache := rfl
@[simp] theorem advance_descs (k : Nat) (s : State) : (advance k s).descs = s.descs := rfl
@[simp] theorem advance_sched (k : Nat) (s : State) : (advance k s).sched = s.sched := rfl
@[simp] theorem advance_dram (k : Nat) (s : State) : (advance k s).dram = s.dram := rfl
@[simp] theorem advance_poison (k : Nat) (s : State) : (advance k s).poison = s.poison := rfl
@[simp] theorem advance_tlb (k : Nat) (s : State) : (advance k s).tlb = s.tlb := rfl
@[simp] theorem advance_fq (k : Nat) (s : State) : (advance k s).fq = s.fq := rfl
@[simp] theorem advance_chans (k : Nat) (s : State) : (advance k s).chans = s.chans := rfl
@[simp] theorem advance_dmaTurn (k : Nat) (s : State) : (advance k s).dmaTurn = s.dmaTurn := rfl
@[simp] theorem advance_scrubAt (k : Nat) (s : State) : (advance k s).scrubAt = s.scrubAt := rfl
@[simp] theorem advance_fetchers (k : Nat) (s : State) : (advance k s).fetchers = s.fetchers := rfl
@[simp] theorem advance_store (k : Nat) (s : State) : (advance k s).store = s.store := rfl
@[simp] theorem advance_storeBad (k : Nat) (s : State) : (advance k s).storeBad = s.storeBad := rfl
@[simp] theorem advance_marks (k : Nat) (s : State) : (advance k s).marks = s.marks := rfl
@[simp] theorem advance_trunk (k : Nat) (s : State) : (advance k s).trunk = s.trunk := rfl
@[simp] theorem advance_time (k : Nat) (s : State) : (advance k s).time = s.time := rfl
@[simp] theorem advance_net (k : Nat) (s : State) : (advance k s).net = s.net := rfl
@[simp] theorem advance_red (k : Nat) (s : State) : (advance k s).red = s.red := rfl
@[simp] theorem advance_led (k : Nat) (s : State) : (advance k s).led = s.led := rfl
@[simp] theorem advance_adc (k : Nat) (s : State) : (advance k s).adc = s.adc := rfl
@[simp] theorem advance_cal (k : Nat) (s : State) : (advance k s).cal = s.cal := rfl
@[simp] theorem advance_upd (k : Nat) (s : State) : (advance k s).upd = s.upd := rfl
@[simp] theorem advance_power (k : Nat) (s : State) : (advance k s).power = s.power := rfl
@[simp] theorem advance_boot (k : Nat) (s : State) : (advance k s).boot = s.boot := rfl
@[simp] theorem advance_gpi (k : Nat) (s : State) : (advance k s).gpi = s.gpi := rfl
@[simp] theorem advance_host (k : Nat) (s : State) : (advance k s).host = s.host := rfl
@[simp] theorem advance_crcBusy (k : Nat) (s : State) : (advance k s).crcBusy = s.crcBusy := rfl
@[simp] theorem advance_hostMem (k : Nat) (s : State) : (advance k s).hostMem = s.hostMem := rfl
@[simp] theorem advance_pending (k : Nat) (s : State) : (advance k s).pending = s.pending := rfl

end Sys2Proof.Machine
end

