-- ==== Sys2Proof/Laws/Ops.lean ====
section
/-! SUPPORT. What the shared operations do: registers, instances, folds, the recorder's intake, and
how a command ends. -/

namespace Sys2Proof.Machine

/-! ### Folds -/

/-- What every turn of a fold keeps, the fold keeps. -/
theorem upTo_ind {α : Type} (P : α → Prop) (f : Nat → α → α) (hf : ∀ i a, P a → P (f i a)) :
    ∀ n a, P a → P (upTo n f a)
  | 0, _, h => h
  | n + 1, a, h => hf n _ (upTo_ind P f hf n a h)

theorem forAll_ind {α γ : Type} (P : α → Prop) (f : γ → α → α) (hf : ∀ x a, P a → P (f x a)) :
    ∀ l a, P a → P (forAll f l a)
  | [], _, h => h
  | x :: t, a, h => forAll_ind P f hf t _ (hf x a h)

/-! ### Registers -/

@[simp] theorem rd_wr_same (r : Reg) (v : Nat) (s : State) : rd r (wr r v s) = v % 2 ^ 64 := by
  simp [rd, wr]

theorem rd_wr_other {q r : Reg} (h : q.addr ≠ r.addr) (v : Nat) (s : State) :
    rd q (wr r v s) = rd q s := by
  simp [rd, wr, h]

theorem rd_congr {s t : State} (h : t.regs = s.regs) (r : Reg) : rd r t = rd r s := by
  simp [rd, h]

theorem rd_lt (r : Reg) (s : State) : rd r s < 2 ^ 64 := (kget r.reset r.addr s.regs).isLt

/-- A register written back with the reset value of its own name reads that value. -/
theorem rd_reset (r : Reg) : rd r State.reset = r.reset.toNat := rfl

/-! ### Instances -/

@[simp] theorem ctxAt_setCtx_same (k : Nat) (c : Ctx) (s : State) : ctxAt k (setCtx k c s) = c := by
  simp [ctxAt, setCtx]
@[simp] theorem ctxAt_setCtx_other {j k : Nat} (h : j ≠ k) (c : Ctx) (s : State) :
    ctxAt j (setCtx k c s) = ctxAt j s := by
  simp [ctxAt, setCtx, h]
@[simp] theorem ctxAt_updCtx_same (k : Nat) (f : Ctx → Ctx) (s : State) :
    ctxAt k (updCtx k f s) = f (ctxAt k s) := by
  simp [updCtx]
@[simp] theorem ctxAt_updCtx_other {j k : Nat} (h : j ≠ k) (f : Ctx → Ctx) (s : State) :
    ctxAt j (updCtx k f s) = ctxAt j s := by
  simp [updCtx, h]
theorem ctxAt_congr {s t : State} (h : t.ctxs = s.ctxs) (k : Nat) : ctxAt k t = ctxAt k s := by
  simp [ctxAt, h]

@[simp] theorem descAt_setDesc_same (d : Nat) (c : Desc) (s : State) : descAt d (setDesc d c s) = c := by
  simp [descAt, setDesc]
@[simp] theorem descAt_setDesc_other {e d : Nat} (h : e ≠ d) (c : Desc) (s : State) :
    descAt e (setDesc d c s) = descAt e s := by
  simp [descAt, setDesc, h]
@[simp] theorem schedAt_setSched_same (k : Nat) (c : SchedSt) (s : State) :
    schedAt k (setSched k c s) = c := by
  simp [schedAt, setSched]
@[simp] theorem sliceAt_setSlice_same (k : Nat) (c : SliceSt) (s : State) :
    sliceAt k (setSlice k c s) = c := by
  simp [sliceAt, setSlice]
@[simp] theorem portAt_setPort_same (k : Nat) (c : PortSt) (s : State) :
    portAt k (setPort k c s) = c := by
  simp [portAt, setPort]
@[simp] theorem chanAt_setChan_same (k : Nat) (c : Chan) (s : State) :
    chanAt k (setChan k c s) = c := by
  simp [chanAt, setChan]

/-! ### The recorder's intake -/

/-- t differs from s at most in the recorder: its own state, its registers, and R9's note of the bits
set on this clock. -/
structure RecOnly (s t : State) : Prop where
  same : t = { s with regs := t.regs, rcd := t.rcd, setNow := t.setNow }
  reg : ∀ r : Reg, ¬ (recBase ≤ r.addr ∧ r.addr < recBase + 0x10000) → rd r t = rd r s

theorem RecOnly.refl (s : State) : RecOnly s s := ⟨rfl, fun _ _ => rfl⟩

theorem RecOnly.trans {a b c : State} (h : RecOnly a b) (g : RecOnly b c) : RecOnly a c := by
  refine ⟨?_, fun r hr => (g.reg r hr).trans (h.reg r hr)⟩
  rw [g.same, h.same]

theorem recOnly_wr {r : Reg} (hr : recBase ≤ r.addr ∧ r.addr < recBase + 0x10000) (v : Nat)
    (s : State) : RecOnly s (wr r v s) :=
  ⟨rfl, fun _ hq => rd_wr_other (fun h => hq (by rw [h]; exact hr)) v s⟩

theorem recOnly_updRcd (f : RecSt → RecSt) (s : State) : RecOnly s (updRcd f s) :=
  ⟨rfl, fun _ _ => rfl⟩

theorem recOnly_orReg {r : Reg} (hr : recBase ≤ r.addr ∧ r.addr < recBase + 0x10000) (m : Nat)
    (s : State) : RecOnly s (orReg r m s) :=
  ⟨rfl, fun _ hq => (rd_wr_other (fun h => hq (by rw [h]; exact hr)) _ _).trans (rd_congr rfl _)⟩

theorem beginCommit_recOnly (s : State) : RecOnly s (beginCommit s) := by
  unfold beginCommit
  split
  · exact recOnly_updRcd _ s
  · exact RecOnly.refl s

theorem startFlush_recOnly (s : State) : RecOnly s (startFlush s) := by
  unfold startFlush
  dsimp only
  refine (recOnly_updRcd (fun q => { q with lastFlush := s.clk }) s).trans
    (RecOnly.trans ?_ (beginCommit_recOnly _))
  split
  · exact RecOnly.refl _
  · exact recOnly_wr (by decide) _ _

theorem takeSeq_recOnly (s : State) : RecOnly s (takeSeq s) := by
  unfold takeSeq
  split
  · exact RecOnly.refl s
  · exact recOnly_wr (by decide) _ s

theorem flushIfDue_recOnly (sev : Nat) (s : State) : RecOnly s (flushIfDue sev s) := by
  unfold flushIfDue
  split
  · exact startFlush_recOnly s
  · exact RecOnly.refl s

theorem stage_recOnly (e : Ev) (s : State) : RecOnly s (stage e s) :=
  (takeSeq_recOnly s).trans ((recOnly_updRcd _ _).trans
    ((flushIfDue_recOnly _ _).trans (beginCommit_recOnly _)))

theorem loseRec_recOnly (code : Nat) (s : State) : RecOnly s (loseRec code s) := by
  unfold loseRec
  dsimp only
  exact (recOnly_wr (by decide) _ s).trans ((recOnly_orReg (by decide) _ _).trans
    ((recOnly_orReg (by decide) _ _).trans (recOnly_updRcd _ _)))

theorem enterRec_recOnly (e : Ev) (s : State) : RecOnly s (enterRec e s) := by
  unfold enterRec
  split
  · exact stage_recOnly e s
  · exact loseRec_recOnly _ s

theorem noteTurn_recOnly (k n : Nat) (s : State) : RecOnly s (noteTurn k n s) := by
  unfold noteTurn
  exact recOnly_updRcd _ s

/-- Settling moves the events of a command into the recorder, and does nothing else. -/
theorem settle_recOnly (s : State) : RecOnly s (settle s) := by
  have h := (recOnly_updRcd (fun q => { q with arriving := [] }) s).trans
    (forAll_ind (RecOnly _) enterRec (fun e t h => h.trans (enterRec_recOnly e t)) (evSort s.rcd.arriving) _
      (RecOnly.refl _))
  unfold settle
  dsimp only
  split
  · exact h
  · exact h.trans (noteTurn_recOnly _ _ _)

theorem settle_form (s : State) :
    settle s = { s with regs := (settle s).regs, rcd := (settle s).rcd, setNow := (settle s).setNow } :=
  (settle_recOnly s).same

theorem rd_settle {r : Reg} (h : ¬ (recBase ≤ r.addr ∧ r.addr < recBase + 0x10000)) (s : State) :
    rd r (settle s) = rd r s := (settle_recOnly s).reg r h

/-- Entering a record sends no new one. -/
theorem beginCommit_arriving (s : State) : (beginCommit s).rcd.arriving = s.rcd.arriving := by
  unfold beginCommit
  split <;> rfl

theorem startFlush_arriving (s : State) : (startFlush s).rcd.arriving = s.rcd.arriving := by
  unfold startFlush
  dsimp only
  rw [beginCommit_arriving]
  split <;> rfl

theorem flushIfDue_arriving (sev : Nat) (s : State) :
    (flushIfDue sev s).rcd.arriving = s.rcd.arriving := by
  unfold flushIfDue
  split
  · exact startFlush_arriving s
  · rfl

theorem stage_arriving (e : Ev) (s : State) : (stage e s).rcd.arriving = s.rcd.arriving := by
  have h : (takeSeq s).rcd.arriving = s.rcd.arriving := by unfold takeSeq; split <;> rfl
  exact (beginCommit_arriving _).trans ((flushIfDue_arriving _ _).trans h)

theorem enterRec_arriving (e : Ev) (s : State) : (enterRec e s).rcd.arriving = s.rcd.arriving := by
  unfold enterRec
  split
  · exact stage_arriving e s
  · rfl

@[simp] theorem settle_arriving (s : State) : (settle s).rcd.arriving = [] := by
  have h := forAll_ind (fun t => t.rcd.arriving = []) enterRec
    (fun e t h => (enterRec_arriving e t).trans h) (evSort s.rcd.arriving)
    (updRcd (fun q => { q with arriving := [] }) s) rfl
  unfold settle
  dsimp only
  split
  · exact h
  · exact h

/-- A state with no event on its way settles as it is. -/
theorem settle_quiet {s : State} (h : s.rcd.arriving = []) : settle s = s := by
  have : updRcd (fun q => { q with arriving := [] }) s = s := by
    unfold updRcd; rw [← h]
  simp only [settle, h, evSort, List.foldl, forAll, this, Nat.sub_self, if_true]

/-! ### What a command leaves -/

@[simp] theorem settle_clk (s : State) : (settle s).clk = s.clk := by rw [settle_form]
@[simp] theorem settle_upBase (s : State) : (settle s).upBase = s.upBase := by rw [settle_form]
@[simp] theorem settle_cnt (s : State) : (settle s).cnt = s.cnt := by rw [settle_form]
@[simp] theorem settle_freeCtr (s : State) : (settle s).freeCtr = s.freeCtr := by rw [settle_form]
@[simp] theorem settle_armed (s : State) : (settle s).armed = s.armed := by rw [settle_form]
@[simp] theorem settle_heldLow (s : State) : (settle s).heldLow = s.heldLow := by rw [settle_form]
@[simp] theorem settle_lastIssue (s : State) : (settle s).lastIssue = s.lastIssue := by rw [settle_form]
@[simp] theorem settle_issuedAt (s : State) : (settle s).issuedAt = s.issuedAt := by rw [settle_form]
@[simp] theorem settle_woke (s : State) : (settle s).woke = s.woke := by rw [settle_form]
@[simp] theorem settle_crcTurns (s : State) : (settle s).crcTurns = s.crcTurns := by rw [settle_form]
@[simp] theorem settle_edges (s : State) : (settle s).edges = s.edges := by rw [settle_form]
@[simp] theorem settle_latent (s : State) : (settle s).latent = s.latent := by rw [settle_form]
@[simp] theorem settle_walkCache (s : State) : (settle s).walkCache = s.walkCache := by rw [settle_form]
@[simp] theorem settle_tlbis (s : State) : (settle s).tlbis = s.tlbis := by rw [settle_form]
@[simp] theorem settle_capture (s : State) : (settle s).capture = s.capture := by rw [settle_form]
@[simp] theorem settle_tl (s : State) : (settle s).tl = s.tl := by rw [settle_form]
@[simp] theorem settle_slices (s : State) : (settle s).slices = s.slices := by rw [settle_form]
@[simp] theorem settle_ports (s : State) : (settle s).ports = s.ports := by rw [settle_form]
@[simp] theorem settle_ctxs (s : State) : (settle s).ctxs = s.ctxs := by rw [settle_form]
@[simp] theorem settle_tlm (s : State) : (settle s).tlm = s.tlm := by rw [settle_form]
@[simp] theorem settle_dcache (s : State) : (settle s).dcache = s.dcache := by rw [settle_form]
@[simp] theorem settle_descs (s : State) : (settle s).descs = s.descs := by rw [settle_form]
@[simp] theorem settle_sched (s : State) : (settle s).sched = s.sched := by rw [settle_form]
@[simp] theorem settle_dram (s : State) : (settle s).dram = s.dram := by rw [settle_form]
@[simp] theorem settle_poison (s : State) : (settle s).poison = s.poison := by rw [settle_form]
@[simp] theorem settle_tlb (s : State) : (settle s).tlb = s.tlb := by rw [settle_form]
@[simp] theorem settle_fq (s : State) : (settle s).fq = s.fq := by rw [settle_form]
@[simp] theorem settle_chans (s : State) : (settle s).chans = s.chans := by rw [settle_form]
@[simp] theorem settle_dmaTurn (s : State) : (settle s).dmaTurn = s.dmaTurn := by rw [settle_form]
@[simp] theorem settle_scrubAt (s : State) : (settle s).scrubAt = s.scrubAt := by rw [settle_form]
@[simp] theorem settle_fetchers (s : State) : (settle s).fetchers = s.fetchers := by rw [settle_form]
@[simp] theorem settle_store (s : State) : (settle s).store = s.store := by rw [settle_form]
@[simp] theorem settle_storeBad (s : State) : (settle s).storeBad = s.storeBad := by rw [settle_form]
@[simp] theorem settle_marks (s : State) : (settle s).marks = s.marks := by rw [settle_form]
@[simp] theorem settle_trunk (s : State) : (settle s).trunk = s.trunk := by rw [settle_form]
@[simp] theorem settle_time (s : State) : (settle s).time = s.time := by rw [settle_form]
@[simp] theorem settle_net (s : State) : (settle s).net = s.net := by rw [settle_form]
@[simp] theorem settle_red (s : State) : (settle s).red = s.red := by rw [settle_form]
@[simp] theorem settle_led (s : State) : (settle s).led = s.led := by rw [settle_form]
@[simp] theorem settle_adc (s : State) : (settle s).adc = s.adc := by rw [settle_form]
@[simp] theorem settle_cal (s : State) : (settle s).cal = s.cal := by rw [settle_form]
@[simp] theorem settle_upd (s : State) : (settle s).upd = s.upd := by rw [settle_form]
@[simp] theorem settle_power (s : State) : (settle s).power = s.power := by rw [settle_form]
@[simp] theorem settle_boot (s : State) : (settle s).boot = s.boot := by rw [settle_form]
@[simp] theorem settle_gpi (s : State) : (settle s).gpi = s.gpi := by rw [settle_form]
@[simp] theorem settle_host (s : State) : (settle s).host = s.host := by rw [settle_form]
@[simp] theorem settle_crcBusy (s : State) : (settle s).crcBusy = s.crcBusy := by rw [settle_form]
@[simp] theorem settle_hostMem (s : State) : (settle s).hostMem = s.hostMem := by rw [settle_form]
@[simp] theorem settle_pending (s : State) : (settle s).pending = s.pending := by rw [settle_form]

@[simp] theorem ended_upBase (c : Nat) (q : List Instr) (s : State) : (ended c q s).upBase = s.upBase :=
  settle_upBase s
@[simp] theorem ended_cnt (c : Nat) (q : List Instr) (s : State) : (ended c q s).cnt = s.cnt :=
  settle_cnt s
@[simp] theorem ended_freeCtr (c : Nat) (q : List Instr) (s : State) : (ended c q s).freeCtr = s.freeCtr :=
  settle_freeCtr s
@[simp] theorem ended_armed (c : Nat) (q : List Instr) (s : State) : (ended c q s).armed = s.armed :=
  settle_armed s
@[simp] theorem ended_heldLow (c : Nat) (q : List Instr) (s : State) : (ended c q s).heldLow = s.heldLow :=
  settle_heldLow s
@[simp] theorem ended_lastIssue (c : Nat) (q : List Instr) (s : State) : (ended c q s).lastIssue = s.lastIssue :=
  settle_lastIssue s
@[simp] theorem ended_issuedAt (c : Nat) (q : List Instr) (s : State) : (ended c q s).issuedAt = s.issuedAt :=
  settle_issuedAt s
@[simp] theorem ended_woke (c : Nat) (q : List Instr) (s : State) : (ended c q s).woke = s.woke :=
  settle_woke s
@[simp] theorem ended_crcTurns (c : Nat) (q : List Instr) (s : State) : (ended c q s).crcTurns = s.crcTurns :=
  settle_crcTurns s
@[simp] theorem ended_edges (c : Nat) (q : List Instr) (s : State) : (ended c q s).edges = s.edges :=
  settle_edges s
@[simp] theorem ended_latent (c : Nat) (q : List Instr) (s : State) : (ended c q s).latent = s.latent :=
  settle_latent s
@[simp] theorem ended_walkCache (c : Nat) (q : List Instr) (s : State) : (ended c q s).walkCache = s.walkCache :=
  settle_walkCache s
@[simp] theorem ended_tlbis (c : Nat) (q : List Instr) (s : State) : (ended c q s).tlbis = s.tlbis :=
  settle_tlbis s
@[simp] theorem ended_capture (c : Nat) (q : List Instr) (s : State) : (ended c q s).capture = s.capture :=
  settle_capture s
@[simp] theorem ended_tl (c : Nat) (q : List Instr) (s : State) : (ended c q s).tl = s.tl :=
  settle_tl s
@[simp] theorem ended_slices (c : Nat) (q : List Instr) (s : State) : (ended c q s).slices = s.slices :=
  settle_slices s
@[simp] theorem ended_ports (c : Nat) (q : List Instr) (s : State) : (ended c q s).ports = s.ports :=
  settle_ports s
@[simp] theorem ended_ctxs (c : Nat) (q : List Instr) (s : State) : (ended c q s).ctxs = s.ctxs :=
  settle_ctxs s
@[simp] theorem ended_tlm (c : Nat) (q : List Instr) (s : State) : (ended c q s).tlm = s.tlm :=
  settle_tlm s
@[simp] theorem ended_dcache (c : Nat) (q : List Instr) (s : State) : (ended c q s).dcache = s.dcache :=
  settle_dcache s
@[simp] theorem ended_descs (c : Nat) (q : List Instr) (s : State) : (ended c q s).descs = s.descs :=
  settle_descs s
@[simp] theorem ended_sched (c : Nat) (q : List Instr) (s : State) : (ended c q s).sched = s.sched :=
  settle_sched s
@[simp] theorem ended_dram (c : Nat) (q : List Instr) (s : State) : (ended c q s).dram = s.dram :=
  settle_dram s
@[simp] theorem ended_poison (c : Nat) (q : List Instr) (s : State) : (ended c q s).poison = s.poison :=
  settle_poison s
@[simp] theorem ended_tlb (c : Nat) (q : List Instr) (s : State) : (ended c q s).tlb = s.tlb :=
  settle_tlb s
@[simp] theorem ended_fq (c : Nat) (q : List Instr) (s : State) : (ended c q s).fq = s.fq :=
  settle_fq s
@[simp] theorem ended_chans (c : Nat) (q : List Instr) (s : State) : (ended c q s).chans = s.chans :=
  settle_chans s
@[simp] theorem ended_dmaTurn (c : Nat) (q : List Instr) (s : State) : (ended c q s).dmaTurn = s.dmaTurn :=
  settle_dmaTurn s
@[simp] theorem ended_scrubAt (c : Nat) (q : List Instr) (s : State) : (ended c q s).scrubAt = s.scrubAt :=
  settle_scrubAt s
@[simp] theorem ended_fetchers (c : Nat) (q : List Instr) (s : State) : (ended c q s).fetchers = s.fetchers :=
  settle_fetchers s
@[simp] theorem ended_store (c : Nat) (q : List Instr) (s : State) : (ended c q s).store = s.store :=
  settle_store s
@[simp] theorem ended_storeBad (c : Nat) (q : List Instr) (s : State) : (ended c q s).storeBad = s.storeBad :=
  settle_storeBad s
@[simp] theorem ended_marks (c : Nat) (q : List Instr) (s : State) : (ended c q s).marks = s.marks :=
  settle_marks s
@[simp] theorem ended_trunk (c : Nat) (q : List Instr) (s : State) : (ended c q s).trunk = s.trunk :=
  settle_trunk s
@[simp] theorem ended_time (c : Nat) (q : List Instr) (s : State) : (ended c q s).time = s.time :=
  settle_time s
@[simp] theorem ended_net (c : Nat) (q : List Instr) (s : State) : (ended c q s).net = s.net :=
  settle_net s
@[simp] theorem ended_red (c : Nat) (q : List Instr) (s : State) : (ended c q s).red = s.red :=
  settle_red s
@[simp] theorem ended_led (c : Nat) (q : List Instr) (s : State) : (ended c q s).led = s.led :=
  settle_led s
@[simp] theorem ended_adc (c : Nat) (q : List Instr) (s : State) : (ended c q s).adc = s.adc :=
  settle_adc s
@[simp] theorem ended_cal (c : Nat) (q : List Instr) (s : State) : (ended c q s).cal = s.cal :=
  settle_cal s
@[simp] theorem ended_upd (c : Nat) (q : List Instr) (s : State) : (ended c q s).upd = s.upd :=
  settle_upd s
@[simp] theorem ended_power (c : Nat) (q : List Instr) (s : State) : (ended c q s).power = s.power :=
  settle_power s
@[simp] theorem ended_boot (c : Nat) (q : List Instr) (s : State) : (ended c q s).boot = s.boot :=
  settle_boot s
@[simp] theorem ended_gpi (c : Nat) (q : List Instr) (s : State) : (ended c q s).gpi = s.gpi :=
  settle_gpi s
@[simp] theorem ended_host (c : Nat) (q : List Instr) (s : State) : (ended c q s).host = s.host :=
  settle_host s
@[simp] theorem ended_crcBusy (c : Nat) (q : List Instr) (s : State) : (ended c q s).crcBusy = s.crcBusy :=
  settle_crcBusy s
@[simp] theorem ended_hostMem (c : Nat) (q : List Instr) (s : State) : (ended c q s).hostMem = s.hostMem :=
  settle_hostMem s
@[simp] theorem ended_clk (c : Nat) (q : List Instr) (s : State) : (ended c q s).clk = c := rfl
@[simp] theorem ended_pending (c : Nat) (q : List Instr) (s : State) : (ended c q s).pending = q := rfl
@[simp] theorem ended_arriving (c : Nat) (q : List Instr) (s : State) :
    (ended c q s).rcd.arriving = [] := settle_arriving s

theorem rd_ended {r : Reg} (h : ¬ (recBase ≤ r.addr ∧ r.addr < recBase + 0x10000)) (c : Nat)
    (q : List Instr) (s : State) : rd r (ended c q s) = rd r s :=
  (rd_congr rfl r).trans (rd_settle h s)

@[simp] theorem ctxAt_ended (k c : Nat) (q : List Instr) (s : State) :
    ctxAt k (ended c q s) = ctxAt k s := ctxAt_congr (ended_ctxs c q s) k

end Sys2Proof.Machine
end

