-- ==== Sys2Proof/Laws/Fetch.lean ====
section
/-! SUPPORT. What a translation that succeeds, and an instruction fetch that succeeds, leave
unchanged; and how an instruction that issues ends. -/

namespace Sys2Proof.Machine

/-- t differs from s at most in the TLBs and walk caches, the walk counts, the free values drawn and the
flipped bits met (R174); where no flipped bits wait, none are met. -/
structure TlbOnly (s t : State) : Prop where
  same : t = { s with
    regs := t.regs, tlb := t.tlb, walkCache := t.walkCache, freeCtr := t.freeCtr
    latent := t.latent, poison := t.poison, rcd := t.rcd, setNow := t.setNow }
  reg : ∀ r, ¬ IsWalkCount r → ¬ IsEccNote r → rd r t = rd r s
  clean : s.latent = [] → t.latent = [] ∧ t.poison = s.poison ∧ t.rcd = s.rcd
    ∧ ∀ r, ¬ IsWalkCount r → rd r t = rd r s

theorem TlbOnly.refl (s : State) : TlbOnly s s :=
  ⟨rfl, fun _ _ _ => rfl, fun h => ⟨h, rfl, rfl, fun _ _ => rfl⟩⟩

theorem TlbOnly.trans {a b c : State} (h : TlbOnly a b) (g : TlbOnly b c) : TlbOnly a c := by
  refine ⟨?_, fun r h1 h2 => (g.reg r h1 h2).trans (h.reg r h1 h2), fun ha => ?_⟩
  · rw [g.same, h.same]
  · obtain ⟨h1, h2, h3, h4⟩ := h.clean ha
    obtain ⟨g1, g2, g3, g4⟩ := g.clean h1
    exact ⟨g1, g2.trans h2, g3.trans h3, fun r hr => (g4 r hr).trans (h4 r hr)⟩

/-- A change of nothing that the recorder, DRAM or a register shows. -/
theorem tlbOnly_of {s t : State} (same : t = { s with tlb := t.tlb, walkCache := t.walkCache, freeCtr := t.freeCtr }) :
    TlbOnly s t := by
  rw [same]
  exact ⟨rfl, fun _ _ _ => rfl, fun h => ⟨h, rfl, rfl, fun _ _ => rfl⟩⟩

theorem tlbOnly_setTlb (t : Nat) (l : List TlbEntry) (s : State) : TlbOnly s (setTlb t l s) := tlbOnly_of rfl
theorem tlbOnly_setWalkCache (t : Nat) (l : List WalkEntry) (s : State) : TlbOnly s (setWalkCache t l s) :=
  tlbOnly_of rfl
theorem tlbOnly_fresh (s : State) : TlbOnly s (fresh s).2 := tlbOnly_of rfl

theorem tlbBlock_lt (t : Nat) : tlbBlock t < 5 := by
  unfold tlbBlock; split <;> omega

theorem tlbOnly_count (t : Nat) (s : State) : TlbOnly s (bump (Mmu.WALK_COUNT (tlbBlock t)) s) :=
  have h (r : Reg) (hr : ¬ IsWalkCount r) : rd r (bump (Mmu.WALK_COUNT (tlbBlock t)) s) = rd r s :=
    rd_wr_other (fun h => hr ⟨_, tlbBlock_lt t, h⟩) _ s
  ⟨rfl, fun r hr _ => h r hr, fun hl => ⟨hl, rfl, rfl, h⟩⟩

/-! ### Flipped bits that an access meets (R174) -/

/-- t differs from s at most in what the controllers note of an error. -/
structure EccOnly (s t : State) : Prop where
  same : t = { s with regs := t.regs, latent := t.latent, poison := t.poison, rcd := t.rcd, setNow := t.setNow }
  reg : ∀ r, ¬ IsEccNote r → rd r t = rd r s

theorem EccOnly.refl (s : State) : EccOnly s s := ⟨rfl, fun _ _ => rfl⟩
theorem EccOnly.trans {a b c : State} (h : EccOnly a b) (g : EccOnly b c) : EccOnly a c :=
  ⟨by rw [g.same, h.same], fun r hr => (g.reg r hr).trans (h.reg r hr)⟩

theorem eccOnly_rcd (f : RecSt → RecSt) (s : State) : EccOnly s (updRcd f s) := ⟨rfl, fun _ _ => rfl⟩

theorem eccOnly_wr {r : Reg} (h : IsEccNote r) (v : Nat) (s : State) : EccOnly s (wr r v s) := by
  obtain ⟨sl, hs, hm⟩ := h
  exact ⟨rfl, fun q hq => rd_wr_other (fun e => hq ⟨sl, hs, by rw [e]; exact hm⟩) v s⟩

theorem eccOnly_orReg {r : Reg} (h : IsEccNote r) (m : Nat) (s : State) : EccOnly s (orReg r m s) :=
  EccOnly.trans (b := { s with setNow := kset (0, 0) r.addr (s.clk, setOnClock r s ||| m) s.setNow })
    ⟨rfl, fun _ _ => rfl⟩ (eccOnly_wr h _ _)

theorem eccOnly_bump {r : Reg} (h : IsEccNote r) (s : State) : EccOnly s (bump r s) := eccOnly_wr h _ s

theorem askWindow_eccOnly (key ns n : Nat) (s : State) : EccOnly s (askWindow key ns n s).2.2 := by
  unfold askWindow
  dsimp only
  repeat' split
  all_goals exact ⟨rfl, fun _ _ => rfl⟩

theorem logEv_eccOnly (code inst : Nat) (p : List Byte) (s : State) : EccOnly s (logEv code inst p s) :=
  ⟨rfl, fun _ _ => rfl⟩

theorem logPerCounted_eccOnly (code inst ns : Nat) (p : Nat → List Byte) (s : State) :
    EccOnly s (logPerCounted code inst ns p s) := by
  have h := askWindow_eccOnly (winKey code inst 0xFF) ns 1 s
  unfold logPerCounted
  dsimp only
  split
  · exact h.trans (logEv_eccOnly _ _ _ _)
  · exact h

theorem dramSlice_lt (a : Nat) : dramSlice a < 4 := by unfold dramSlice; omega

theorem noteError_eccOnly (ue : Bool) (a : Nat) (q : Requester) (s : State) :
    EccOnly s (noteError ue a q s) :=
  have h := dramSlice_lt a
  (eccOnly_wr ⟨_, h, by simp⟩ a s).trans (eccOnly_wr ⟨_, h, by simp⟩ _ _)

theorem foundError_eccOnly (ue : Bool) (a : Nat) (q : Requester) (s : State) :
    EccOnly s (foundError ue a q s) := by
  have h := dramSlice_lt a
  have hc : IsEccNote (Mc.MC_CE_COUNT (dramSlice a)) := ⟨_, h, by simp⟩
  have hu : IsEccNote (Mc.MC_UE_COUNT (dramSlice a)) := ⟨_, h, by simp⟩
  have hi : IsEccNote (Mmu.INT_STATUS (dramSlice a)) := ⟨_, h, by simp⟩
  unfold foundError
  dsimp only
  split
  · exact EccOnly.refl s
  · split
    · exact (EccOnly.trans (b := { s with poison := kset false (a / 64) true s.poison }) ⟨rfl, fun _ _ => rfl⟩
        ((noteError_eccOnly true a q _).trans ((eccOnly_bump hu _).trans
          ((eccOnly_orReg hi _ _).trans (logEv_eccOnly _ _ _ _)))))
    · exact (noteError_eccOnly false a q _).trans ((eccOnly_bump hc _).trans
        ((eccOnly_orReg hi _ _).trans (logPerCounted_eccOnly _ _ _ _ _)))

theorem meetLine_eccOnly (q : Requester) (l : Nat) (s : State) : EccOnly s (meetLine q l s) := by
  unfold meetLine
  split
  · exact EccOnly.refl s
  · exact EccOnly.trans (b := { s with latent := kset 0 l 0 s.latent }) ⟨rfl, fun _ _ => rfl⟩
      (foundError_eccOnly _ _ q _)

theorem meet_eccOnly (q : Requester) (a n : Nat) (s : State) : EccOnly s (meet q a n s) := by
  unfold meet
  split
  · exact EccOnly.refl s
  · exact forAll_ind (EccOnly s) _ (fun l t h => h.trans (meetLine_eccOnly q l t)) _ _ (EccOnly.refl s)

/-- Where no flipped bits wait, an access meets none. -/
@[simp] theorem meet_clean {s : State} (h : s.latent = []) (q : Requester) (a n : Nat) : meet q a n s = s := by
  simp [meet, h]

theorem tlbOnly_meet (q : Requester) (a n : Nat) (s : State) : TlbOnly s (meet q a n s) := by
  have h := meet_eccOnly q a n s
  refine ⟨?_, fun r _ hr => h.reg r hr, fun hl => ?_⟩
  · rw [h.same]
  · rw [meet_clean hl]
    exact ⟨hl, rfl, rfl, fun _ _ => rfl⟩

/-! ### Walks -/

theorem tlbOnly_meetTables (q : Nat → Requester) (n : Nat) : ∀ level table va s,
    TlbOnly s (meetTables q n level table va s) := by
  induction n with
  | zero => intro _ _ _ s; exact TlbOnly.refl s
  | succ n ih =>
    intro level table va s
    unfold meetTables
    dsimp only
    have h := tlbOnly_meet (q (table + va / 2 ^ (39 - 9 * level) % 512 * 8))
      (table + va / 2 ^ (39 - 9 * level) % 512 * 8) 8 s
    split
    · split
      · exact h.trans (ih _ _ _ _)
      · exact h
    · exact h

theorem tlbOnly_meetWalk (q : Nat → Requester) (t asid va : Nat) (s : State) :
    TlbOnly s (meetWalk q t asid va s) := by
  unfold meetWalk
  dsimp only
  have h := tlbOnly_meet (q (bitsOf (rd (Mmu.ASID_TABLE_BASE t) s) 39 12 * 4096 + asid * 8))
    (bitsOf (rd (Mmu.ASID_TABLE_BASE t) s) 39 12 * 4096 + asid * 8) 8 s
  split
  · split
    · exact h.trans (tlbOnly_meetTables _ _ _ _ _ _)
    · exact h
  · exact h

theorem tlbOnly_walkStart (t asid va : Nat) (s : State) : TlbOnly s (walkStart t asid va s).2 := by
  unfold walkStart
  dsimp only
  split
  · exact TlbOnly.refl s
  · split
    · exact TlbOnly.refl s
    · split
      · exact tlbOnly_fresh s
      · exact (tlbOnly_fresh s).trans (tlbOnly_setWalkCache _ _ _)

theorem tlbOnly_cachedWalk (t : Nat) (q : Nat → Requester) (asid va : Nat) (s : State) :
    TlbOnly s (cachedWalk t q asid va s).2.2 := by
  have h := tlbOnly_walkStart t asid va s
  unfold cachedWalk
  split
  · next e u hu =>
    rw [hu] at h
    exact h.trans (tlbOnly_meetTables _ _ _ _ _ _)
  · next u hu =>
    rw [hu] at h
    exact h.trans (tlbOnly_meetWalk _ _ _ _ _)

/-- A walk that gives an address. -/
theorem translateByWalk_pa {t : Nat} {q : Nat → Requester} {asid va : Nat} {acc : Acc} {s : State} {a : Nat}
    (h : (translateByWalk t q asid va acc s).1 = .pa a) :
    TlbOnly s (translateByWalk t q asid va acc s).2 := by
  revert h
  have hw := (tlbOnly_count t s).trans (tlbOnly_cachedWalk t q asid va (bump (Mmu.WALK_COUNT (tlbBlock t)) s))
  unfold translateByWalk
  dsimp only
  split
  · simp
  · simp
  · simp
  · next e own ws u hu =>
    rw [hu] at hw
    split
    · simp
    · split
      · simp
      · intro _
        exact hw.trans ((tlbOnly_setWalkCache _ _ _).trans (tlbOnly_setTlb _ _ _))

/-- A translation that gives an address. -/
theorem translateAs_pa {t : Nat} {q : Nat → Requester} {asid va : Nat} {acc : Acc} {s : State} {a : Nat}
    (h : (translateAs t q asid va acc s).1 = .pa a) :
    TlbOnly s (translateAs t q asid va acc s).2 := by
  revert h
  unfold translateAs
  dsimp only
  split
  · simp
  · split
    · exact translateByWalk_pa
    · next e _ =>
      by_cases hk : checkEntry e acc va = tablesGive t asid va acc s
      · simp only [hk, if_true]
        split
        · simp
        · intro _; exact TlbOnly.refl s
      · simp only [hk, if_false]
        split
        · split
          · simp
          · intro _; exact tlbOnly_fresh s
        · intro h
          exact ((tlbOnly_fresh s).trans (tlbOnly_setTlb _ _ _)).trans (translateByWalk_pa h)

theorem coreTranslate_pa {k va : Nat} {acc : Acc} {s : State} {a : Nat}
    (h : (coreTranslate k va acc s).1 = .pa a) : TlbOnly s (coreTranslate k va acc s).2 := by
  revert h
  unfold coreTranslate
  split
  · simp
  · exact translateAs_pa

theorem fetchWord_none {k va : Nat} {ext : Bool} {s : State} (h : (fetchWord k va ext s).1 = none) :
    TlbOnly s (fetchWord k va ext s).2 := by
  revert h
  unfold fetchWord
  split
  · intro _; exact TlbOnly.refl s
  · simp
  · split
    · simp
    · next a t ht =>
      intro _
      have := coreTranslate_pa (s := s) (k := k) (va := va) (acc := .fetch) (a := a) (by rw [ht])
      rw [ht] at this
      exact this.trans (tlbOnly_meet _ _ _ _)

/-- A fetch that raises nothing. -/
theorem fetch_none {k len : Nat} {s : State} (h : (fetch k len s).1 = none) :
    TlbOnly s (fetch k len s).2 := by
  revert h
  unfold fetch
  dsimp only
  split
  · simp
  · next t ht =>
    have h1 : TlbOnly s t := by
      have := fetchWord_none (s := s) (k := k) (va := (ctxAt k s).pc) (ext := false) (by rw [ht])
      rwa [ht] at this
    split
    · simp
    · split
      · split
        · simp
        · next u hu =>
          intro _
          have := fetchWord_none (s := t) (k := k) (va := ((ctxAt k s).pc + 4) % 2 ^ 48) (ext := true) (by rw [hu])
          rw [hu] at this
          exact h1.trans this
      · intro _; exact h1

/-! ### Instructions that issue -/

/-- The state in which the body of an instruction of c runs. -/
def fetched (c : CtxId) (len : Nat) (s : State) : State := noteIssue (ctxNo c) (fetch (ctxNo c) len s).2

theorem issue_eq {c : CtxId} {len : Nat} {s : State} (h : Issues c len s) {bad : Bool}
    (hb : bad = false) (body : Nat → State → State) :
    issue c len bad body s = .next (ended s.clk s.pending (body (ctxNo c) (fetched c len s))) := by
  obtain ⟨h1, h2⟩ := h
  have h3 : fetch (ctxNo c) len s = (none, (fetch (ctxNo c) len s).2) := by
    rw [← h2]
  unfold fetched
  simp only [issue, atOnce, issueAt, h1, hb]
  rw [h3]
  simp

/-- The fetch of an instruction that issues. -/
theorem fetch_only {c : CtxId} {len : Nat} {s : State} (h : Issues c len s) :
    TlbOnly s (fetch (ctxNo c) len s).2 := fetch_none h.2

/-- What the state in which the body runs keeps. -/
theorem fetched_same {c : CtxId} {len : Nat} {s : State} (h : Issues c len s) :
    let t := fetched c len s
    t = { s with
      regs := t.regs, tlb := t.tlb, walkCache := t.walkCache, freeCtr := t.freeCtr
      latent := t.latent, poison := t.poison, rcd := t.rcd, setNow := t.setNow
      lastIssue := t.lastIssue, issuedAt := t.issuedAt, woke := t.woke } := by
  unfold fetched
  rw [(fetch_only h).same]
  rfl

theorem fetched_ctx {c : CtxId} {len : Nat} {s : State} (h : Issues c len s) (k : Nat) :
    ctxAt k (fetched c len s) = ctxAt k s :=
  ctxAt_congr (by rw [fetched_same h]) k

theorem fetched_reg {c : CtxId} {len : Nat} {s : State} (h : Issues c len s) {r : Reg} (hw : ¬ IsWalkCount r)
    (he : s.latent = [] ∨ ¬ IsEccNote r) : rd r (fetched c len s) = rd r s := by
  refine Eq.trans (rd_congr rfl r) ?_
  cases he with
  | inl hl => exact ((fetch_only h).clean hl).2.2.2 r hw
  | inr hn => exact (fetch_only h).reg r hw hn

/-- What an instruction that changes nothing but its context leaves unchanged. -/
theorem onlyCtx_ended {c : CtxId} {len : Nat} {s : State} (h : Issues c len s) (g : Ctx → Ctx) :
    OnlyCtx (ctxNo c) s (ended s.clk s.pending (updCtx (ctxNo c) g (fetched c len s))) := by
  have hs := fetched_same h
  constructor
  · constructor
    · rfl
    · simp only [ended_cnt, updCtx, setCtx_cnt]; rw [hs]
    · rfl
    · simp only [ended_dram, updCtx, setCtx_dram]; rw [hs]
    · intro hl
      simp only [ended_poison, updCtx, setCtx_poison]
      exact ((fetch_only h).clean hl).2.1
    · simp only [ended_store, updCtx, setCtx_store]; rw [hs]
    · simp only [ended_descs, updCtx, setCtx_descs]; rw [hs]
    · simp only [ended_sched, updCtx, setCtx_sched]; rw [hs]
    · simp only [ended_boot, updCtx, setCtx_boot]; rw [hs]
    · simp only [ended_power, updCtx, setCtx_power]; rw [hs]
    · intro r h1 h2 h3
      rw [rd_ended h1]
      exact (rd_congr rfl r).trans (fetched_reg h h2 h3)
  · intro j hj
    rw [ctxAt_ended, ctxAt_updCtx_other hj, fetched_ctx h]
  · simp only [ended_tlm, updCtx, setCtx_tlm]; rw [hs]
  · simp only [ended_dcache, updCtx, setCtx_dcache]; rw [hs]

/-- An instruction that changes its own context and retires. -/
theorem retire_answers {c : CtxId} {len : Nat} {s : State} (h : Issues c len s) {bad : Bool}
    (hb : bad = false) (g : Ctx → Ctx) :
    ∃ t, issue c len bad (retireWith len g) s = .next t
      ∧ ctxAt (ctxNo c) t = (g (ctxAt (ctxNo c) s)).retire len ∧ OnlyCtx (ctxNo c) s t :=
  ⟨_, issue_eq h hb _, by
    rw [retireWith, ctxAt_ended, ctxAt_updCtx_same, fetched_ctx h], onlyCtx_ended h _⟩

end Sys2Proof.Machine
end

