-- ==== Sys2Proof/Laws/Memory.lean ====
section
/-! SUPPORT. What writing DRAM and TLM does: the bytes written, the bytes left, the canonical form. -/

namespace Sys2Proof.Machine

/-! ### DRAM -/

@[simp] theorem memByte_putByte_same (a : Nat) (b : Byte) (s : State) :
    memByte a (putByte a b s) = b := by simp [memByte, putByte]

theorem memByte_putByte_other {x a : Nat} (h : x ≠ a) (b : Byte) (s : State) :
    memByte x (putByte a b s) = memByte x s := by simp [memByte, putByte, h]

/-- Putting bytes leaves every other byte. -/
theorem memByte_putBytes_other (x : Nat) : ∀ (bs : List Byte) (a : Nat) (s : State),
    ¬ (a ≤ x ∧ x < a + bs.length) → memByte x (putBytes a bs s) = memByte x s
  | [], _, _, _ => rfl
  | b :: t, a, s, h => by
    simp only [List.length_cons] at h
    rw [putBytes, memByte_putBytes_other x t (a + 1) _ (by omega), memByte_putByte_other (by omega)]

/-- Byte i of the bytes put stands at a + i. -/
theorem memByte_putBytes (bs : List Byte) : ∀ (a i : Nat) (s : State) (h : i < bs.length),
    memByte (a + i) (putBytes a bs s) = bs[i] := by
  induction bs with
  | nil => intro _ i _ h; simp at h
  | cons b t ih =>
    intro a i s h
    cases i with
    | zero => rw [putBytes, memByte_putBytes_other _ _ _ _ (by omega)]; simp
    | succ i =>
      have := ih (a + 1) i (putByte a b s) (by simpa using h)
      rw [show a + 1 + i = a + (i + 1) by omega] at this
      rw [putBytes, this]; rfl

/-- t differs from s at most in DRAM and its poison. -/
structure MemOnly (s t : State) : Prop where
  same : t = { s with dram := t.dram, poison := t.poison }

theorem MemOnly.refl (s : State) : MemOnly s s := ⟨rfl⟩
theorem MemOnly.trans {a b c : State} (h : MemOnly a b) (g : MemOnly b c) : MemOnly a c :=
  ⟨by rw [g.same, h.same]⟩

theorem putBytes_memOnly : ∀ (bs : List Byte) (a : Nat) (s : State), MemOnly s (putBytes a bs s)
  | [], _, s => MemOnly.refl s
  | b :: t, a, s => MemOnly.trans (b := putByte a b s) ⟨rfl⟩ (putBytes_memOnly t (a + 1) _)

theorem writeLine_memOnly (a : Nat) (bs : List Byte) (s : State) : MemOnly s (writeLine a bs s) := by
  unfold writeLine
  split
  · split
    · exact MemOnly.trans (b := { s with poison := kset false (a / 64) false s.poison }) ⟨rfl⟩
        (putBytes_memOnly _ _ _)
    · exact MemOnly.refl s
  · exact putBytes_memOnly _ _ _

/-- A write to DRAM changes DRAM and its poison alone. -/
theorem writeMem_memOnly (a : Nat) (bs : List Byte) (s : State) : MemOnly s (writeMem a bs s) :=
  forAll_ind (MemOnly s) _ (fun _ _ h => h.trans (writeLine_memOnly _ _ _)) _ _ (MemOnly.refl s)

/-! ### The canonical form -/

theorem putByte_wf (a : Nat) (b : Byte) (s : State) (h : Memory.wf s.dram) :
    Memory.wf (putByte a b s).dram := kset_wf 0 a b s.dram h

theorem putBytes_wf : ∀ (bs : List Byte) (a : Nat) (s : State), Memory.wf s.dram →
    Memory.wf (putBytes a bs s).dram
  | [], _, _, h => h
  | b :: t, a, s, h => putBytes_wf t (a + 1) _ (putByte_wf a b s h)

theorem writeLine_wf (a : Nat) (bs : List Byte) (s : State) (h : Memory.wf s.dram) :
    Memory.wf (writeLine a bs s).dram := by
  unfold writeLine
  split
  · split
    · exact putBytes_wf _ _ _ h
    · exact h
  · exact putBytes_wf _ _ _ h

/-- Every write keeps the canonical form. -/
theorem writeMem_wf (a : Nat) (bs : List Byte) (s : State) (h : Memory.wf s.dram) :
    Memory.wf (writeMem a bs s).dram :=
  forAll_ind (fun t => Memory.wf t.dram) _ (fun _ t ht => writeLine_wf _ _ t ht) _ _ h

theorem reset_memory_wf : Memory.wf State.reset.dram := kwf_nil 0

/-! ### A write that meets no poison -/

theorem linePoisoned_congr {s t : State} (h : t.poison = s.poison) (l : Nat) :
    linePoisoned l t = linePoisoned l s := by simp [linePoisoned, h]

theorem putBytes_poison : ∀ (bs : List Byte) (a : Nat) (s : State), (putBytes a bs s).poison = s.poison
  | [], _, _ => rfl
  | _ :: t, a, _ => putBytes_poison t (a + 1) _

/-- The lines of a write, in turn: what is written is what stands in the lines done so far. -/
theorem writeLines_bytes (a : Nat) (bs : List Byte) (s0 : State) :
    ∀ (ls : List Nat) (s : State), (∀ l ∈ ls, linePoisoned l s = false) →
      (∀ l ∈ ls, ∃ x, a ≤ x ∧ x < a + bs.length ∧ x / 64 = l) →
      let t := forAll (fun l s =>
        let lo := max a (64 * l)
        let hi := min (a + bs.length) (64 * l + 64)
        writeLine lo ((bs.drop (lo - a)).take (hi - lo)) s) ls s
      t.poison = s.poison
      ∧ (∀ x, (a ≤ x ∧ x < a + bs.length ∧ x / 64 ∈ ls) → some (memByte x t) = bs[x - a]?)
      ∧ (∀ x, ¬ (a ≤ x ∧ x < a + bs.length ∧ x / 64 ∈ ls) → memByte x t = memByte x s)
  | [], s, _, _ => ⟨rfl, by simp, fun _ _ => rfl⟩
  | l :: ls, s, hp, hl => by
    obtain ⟨y, hy1, hy2, hy3⟩ := hl l (by simp)
    let lo := max a (64 * l)
    let hi := min (a + bs.length) (64 * l + 64)
    let ch := (bs.drop (lo - a)).take (hi - lo)
    have hlo : lo / 64 = l := by omega
    have hlen : ch.length = hi - lo := by simp [ch]; omega
    have hw : writeLine lo ch s = putBytes lo ch s := by
      unfold writeLine; rw [hlo, hp l (by simp)]; simp
    have hpo : (putBytes lo ch s).poison = s.poison := putBytes_poison _ _ _
    have ih := writeLines_bytes a bs s0 ls (putBytes lo ch s)
      (fun m hm => (linePoisoned_congr hpo m).trans (hp m (by simp [hm])))
      (fun m hm => hl m (by simp [hm]))
    simp only [forAll]
    rw [show (writeLine (max a (64 * l)) ((bs.drop (max a (64 * l) - a)).take
      (min (a + bs.length) (64 * l + 64) - max a (64 * l))) s) = putBytes lo ch s from hw]
    obtain ⟨i1, i2, i3⟩ := ih
    refine ⟨i1.trans hpo, fun x hx => ?_, fun x hx => ?_⟩
    · by_cases hm : x / 64 ∈ ls
      · exact i2 x ⟨hx.1, hx.2.1, hm⟩
      · have hxl : x / 64 = l := by
          have := hx.2.2; simp only [List.mem_cons] at this; exact this.resolve_right hm
        rw [i3 x (fun h => hm h.2.2)]
        have hb : x - lo < ch.length := by omega
        have := memByte_putBytes ch lo (x - lo) s hb
        rw [show lo + (x - lo) = x by omega] at this
        rw [this, ← List.getElem?_eq_getElem hb]
        simp only [ch, List.getElem?_take, List.getElem?_drop]
        rw [if_pos (by omega)]; congr 1; omega
    · have hm : ¬ (a ≤ x ∧ x < a + bs.length ∧ x / 64 ∈ ls) := fun h =>
        hx ⟨h.1, h.2.1, List.mem_cons_of_mem _ h.2.2⟩
      rw [i3 x hm]
      refine memByte_putBytes_other _ _ _ _ fun h => hx ⟨by omega, by omega, ?_⟩
      have : x / 64 = l := by omega
      simp [this]

theorem mem_linesOf {a n l : Nat} (hn : n ≠ 0) :
    l ∈ linesOf a n ↔ a / 64 ≤ l ∧ l ≤ (a + n - 1) / 64 := by
  simp only [linesOf, if_neg hn, List.mem_map, List.mem_range]
  constructor
  · rintro ⟨i, hi, rfl⟩; omega
  · rintro ⟨h1, h2⟩; exact ⟨l - a / 64, by omega, by omega⟩

/-- A write to lines without poison: its bytes stand at its address, every other byte and all poison
as before. -/
theorem writeMem_clean (a : Nat) (bs : List Byte) (s : State) (h : poisoned a bs.length s = false) :
    (writeMem a bs s).poison = s.poison
    ∧ (∀ i (hi : i < bs.length), memByte (a + i) (writeMem a bs s) = bs[i])
    ∧ (∀ x, ¬ (a ≤ x ∧ x < a + bs.length) → memByte x (writeMem a bs s) = memByte x s) := by
  by_cases hn : bs.length = 0
  · have : bs = [] := by simpa using hn
    subst this
    refine ⟨rfl, by simp, fun _ _ => rfl⟩
  have hp : ∀ l ∈ linesOf a bs.length, linePoisoned l s = false := by
    simpa [poisoned, List.any_eq_false] using h
  obtain ⟨h1, h2, h3⟩ := writeLines_bytes a bs s (linesOf a bs.length) s hp (fun l hl => by
    rw [mem_linesOf hn] at hl
    exact ⟨max a (64 * l), by omega, by omega, by omega⟩)
  refine ⟨h1, fun i hi => ?_, fun x hx => ?_⟩
  · have := h2 (a + i) ⟨by omega, by omega, by rw [mem_linesOf hn]; omega⟩
    rw [show a + i - a = i by omega, List.getElem?_eq_getElem hi] at this
    exact Option.some.inj this
  · exact h3 x fun h => hx ⟨h.1, h.2.1⟩

/-- Reading back what bytes say one by one. -/
theorem memBytes_eq (bs : List Byte) : ∀ (a : Nat) (s : State),
    (∀ i (hi : i < bs.length), memByte (a + i) s = bs[i]) → memBytes a bs.length s = bs := by
  induction bs with
  | nil => intro _ _ _; rfl
  | cons b t ih =>
    intro a s h
    simp only [List.length_cons, memBytes]
    have h0 : memByte a s = b := h 0 (Nat.succ_pos _)
    rw [h0, ih (a + 1) s]
    intro i hi
    rw [show a + 1 + i = a + (i + 1) by omega]
    exact h (i + 1) (Nat.succ_lt_succ hi)

theorem memBytes_congr : ∀ (n a : Nat) {s t : State},
    (∀ i < n, memByte (a + i) t = memByte (a + i) s) → memBytes a n t = memBytes a n s
  | 0, _, _, _, _ => rfl
  | n + 1, a, s, t, h => by
    have h0 := h 0 (by omega)
    have := memBytes_congr n (a + 1) (s := s) (t := t) fun i hi => by
      rw [show a + 1 + i = a + (i + 1) by omega]; exact h (i + 1) (by omega)
    simp only [memBytes, this]; rw [show a = a + 0 by omega, h0]

@[simp] theorem leBytes_length : ∀ (n v : Nat), (leBytes n v).length = n
  | 0, _ => rfl
  | n + 1, v => by simp [leBytes, leBytes_length n]

theorem leBytes_get (n : Nat) : ∀ (v i : Nat) (h : i < (leBytes n v).length),
    (leBytes n v)[i] = BitVec.ofNat 8 (v / 256 ^ i) := by
  induction n with
  | zero => intro _ _ h; simp [leBytes] at h
  | succ n ih =>
    intro v i h
    cases i with
    | zero => simp [leBytes]
    | succ i =>
      simp only [leBytes, List.getElem_cons_succ]
      rw [ih (v / 256) i (by simpa [leBytes] using h), Nat.div_div_eq_div_mul, Nat.pow_succ,
        Nat.mul_comm 256]

theorem leNat_leBytes : ∀ (n v : Nat), v < 256 ^ n → leNat (leBytes n v) = v
  | 0, v, h => by simp at h; simp [leBytes, leNat, h]
  | n + 1, v, h => by
    simp only [leBytes, leNat, BitVec.toNat_ofNat]
    rw [leNat_leBytes n (v / 256) (by rw [Nat.pow_succ] at h; omega)]; omega

end Sys2Proof.Machine
end

