-- ==== Sys2Proof/Laws/Ends.lean ====
section
/-! SUPPORT. How a task ends on a context (R86, R87, R97). -/

namespace Sys2Proof.Machine

theorem setDcache_descs (c : Nat) (l : List CacheLine) (s : State) :
    (setDcache c l s).descs = s.descs := rfl

/-- A write by a requester: the errors it meets, then DRAM. -/
theorem writeBy_parts (q : Requester) (a : Nat) (bs : List Byte) (s : State) :
    ∃ u, EccOnly s u ∧ MemOnly u (writeBy q a bs s) := by
  unfold writeBy
  dsimp only
  refine ⟨_, ?_, writeMem_memOnly _ _ _⟩
  split
  · exact EccOnly.refl s
  · refine forAll_ind (EccOnly s) _ (fun l t h => ?_) _ _ (EccOnly.refl s)
    split
    · exact h.trans ⟨rfl, fun _ _ => rfl⟩
    · exact h.trans (meetLine_eccOnly q l t)

theorem writeBy_keeps (q : Requester) (a : Nat) (bs : List Byte) (s : State) :
    (writeBy q a bs s).descs = s.descs ∧ (writeBy q a bs s).ctxs = s.ctxs := by
  obtain ⟨u, h, g⟩ := writeBy_parts q a bs s
  exact ⟨by rw [g.same, h.same], by rw [g.same, h.same]⟩

/-- A store that drains touches neither contexts nor descriptors. -/
theorem drainEntry_keeps (k : Nat) (e : StoreEntry) (s : State) :
    (drainEntry k e s).descs = s.descs ∧ (drainEntry k e s).ctxs = s.ctxs :=
  writeBy_keeps (coreReq k e.pa) e.pa e.bytes s

theorem drainStores_descs (k : Nat) (s : State) : (drainStores k s).descs = s.descs :=
  forAll_ind (fun t => t.descs = s.descs) (drainEntry k)
    (fun e t h => (drainEntry_keeps k e t).1.trans h) _ _ rfl

theorem withdrawTiles_keeps (k : Nat) (s : State) :
    (withdrawTiles k s).descs = s.descs ∧ (withdrawTiles k s).ctxs = s.ctxs := by
  unfold withdrawTiles
  refine upTo_ind (fun t : State => t.descs = s.descs ∧ t.ctxs = s.ctxs) _ ?_ 16 s ⟨rfl, rfl⟩
  intro _ _ h
  exact h

theorem freeCtx_descs (k : Nat) (s : State) : (freeCtx k s).descs = s.descs := by
  show (withdrawTiles k (drainStores k s)).descs = _
  rw [(withdrawTiles_keeps _ _).1, drainStores_descs]

@[simp] theorem freeCtx_ctx (k : Nat) (s : State) : ctxAt k (freeCtx k s) = {} :=
  ctxAt_setCtx_same _ _ _

theorem descAt_congr {s t : State} (h : t.descs = s.descs) (d : Nat) : descAt d t = descAt d s := by
  simp [descAt, h]

@[simp] theorem descAt_updDesc_same (d : Nat) (f : Desc → Desc) (s : State) :
    descAt d (updDesc d f s) = f (descAt d s) := by simp [updDesc]

/-- A task that ends on its context: the context is FREE, its descriptor holds how it ended. -/
theorem endOnCtx_ends (k status cause user : Nat) (s u : State)
    (h : (ctxAt k u).desc = (ctxAt k s).desc) :
    TaskEnds k status cause s (endOnCtx k status cause user u) := by
  unfold TaskEnds
  rw [← h]
  refine ⟨?_, ?_, ?_⟩
  · show (ctxAt k (freeCtx k u)).st = _
    rw [freeCtx_ctx]
  · simp only [endOnCtx, updSched]
    rw [descAt_congr (setSched_descs _ _ _), descAt_updDesc_same]
  · simp only [endOnCtx, updSched]
    rw [descAt_congr (setSched_descs _ _ _), descAt_updDesc_same]

theorem taskEnds_ended {k status cause : Nat} {s u : State} (h : TaskEnds k status cause s u) (c : Nat)
    (q : List Instr) : TaskEnds k status cause s (ended c q u) := by
  obtain ⟨h1, h2, h3⟩ := h
  refine ⟨?_, ?_, ?_⟩
  · rw [ctxAt_ended]; exact h1
  · rw [descAt_congr (ended_descs _ _ _)]; exact h2
  · rw [descAt_congr (ended_descs _ _ _)]; exact h3

theorem logSixteenBy_ctxs (o c i : Nat) (p : List Byte) (s : State) :
    (logSixteenBy o c i p s).ctxs = s.ctxs := by
  have h : (askWindow (winKey c i 0xFF) 1000000000 16 s).2.2.ctxs = s.ctxs := by
    unfold askWindow
    dsimp only
    repeat' split
    all_goals rfl
  unfold logSixteenBy
  dsimp only
  split
  · exact h
  · exact h

theorem terminateExc_ends (k cause kind : Nat) (s u : State)
    (h : (ctxAt k u).desc = (ctxAt k s).desc) :
    TaskEnds k 2 cause s (terminateExc k cause kind u) := by
  refine endOnCtx_ends _ _ _ _ _ _ ?_
  rw [logSixteen, ctxAt_congr (logSixteenBy_ctxs _ _ _ _ _)]; exact h

/-- An encoding that is ILLEGAL. -/
theorem issue_illegal {c : CtxId} {len : Nat} {s : State} (h : Issues c len s) {bad : Bool}
    (hb : bad = true) (body : Nat → State → State) :
    ∃ t, issue c len bad body s = .next t ∧ TaskEnds (ctxNo c) 2 3 s t := by
  obtain ⟨h1, h2⟩ := h
  have h3 : fetch (ctxNo c) len s = (none, (fetch (ctxNo c) len s).2) := by rw [← h2]
  refine ⟨_, ?_, taskEnds_ended (terminateExc_ends (ctxNo c) 3 0 s (fetched c len s) ?_) s.clk s.pending⟩
  · unfold fetched
    simp only [issue, atOnce, issueAt, h1, hb]
    rw [h3]
    rfl
  · rw [fetched_ctx ⟨h1, h2⟩]

end Sys2Proof.Machine
end

