-- ==== Sys2Proof/Tests/Slice0.lean ====
section
/-! SUPPORT. Tests on small states, each about one command: an ill-formed term for each check of
Instr.wf; for each statement with hypotheses a state and operands that meet them, with what the spec
says comes of them; the spec's worked values. -/

namespace Sys2Proof.Tests

set_option Elab.async false

open Sys2Proof Sys2Proof.Machine

/-! ### Helpers -/

/-- The command answers a next state that passes a test. -/
def ok (i : Instr) (s : State) (p : State → Bool) : Bool :=
  match exec i s with
  | .next t => p t
  | _ => false

/-- A state with these registers set. -/
def put (l : List (Reg × Nat)) (s : State) : State := l.foldl (fun s q => wr q.1 q.2 s) s

/-- DRAM with these bytes. -/
def mem (a : Nat) (bs : List Byte) (s : State) : State := writeMem a bs s

def c0 : CtxId := ⟨0, 0, 0⟩

/-- Context 0 READY with its code in TLM. -/
def cueAt (pc : Nat) (f : Ctx → Ctx) : State :=
  setCtx 0 (f { st := .ready, pc := pc, tlmLimit := 65536 }) State.reset
def cue (f : Ctx → Ctx) : State := cueAt tlmBase f
def gs (l : List (Nat × Word)) (x : Ctx) : Ctx := l.foldl (fun x q => x.setG q.1 q.2) x
def ps (l : List (Nat × BitVec 32)) (x : Ctx) : Ctx := l.foldl (fun x q => x.setP q.1 q.2) x
def vs (l : List (Nat × BitVec 512)) (x : Ctx) : Ctx := l.foldl (fun x q => x.setV q.1 q.2) x

/-- Register r of context 0 after the command. -/
def gAfter (r : Nat) (s : State) (i : Instr) : Option Nat :=
  match exec i s with
  | .next t => some ((ctxAt 0 t).getG r).toNat
  | _ => none

/-- The command retires on context 0, which becomes what g makes of it. -/
def retires (i : Instr) (len : Nat) (s : State) (g : Ctx → Ctx) : Bool :=
  ok i s fun t => ctxAt 0 t == (g (ctxAt 0 s)).retire len

/-- The command ends the task on context 0 with this status and cause. -/
def ends (status cause : Nat) (s : State) (i : Instr) : Bool :=
  ok i s fun t => let d := descAt (descOf 0 (ctxAt 0 s).desc) t
    (ctxAt 0 t).st == .free && d.endStatus == status && d.endCause == cause

/-! ### Ill-formed terms -/

theorem test_wf_refused :
    ([.registerWrite .host 2 false 0, .registerWrite .renro 4 true 0, .winWrite .renro 1 false 0,
      .rcRead .host 4 true true, .lowHalfWrite .host 4 0, .lowHalfRead .renro 12,
      .telemetryPacket 0 [], .heartbeatReceived 0 0 [], .mirrorFrameReceived 1 0 (List.replicate 8985 0),
      .conversionDone 0 [1, 2, 3], .recordEnter 0x10000 1 0 0 [], .recordEnter 1 5 0 0 [],
      .recordEnter 1 1 3 0 [], .recordEnter 1 1 0 256 [], .recordEnter 1 1 0 0 (List.replicate 29 0),
      .bar2Access true 0 4 [1] .clean, .bar2Access false 0 4 [1] .clean,
      .joinGroup 0 0 (List.replicate 9 0), .leaveGroup 0 0 (List.replicate 9 0),
      .notificationWrite 0 [], .notificationWrite 4 [], .notificationWrite 1 (List.replicate 57 0),
      .startupStep ⟨true, true, [], none, 0, [], [], 0, 0, 0⟩, .fatal 0 [], .fatal 1 (List.replicate 28 0),
      .supervisorDisagree 1 1 2] : List Instr).all (fun i => !i.wf) = true := by decide +kernel

theorem test_wf_taken :
    ([.registerWrite .host 4 false 0, .lowHalfRead .host 8, .conversionDone 0 [1, 2],
      .recordEnter 0x0D80 4 2 255 (List.replicate 28 0), .bar2Access true 0 1 [1] .clean,
      .notificationWrite 3 [], .fatal 5 [], .supervisorDisagree 0 1 2, .ilkInLive] :
      List Instr).all Instr.wf = true := by decide +kernel

/-! ### Cue instructions: scalar -/

def sA : State := cue (gs [(1, 0xFFFFFFFFFFFFFFF8), (2, 3)])
def rF : RegF := ⟨3, 1, 2⟩
def rF1 : RegF := ⟨3, 1, 0⟩

theorem witness_ScalarResults : Issues c0 4 sA ∧ rF1.rb = 0 := by unfold Issues; decide +kernel

/-- -8 and 3, by hand. -/
theorem test_alu : ([.add, .sub, .andG, .orG, .xor, .andn, .sll, .srl, .sra, .slt, .sltu, .min, .minu,
      .max, .maxu, .sextH, .sextW, .zextW, .mul, .mulh, .mulhu, .mulhsu] :
      List (CtxId → RegF → Instr)).map (fun i => gAfter 3 sA (i c0 rF))
    = [0xFFFFFFFFFFFFFFFB, 0xFFFFFFFFFFFFFFF5, 0, 0xFFFFFFFFFFFFFFFB, 0xFFFFFFFFFFFFFFFB,
       0xFFFFFFFFFFFFFFF8, 0xFFFFFFFFFFFFFFC0, 0x1FFFFFFFFFFFFFFF, 0xFFFFFFFFFFFFFFFF, 1, 0,
       0xFFFFFFFFFFFFFFF8, 3, 3, 0xFFFFFFFFFFFFFFF8, 0xFFFFFFFFFFFFFFF8, 0xFFFFFFFFFFFFFFF8,
       0xFFFFFFF8, 0xFFFFFFFFFFFFFFE8, 0xFFFFFFFFFFFFFFFF, 2, 0xFFFFFFFFFFFFFFFF].map some := by
  decide +kernel

theorem test_alu_one : ([.clz, .ctz, .popc, .sextB] : List (CtxId → RegF → Instr)).map
      (fun i => gAfter 3 sA (i c0 rF1)) = [0, 3, 61, 0xFFFFFFFFFFFFFFF8].map some := by decide +kernel

theorem test_alu_zero : ([.clz, .ctz, .popc] : List (CtxId → RegF → Instr)).map
      (fun i => gAfter 3 sA (i c0 ⟨3, 0, 0⟩)) = [64, 64, 0].map some := by decide +kernel

/-- R70: a write to g0 is discarded, and the instruction retires. -/
theorem test_g0 : ok (.add c0 ⟨0, 1, 2⟩) sA (fun t => (ctxAt 0 t).getG 0 == 0
    && (ctxAt 0 t).pc == tlmBase + 4 && (ctxAt 0 t).icount == 1) = true := by decide +kernel

def sP : State := cue fun x => ps [(1, 0xF0F0), (2, 0xFF00)] (gs [(1, 0x1200000034)] x)

theorem witness_PredicateResults : Issues c0 4 sP ∧ (⟨7, 1, 0⟩ : RegF).rd.val < 8
    ∧ (⟨3, 7, 0⟩ : RegF).ra.val < 8 ∧ (⟨7, 7, 7⟩ : RegF).rb.val < 8 := by unfold Issues; decide +kernel

theorem test_pred : ([.pand, .por, .pxor, .pandn] : List (CtxId → RegF → Instr)).map
      (fun i => ok (i c0 ⟨7, 1, 2⟩) sP fun t => ((ctxAt 0 t).getP 7).toNat ==
        match i c0 ⟨7, 1, 2⟩ with | .pand .. => 0xF000 | .por .. => 0xFFF0 | .pxor .. => 0x0FF0 | _ => 0xF0)
    = [true, true, true, true] := by decide +kernel

theorem test_mtp_mfp : ok (.mtp c0 ⟨3, 1, 0⟩) sP (fun t => (ctxAt 0 t).getP 3 == 0x34) = true
    ∧ gAfter 4 sP (.mfp c0 ⟨4, 0, 0⟩) = some 0xFFFFFFFF := by decide +kernel

def iS : ImmF := ⟨3, 1, 0x3FF, none⟩
def iL : ImmF := ⟨3, 1, 0, some 0xFFFFFFFF⟩

theorem witness_ScalarImmediateResults : (iS.ext.isSome → iS.imm10 = 0) ∧ (iL.ext.isSome → iL.imm10 = 0)
    ∧ Issues c0 4 sA ∧ Issues c0 8 sA
    ∧ ((⟨3, 1, 63, none⟩ : ImmF).imm10.signExtend 64).toNat < 64 := by unfold Issues; decide +kernel

theorem test_imm : ([.addi, .andi, .ori, .xori, .slti, .sltiu, .orhi] : List (CtxId → ImmF → Instr)).map
      (fun i => [gAfter 3 sA (i c0 iS), gAfter 3 sA (i c0 iL)])
    = [0xFFFFFFFFFFFFFFF7, 0xFFFFFFFFFFFFFFF8, 0xFFFFFFFFFFFFFFFF, 7, 1, 1, 0xFFFFFFFFFFFFFFF8].map
      (fun v => [some v, some v]) := by decide +kernel

theorem test_shift_bad : ([.slli, .srli, .srai] : List (CtxId → ImmF → Instr)).all (fun i => ends 2 3 sA (i c0 ⟨3, 1, 64, none⟩)) = true := by
  decide +kernel

theorem test_shift_imm : ([.slli, .srli, .srai] : List (CtxId → ImmF → Instr)).map
      (fun i => gAfter 3 sA (i c0 ⟨3, 1, 63, none⟩))
    = [0, 1, 0xFFFFFFFFFFFFFFFF].map some := by decide +kernel

/-- R104, R105: the spec's worked words (04_cue_instruction_set.md). -/
theorem test_words : ([(0x50540040, 0x200), (0x4481B804, 0), (0x4504F000, 0), (0x075A03FF, 0), (0x6118C810, 0),
      (0x103A03F1, 0)] : List (BitVec 32 × BitVec 32)).map (fun q => (decodeCue q.1 q.2).map (· c0))
    = [.vld c0 ⟨2, 20, 0, 0, false, some 0x200, 0⟩, .vlutI c0 ⟨4, 1, 23, 0, 0⟩, .vmulFx c0 ⟨8, 4, 30, 0, 0⟩,
       .addi c0 ⟨26, 26, 0x3FF, none⟩, .tst c0 ⟨8, 24, 25, 0⟩ 0, .bne c0 ⟨26, 0, 0x3F1, none⟩].map some := by
  decide +kernel

/-- R107: a major, an fn and a cond that no table lists. -/
theorem test_unlisted : [0xFC000000, 0x000007FF, 0x10C00000].map listedWord = [false, false, false]
    ∧ listedWord 0 = true := by decide +kernel

/-- R105: an instruction of 8 bytes goes on by 8. -/
theorem test_len8 : ok (.addi c0 iL) sA (fun t => (ctxAt 0 t).pc == tlmBase + 8) = true := by
  decide +kernel

def bF : BrF := ⟨1, 2, 0x3FE, none⟩
def sB : State := cueAt (tlmBase + 16) fun x => ps [(1, 0xFFFFFFFF), (2, 1)] (gs [(1, 0xFFFFFFFFFFFFFFF8), (2, 3)] x)

theorem witness_BranchResults : (bF.ext.isSome → bF.off10 = 0) ∧ Issues c0 4 sB ∧ Issues c0 8 sB
    ∧ BitVec.ofNat 64 (ctxAt 0 sB).pc + 4 * bF.off10.signExtend 64 ≠ 0
    ∧ (BitVec.ofNat 64 (ctxAt 0 sB).pc + 4 * bF.off10.signExtend 64).toNat % 4 = 0
    ∧ (BitVec.ofNat 64 (ctxAt 0 sB).pc + 4 * bF.off10.signExtend 64).toNat < 2 ^ 48 := by
  unfold Issues; decide +kernel

theorem test_branch : ([.beq, .bne, .blt, .bge, .bltu, .bgeu] : List (CtxId → BrF → Instr)).map
      (fun i => ok (i c0 bF) sB fun t => (ctxAt 0 t).pc == tlmBase + 8)
    = [false, true, true, false, false, true] := by decide +kernel

theorem test_branch_pred : ([.bpany, .bpall, .bpnone] : List (CtxId → BrF → Instr)).map
      (fun i => [1, 2, 3].map fun p => ok (i c0 ⟨p, 0, 0, some 3⟩) sB fun t => (ctxAt 0 t).pc == tlmBase + 28)
    = [[true, true, false], [true, false, false], [false, false, true]] := by decide +kernel

def jF : ImmF := ⟨0, 1, 0, none⟩
def sJ (t : Word) : State := cue (gs [(1, t)])

theorem witness_CallsAndTransfers : (jF.ext.isSome → jF.imm10 = 0) ∧ Issues c0 4 (sJ 0x1000)
    ∧ Issues c0 8 (sJ 0x1000) ∧ (gReg jF.ra (ctxAt 0 (sJ 0xFFFFFFFFFFFC))).toNat < 2 ^ 48
    ∧ (ctxAt 0 (sJ 0)).sbuf = [] ∧ gReg jF.ra (ctxAt 0 (sJ 0)) = 0
    ∧ (gReg jF.ra (ctxAt 0 (sJ 2))).toNat % 4 ≠ 0
    ∧ 2 ^ 48 ≤ (gReg jF.ra (ctxAt 0 (sJ 0x1000000000000))).toNat := by unfold Issues; decide +kernel

theorem test_calls : ok (.callr c0 ⟨1, 1, 2, none⟩) (sJ 0x1000) (fun t => (ctxAt 0 t).pc == 0x1008
      && (ctxAt 0 t).getG 1 == BitVec.ofNat 64 (tlmBase + 4)) = true
    ∧ ok (.call c0 ⟨31, 0, 0, some 4⟩) (sJ 0) (fun t => (ctxAt 0 t).pc == tlmBase + 16
      && (ctxAt 0 t).getG 31 == BitVec.ofNat 64 (tlmBase + 8)) = true
    ∧ ok (.jr c0 jF) (sJ 0x2000) (fun t => (ctxAt 0 t).pc == 0x2000) = true := by decide +kernel

/-- R97: with stores in the buffer a transfer to 0 waits for the release. -/
def sJw : State := cue fun x => { x with sbuf := [⟨0x50000, [1], 0⟩] }
theorem witness_CallsAndTransfers_waits : Issues c0 4 sJw ∧ (ctxAt 0 sJw).sbuf ≠ []
    ∧ gReg jF.ra (ctxAt 0 sJw) = 0 ∧ (⟨0, 1, 0, none⟩ : ImmF).ra ≠ 0 ∧ (⟨1, 1, 0, none⟩ : ImmF).rd ≠ 0 := by
  unfold Issues; decide +kernel
theorem test_transfer_waits : ok (.jr c0 jF) sJw (fun t => ctxAt 0 t
      == { ctxAt 0 sJw with st := .stalled, stall := some .release }) = true
    ∧ ends 2 3 sJw (.call c0 ⟨0, 1, 0, none⟩) = true ∧ ends 2 3 sJw (.jr c0 ⟨1, 1, 0, none⟩) = true
    ∧ ends 2 3 sB (.bpany c0 ⟨8, 0, 1, none⟩) = true := by decide +kernel

theorem test_transfers : ends 0 0 (sJ 0) (.jr c0 jF) = true ∧ ends 2 5 (sJ 2) (.jr c0 jF) = true
    ∧ ends 2 5 (sJ 0x1000000000000) (.jr c0 jF) = true := by decide +kernel

theorem witness_IllegalEncodings : Issues c0 4 sA ∧ Issues c0 8 sA ∧ (⟨1, 1, 1⟩ : RegF).rb ≠ 0
    ∧ 8 ≤ (⟨8, 1, 1⟩ : RegF).rd.val ∧ (⟨1, 1, 1, some 0⟩ : ImmF).ext.isSome = true
    ∧ (⟨1, 1, 1, some 0⟩ : ImmF).imm10 ≠ 0 ∧ (⟨1, 1, 1, true, 1⟩ : AmoF).z ≠ 0 := by
  unfold Issues; decide +kernel

theorem test_illegal : ([.clz c0 ⟨1, 1, 1⟩, .mtp c0 ⟨8, 1, 0⟩, .pand c0 ⟨8, 1, 1⟩, .addi c0 ⟨1, 1, 1, some 0⟩,
      .jr c0 ⟨0, 1, 1, some 0⟩, .cas c0 ⟨1, 1, 1, true, 1⟩] : List Instr).map (ends 2 3 sA)
    = [true, true, true, true, true, true] := by decide +kernel

/-! ### Cue instructions: memory -/

/-- Tables that map page 3 of ASID 0 to 0x50000, readable and writable. -/
def mapped (s : State) : State :=
  mem 0x13018 (p8 0x5000D) (mem 0x12000 (p8 0x13003) (mem 0x11000 (p8 0x12003) (mem 0x10000 (p8 0x11003)
    (mem 0x1000 (p8 0x10001) (put [(Mmu.MMU_CTRL 0, 1), (Mmu.ASID_TABLE_BASE 0, 0x1000)] s)))))

/-- R114: with code at 0x3004, in an executable page, a branch to address 0 ends the task DONE; a branch
past 2^48 from the TLM window ends it with ALIGN (5). -/
def sFar : State := mem 0x13018 (p8 0x50015) (mapped (cueAt 0x3004 id))
theorem witness_BranchResults_far : Issues c0 8 sFar ∧ (ctxAt 0 sFar).sbuf = []
    ∧ BitVec.ofNat 64 (ctxAt 0 sFar).pc + 4 * (0xFFFFF3FF : BitVec 32).signExtend 64 = 0
    ∧ 2 ^ 48 ≤ (BitVec.ofNat 64 (ctxAt 0 sB).pc + 4 * (0x4000 : BitVec 32).signExtend 64).toNat := by unfold Issues; decide +kernel
theorem test_branch_far : ends 0 0 sFar (.beq c0 ⟨0, 0, 0, some 0xFFFFF3FF⟩) = true
    ∧ ends 2 5 sB (.beq c0 ⟨0, 0, 0, some 0x4000⟩) = true := by decide +kernel

/-- g1 points at the last 8 bytes of the TLM window. -/
def sT : State := putTlm 0 0xFFF8 [0x88, 0x77, 0x66, 0x55, 0x44, 0x33, 0x22, 0xF1]
  (cue (gs [(1, BitVec.ofNat 64 (tlmBase + 0xFFF8)), (2, 0x1122334455667788)]))
def mF (o : BitVec 10) : ImmF := ⟨3, 1, o, none⟩

theorem witness_TlmLoadResults : Issues c0 4 sT ∧ Issues c0 8 sT ∧ ((mF 0).ext.isSome → (mF 0).imm10 = 0)
    ∧ (∀ n ∈ [1, 2, 4, 8], (tlmBase + 0xFFF8) % n = 0) ∧ tlmBase + 0xFFF8 + 8 ≤ tlmBase + (ctxAt 0 sT).tlmLimit
    ∧ tileHeld (ctxAt 0 sT) 0xFFF8 8 = false := by unfold Issues; decide +kernel

theorem test_tlm_loads : ([(.ldB, 7), (.ldBu, 7), (.ldH, 6), (.ldHu, 6), (.ldW, 4), (.ldWu, 4), (.ldD, 0)] :
      List ((CtxId → ImmF → Instr) × BitVec 10)).map (fun q => gAfter 3 sT (q.1 c0 (mF q.2)))
    = [0xFFFFFFFFFFFFFFF1, 0xF1, 0xFFFFFFFFFFFFF122, 0xF122, 0xFFFFFFFFF1223344, 0xF1223344,
       0xF122334455667788].map some := by decide +kernel

/-- R80, R87: past the limit a task ends with TLM_RANGE (6), unaligned with ALIGN (5). -/
theorem test_tlm_faults : ends 2 6 { sT with ctxs := (setCtx 0 { ctxAt 0 sT with tlmLimit := 0xFFF8 } sT).ctxs }
      (.ldB c0 (mF 0)) = true ∧ ends 2 5 sT (.ldD c0 (mF 4)) = true := by decide +kernel

theorem witness_TlmStoreResults : Issues c0 4 sT ∧ (tlmBase + 0xFFF8) % 8 = 0
    ∧ tileHeld (ctxAt 0 sT) 0xFFF8 8 = false := by unfold Issues; decide +kernel

theorem test_tlm_stores : ([(.stB, 7), (.stH, 6), (.stW, 4), (.stD, 0)] :
      List ((CtxId → ImmF → Instr) × BitVec 10)).map (fun q => match exec (q.1 c0 ⟨2, 1, q.2, none⟩) sT with
        | .next t => leNat (tlmBytes 0 0xFFF8 8 t)
        | _ => 0)
    = [0x8822334455667788, 0x7788334455667788, 0x5566778855667788, 0x1122334455667788] := by decide +kernel

/-- g1 = 0x3008, mapped; code in TLM. -/
def sD : State := mapped (cue (gs [(1, 0x3008), (2, 0x1122334455667788)]))
/-- The store of sD, in the buffer. -/
def sD1 : State := setCtx 0 { ctxAt 0 sD with sbuf := [⟨0x50008, leBytes 8 0x1122334455667788, 0⟩] } sD

theorem witness_DramStores : Issues c0 4 sD ∧ (0x3008 : Nat) % 8 = 0
    ∧ (coreTranslate 0 0x3008 .write (fetch 0 4 sD).2).1 = .pa 0x50008 ∧ (ctxAt 0 sD).sbuf.length < 8
    ∧ coresOn sD1 = true ∧ sound 0x50008 8 sD1 = true
    ∧ dcacheAt 0 sD = [] ∧ coreMisses 0 sD < 8 ∧ (coreTranslate 0 0x3008 .read (fetch 0 4 sD).2).1 = .pa 0x50008
    ∧ (∀ i < 8, (bufferedByte (ctxAt 0 sD1).sbuf (0x50008 + i)).isSome) ∧ Issues c0 4 sD1 := by unfold Issues; decide +kernel

theorem test_dram_store : ok (.stD c0 ⟨2, 1, 0, none⟩) sD (fun t => ctxAt 0 t == ((ctxAt 0 sD1).retire 4)
      && memNat 0x50008 8 t == 0) = true
    ∧ ok (.storeDrain c0) sD1 (fun t => memNat 0x50008 8 t == 0x1122334455667788
      && (ctxAt 0 t).sbuf == []) = true := by decide +kernel

/-- R82: a load of the context's own address takes the buffered bytes. -/
theorem test_store_forwards : ok (.ldWu c0 ⟨3, 1, 4, none⟩) sD1 (fun t =>
      ctxAt 0 t == ((ctxAt 0 sD1).setG 3 0x11223344).retire 4) = true := by decide +kernel

/-- R110: a load that finds nothing misses; a store into a full buffer stalls. -/
def sDfull : State := setCtx 0 { ctxAt 0 sD with sbuf := List.replicate 8 ⟨0x50008, [1], 0⟩ } sD
theorem test_miss_and_full : Issues c0 4 sDfull ∧ 8 ≤ (ctxAt 0 sDfull).sbuf.length
    ∧ ok (.stD c0 ⟨2, 1, 0, none⟩) sDfull (fun t => (ctxAt 0 t).stall == some .storeBuf) = true
    ∧ ok (.ldB c0 ⟨3, 1, 0, none⟩) sD (fun t => ((ctxAt 0 t).miss.map Miss.lanes) == some [(0, 0x3008, 0x50008)]) = true := by
  unfold Issues; decide +kernel

/-- The atomic that sA1 waits for. -/
def sQ (op : Nat) (b : Word) : State := setCtx 0 { ctxAt 0 sD with
    st := .stalled, stall := some .atomic, atomic := some ⟨op, 3, false, 0x50008, 0x3008, b, 5, 0⟩ }
  (mem 0x50008 (p4 5) sD)

theorem witness_AtomicResults : Issues c0 4 sD ∧ (⟨3, 1, 2, true, 0⟩ : AmoF).z = 0 ∧ (0x3008 : Nat) < tlmGuard
    ∧ (coreTranslate 0 0x3008 .atomic (fetch 0 4 sD).2).1 = .pa 0x50008 ∧ coresOn (sQ 1 7) = true
    ∧ (ctxAt 0 (sQ 1 7)).atomic = some ⟨1, 3, false, 0x50008, 0x3008, 7, 5, 0⟩ ∧ (ctxAt 0 (sQ 1 7)).sbuf = []
    ∧ (ctxAt 0 (sQ 1 7)).killed = false ∧ (ctxAt 0 (sQ 1 7)).save = none ∧ sound 0x50008 4 (sQ 1 7) = true := by unfold Issues; decide +kernel

theorem test_amo_leaves : ([.amoSwap, .amoAdd, .amoAnd, .amoOr, .amoXor, .amoMin, .amoMax, .amoMinu, .amoMaxu,
      .cas] : List (CtxId → AmoF → Instr)).map (fun i => ok (i c0 ⟨3, 1, 2, true, 0⟩) sD fun t =>
        (ctxAt 0 t).stall == some .atomic && ((ctxAt 0 t).atomic.map AtomicReq.pa) == some 0x50008
        && memNat 0x50008 8 t == 0)
    = List.replicate 10 true := by decide +kernel

/-- 5 and -1, as words of 32 bits. -/
theorem test_amo_completes : (List.range 10).map (fun op => match exec (.atomicComplete c0 .clean) (sQ op 0xFFFFFFFF) with
      | .next t => (memNat 0x50008 4 t, ((ctxAt 0 t).getG 3).toNat)
      | _ => (0, 0))
    = [(0xFFFFFFFF, 5), (4, 5), (5, 5), (0xFFFFFFFF, 5), (0xFFFFFFFA, 5), (0xFFFFFFFF, 5), (5, 5), (5, 5),
       (0xFFFFFFFF, 5), (0xFFFFFFFF, 5)] := by decide +kernel

/-- R117: cas writes nothing where the old word differs from g[rd]. -/
theorem test_cas_differs : ok (.atomicComplete c0 .clean)
      (setCtx 0 { ctxAt 0 (sQ 9 1) with atomic := some ⟨9, 3, false, 0x50008, 0x3008, 1, 6, 0⟩ } (sQ 9 1))
      (fun t => memNat 0x50008 4 t == 5 && (ctxAt 0 t).getG 3 == 5) = true := by decide +kernel

/-- R178, R180: an unmapped address stalls no one: the task waits FAULTED, with its record. -/
theorem test_unmapped : ok (.ldD c0 ⟨3, 0, 0x100, none⟩) sD (fun t => (ctxAt 0 t).st == .faulted
      && (fqAt 0 t).recs.map FaultRec.kind == [kNotMapped]) = true := by decide +kernel

/-! ### Cue instructions: vector -/

/-- A vector register from its first lanes of 16 or 32 bits. -/
def vec (wide : Bool) (l : List Nat) : BitVec 512 := vecOf wide fun i => l.getD i 0
/-- The first n lanes of v3 after the command. -/
def lanes (wide : Bool) (n : Nat) (s : State) (i : Instr) : List Nat :=
  match exec i s with
  | .next t => (List.range n).map (lane (laneW wide) ((ctxAt 0 t).getV 3))
  | _ => []
def satOf (s : State) (i : Instr) : Bool := ok i s fun t => (ctxAt 0 t).sat

/-- Lanes 0 and 1 of 16 bits active; v1, v2 and the old v3. -/
def sV : State := cue fun x => ps [(1, 3)] (gs [(2, 0x10002), (1, 0x10003)]
  (vs [(1, vec false [0xFFFE, 7, 9]), (2, vec false [3, 9, 1]), (3, vec false [1, 2, 5])] x))
def vF : VecAF := ⟨3, 1, 2, 1, false, false, none⟩

theorem witness_VectorArithmeticResults : vecABad vF = false ∧ Issues c0 4 sV
    ∧ vecABad ⟨3, 0, 0, 1, false, false, some 0xFFFF⟩ = false ∧ Issues c0 8 sV
    ∧ vecABad ⟨3, 0, 0, 1, false, true, some 0xFFFFFFFF⟩ = false
    ∧ (⟨3, 0, 2, 1, true, false, none⟩ : VecAF).va = 0 := by unfold Issues; decide +kernel

theorem test_vec_arith : ([.vadd, .vsub, .vmul, .vmulhu, .vminu, .vmaxu, .vmin, .vmax, .vand, .vor, .vxor, .vandn,
      .vsll, .vsrl, .vsra, .vabsdu, .vavgu, .vadds, .vsubs, .vsel] : List (CtxId → VecAF → Instr)).map
      (fun i => lanes false 3 sV (i c0 vF))
    = [[1, 16, 5], [0xFFFB, 0xFFFE, 5], [0xFFFA, 63, 5], [2, 0, 5], [3, 7, 5], [0xFFFE, 9, 5], [0xFFFE, 7, 5],
       [3, 9, 5], [2, 1, 5], [0xFFFF, 15, 5], [0xFFFD, 14, 5], [0xFFFC, 6, 5], [0xFFF0, 0xE00, 5], [0x1FFF, 0, 5],
       [0xFFFF, 0, 5], [0xFFFB, 2, 5], [0x8001, 8, 5], [0xFFFF, 16, 5], [0xFFFB, 0, 5], [0xFFFE, 7, 1]] := by
  decide +kernel

theorem test_vec_sat : [satOf sV (.vadds c0 vF), satOf sV (.vsubs c0 vF), satOf sV (.vadd c0 vF)]
    = [true, true, false] := by decide +kernel

/-- R118: B from a g register's low bits, and from the extension word. -/
theorem test_vec_operands : lanes false 3 sV (.vmov c0 ⟨3, 0, 2, 1, true, false, none⟩) = [2, 2, 5]
    ∧ lanes true 2 sV (.vmov c0 ⟨3, 0, 0, 1, false, true, some 0x12345678⟩) = [0x12345678, 5] := by
  decide +kernel

theorem witness_VectorCompareResults : vecABad vF = false ∧ (⟨7, 1, 2, 1, false, false, none⟩ : VecAF).vd.val < 8
    ∧ Issues c0 4 sV := by unfold Issues; decide +kernel

theorem test_vec_compare_bad : ends 2 3 sV (.vcmpEq c0 ⟨8, 1, 2, 1, false, false, none⟩) = true := by decide +kernel

theorem test_vec_compare : ([.vcmpEq, .vcmpNe, .vcmpLtu, .vcmpLeu, .vcmpLt, .vcmpLe] :
      List (CtxId → VecAF → Instr)).map (fun i => match exec (i c0 ⟨7, 1, 2, 1, false, false, none⟩) sV with
        | .next t => ((ctxAt 0 t).getP 7).toNat
        | _ => 99) = [0, 3, 2, 2, 3, 3] := by decide +kernel

/-- R119: both bits of a 32-bit lane follow bit 2j of pk. -/
theorem test_vec_compare_wide : ok (.vcmpEq c0 ⟨7, 1, 1, 0, false, true, none⟩) sV
      (fun t => (ctxAt 0 t).getP 7 == 0xFFFFFFFF) = true := by decide +kernel

def xF : VecXF := ⟨3, 1, 2, 1, 0⟩
def sX (a b d : List Nat) : State := cue fun x => ps [(1, 0xF)] (vs [(1, vec false a), (2, vec false b), (3, vec false d)] x)
/-- A table of 4,097 entries at the bottom of TLM, T[0x1FF] = 100 and T[0x200] = 40, in g2. -/
def sL : State := putTlm 0 (2 * 0x1FF) [100, 0, 40, 0]
  (cue fun x => ps [(1, 0xF)] (gs [(2, BitVec.ofNat 64 tlmBase), (4, BitVec.ofNat 64 (tlmBase + 65536 - 8194))]
    (vs [(1, vec false [0x1FF0, 0x1FF8, 0x2000, 0])] x)))

theorem witness_PixelAndTableResults : xF.z = 0 ∧ Issues c0 4 sL ∧ (⟨3, 1, 0, 1, 0⟩ : VecXF).vb = 0
    ∧ (∀ a ∈ [tlmBase, tlmBase + 65536 - 8194], a % 2 = 0 ∧ tlmBase ≤ a
      ∧ a + 2 * 4097 ≤ tlmBase + (ctxAt 0 sL).tlmLimit ∧ a < 2 ^ 48
      ∧ tileHeld (ctxAt 0 sL) (a - tlmBase) 8194 = false) := by unfold Issues; decide +kernel

/-- 1.0 x 1.0, 2.0- x 2.0- and its clamp, 0.5 x 1.5. -/
theorem test_pixel_mul : lanes false 3 (sX [0x8000, 0xFFFF, 0x4000] [0x8000, 0xFFFF, 0xC000] []) (.vmulFx c0 xF)
      = [0x8000, 0xFFFF, 0x6000]
    ∧ satOf (sX [0xFFFF] [0xFFFF] []) (.vmulFx c0 xF) = true
    ∧ satOf (sX [0x8000] [0x8000] []) (.vmulFx c0 xF) = false
    ∧ lanes false 2 (sX [0x4000, 0x8000] [0x8000, 0x8000] [0x1000, 0xFFFF]) (.vmadFx c0 xF) = [0x5000, 0xFFFF]
    ∧ lanes false 3 (sX [0, 0, 0x8000] [0x8000, 0x8000, 0] [0x2000, 0xFFFF, 0x2000]) (.vblend c0 xF)
      = [0x2000, 0x8000, 0x6000] := by decide +kernel

def cF : VecXF := ⟨3, 1, 0, 1, 0⟩
/-- R72: 0xFF and 1,023 are 1.0; 1.0 is 0xFF, 0xFFFF; the half 1.0 is 0x3C00; above 0xFFFF clamps. -/
theorem test_conversions : lanes false 2 (sX [0x00FF] [] []) (.vcvtFxU8 c0 cF) = [0x8000, 0]
    ∧ lanes false 1 (sX [0x8000, 0x4000] [] []) (.vcvtU8Fx c0 cF) = [0x80FF]
    ∧ lanes false 2 (sX [0xFFFF, 0] [] []) (.vcvtFxU16 c0 cF) = [0x8000, 0]
    ∧ lanes false 2 (sX [0x8000, 1] [] []) (.vcvtU16Fx c0 cF) = [0xFFFF, 2]
    ∧ lanes false 2 (sX [1023, 0xFC00] [] []) (.vcvtFxU10 c0 cF) = [0x8000, 0]
    ∧ lanes false 3 (sX [0x3C00, 0xBC00, 0x7C00] [] []) (.vcvtFxF16 c0 cF) = [0x8000, 0, 0xFFFF]
    ∧ lanes false 3 (sX [0x8000, 1, 0] [] []) (.vcvtF16Fx c0 cF) = [0x3C00, 0x0200, 0] := by decide +kernel

/-- R121: a table at an odd address, one that runs past the limit. -/
theorem test_tables_bad : ends 2 6 sL (.vlutN c0 ⟨3, 1, 1, 1, 0⟩) = true
    ∧ ends 2 5 (cue (gs [(1, 1)])) (.vlutN c0 ⟨3, 1, 1, 1, 0⟩) = true := by decide +kernel

theorem test_tables : lanes false 3 sL (.vlutN c0 ⟨3, 1, 2, 1, 0⟩) = [100, 100, 40]
    ∧ lanes false 3 sL (.vlutI c0 ⟨3, 1, 2, 1, 0⟩) = [100, 70, 40] := by decide +kernel

def pF : VecPF := ⟨3, 1, 2, 1, false⟩
/-- Every lane active; v1 holds 0 to 31, v2 32 to 63. -/
def sM : State := cue fun x => ps [(1, 0xFFFFFFFF), (2, 0x80000005)] (gs [(1, 0x1FFFF)]
  (vs [(1, vecOf false fun i => i), (2, vecOf false fun i => 32 + i)] x))

theorem witness_PermuteAndReduceResults : Issues c0 4 sM ∧ (⟨3, 1, 31, 1, false⟩ : VecPF).vb.val < laneN false
    ∧ (⟨3, 1, 15, 0, true⟩ : VecPF).vb.val < laneN true ∧ (⟨3, 1, 15, 0, true⟩ : VecPF).pk = 0
    ∧ (⟨3, 1, 0, 1, true⟩ : VecPF).vb = 0 := by unfold Issues; decide +kernel

theorem test_permute : ([.vperm, .vzipLo, .vzipHi, .vuzpEv, .vuzpOd] : List (CtxId → VecPF → Instr)).map
      (fun i => (lanes false 32 sM (i c0 pF)).take 3 ++ (lanes false 32 sM (i c0 pF)).drop 31)
    = [[0, 1, 2, 31], [0, 32, 1, 63 - 16], [16, 48, 17, 63], [0, 2, 4, 62], [1, 3, 5, 63]] := by decide +kernel

theorem test_permute2 : (lanes false 32 sM (.vbcast c0 ⟨3, 1, 31, 1, false⟩)).eraseDups = [31]
    ∧ gAfter 3 sM (.vext c0 ⟨3, 2, 31, 0, false⟩) = some 63
    ∧ (lanes false 3 sM (.vins c0 ⟨3, 1, 1, 0, false⟩)) = [0, 0xFFFF, 0]
    ∧ ([0, 31].map fun m => (lanes false 2 sM (.vslide c0 pF m))) = [[0, 1], [31, 32]]
    ∧ lanes false 4 sM (.vcompress c0 ⟨3, 1, 0, 2, false⟩) = [0, 2, 31, 0] := by decide +kernel

/-- R122: lane 16 of 16 and a slide by 16 of 32-bit lanes, and a reduction with vb 1, are ILLEGAL. -/
theorem test_permute_bad : ([.vbcast c0 ⟨3, 1, 16, 0, true⟩, .vext c0 ⟨3, 1, 16, 0, true⟩, .vins c0 ⟨3, 1, 16, 0, true⟩,
      .vslide c0 ⟨3, 1, 2, 0, true⟩ 16, .vredAddu c0 ⟨3, 1, 1, 0, true⟩] : List Instr).map (ends 2 3 sM)
    = List.replicate 5 true := by decide +kernel

theorem test_reduce : ([.vredAddu, .vredMaxu, .vredMinu] : List (CtxId → VecPF → Instr)).map
      (fun i => gAfter 3 sM (i c0 ⟨3, 2, 0, 2, false⟩)) = [some (32 + 34 + 63), some 63, some 32] := by decide +kernel

/-- Lane 31 alone active; vld and vgather at the end of TLM. -/
def sG : State := putTlm 0 0xFFFE [0x34, 0x12] (cue fun x => ps [(1, 0x80000000)] (gs
  [(1, BitVec.ofNat 64 (tlmBase + 0xFFC0)), (4, BitVec.ofNat 64 tlmBase)]
  (vs [(2, vecOf false fun _ => 0x7FFF), (3, vecOf false fun _ => 0xABCD)] x)))

theorem witness_VectorMemory : (⟨3, 1, 0, 1, false, none, 0⟩ : VecMF).z = 0 ∧ Issues c0 4 sG ∧ Issues c0 8 sG
    ∧ (ctxAt 0 sG).vrm = 0 ∧ (ctxAt 0 sG).miss = none ∧ activeLanes false ((ctxAt 0 sG).getP 1) = [31]
    ∧ laneAddr ⟨3, 1, 0, 1, false, none, 0⟩ false (ctxAt 0 sG) 31 = tlmBase + 0xFFFE
    ∧ laneAddr ⟨3, 4, 2, 1, false, none, 0⟩ true (ctxAt 0 sG) 31 = tlmBase + 0xFFFE
    ∧ tlmBase + 0xFFFE + 2 ≤ tlmBase + (ctxAt 0 sG).tlmLimit ∧ tileHeld (ctxAt 0 sG) 0xFFFE 2 = false := by
  unfold Issues; decide +kernel

theorem test_vec_memory : (lanes false 32 sG (.vld c0 ⟨3, 1, 0, 1, false, none, 0⟩)).drop 30 = [0xABCD, 0x1234]
    ∧ (lanes false 32 sG (.vgather c0 ⟨3, 4, 2, 1, false, none, 0⟩)).drop 30 = [0xABCD, 0x1234]
    ∧ ok (.vst c0 ⟨3, 1, 0, 1, false, none, 0⟩) sG (fun t => tlmBytes 0 0xFFFC 4 t == [0, 0, 0xCD, 0xAB]) = true
    ∧ ok (.vscatter c0 ⟨3, 4, 2, 1, false, none, 0⟩) sG (fun t => tlmBytes 0 0xFFFC 4 t == [0, 0, 0xCD, 0xAB]) = true := by
  decide +kernel


/-- Lane 0 alone active, at a mapped address of DRAM; and at an odd one. -/
def sGd (a : Word) : State := mapped (cue fun x => ps [(1, 1)] (gs [(1, a)] (vs [(3, vecOf false fun _ => 0xABCD)] x)))
theorem witness_VectorMemory_dram : Issues c0 4 (sGd 0x3008) ∧ lanesToDo ⟨3, 1, 0, 1, false, none, 0⟩ (ctxAt 0 (sGd 0x3008)) = [0]
    ∧ laneAddr ⟨3, 1, 0, 1, false, none, 0⟩ false (ctxAt 0 (sGd 0x3008)) 0 = 0x3008 ∧ (0x3008 : Nat) < tlmGuard
    ∧ (ctxAt 0 (sGd 0x3008)).sbuf = [] ∧ dcacheAt 0 (sGd 0x3008) = [] ∧ coreMisses 0 (sGd 0x3008) < 8
    ∧ (coreTranslate 0 0x3008 .read (fetch 0 4 (sGd 0x3008)).2).1 = .pa 0x50008
    ∧ (coreTranslate 0 0x3008 .write (fetch 0 4 (sGd 0x3008)).2).1 = .pa 0x50008
    ∧ laneAddr ⟨3, 1, 0, 1, false, none, 0⟩ false (ctxAt 0 (sGd 0x3009)) 0 % 2 ≠ 0 := by unfold Issues; decide +kernel

theorem test_vec_dram : ok (.vld c0 ⟨3, 1, 0, 1, false, none, 0⟩) (sGd 0x3008) (fun t =>
      ((ctxAt 0 t).miss.map Miss.lanes) == some [(0, 0x3008, 0x50008)]) = true
    ∧ ok (.vst c0 ⟨3, 1, 0, 1, false, none, 0⟩) (sGd 0x3008) (fun t => (ctxAt 0 t).sbuf == [⟨0x50008, [0xCD, 0xAB], 0⟩]) = true
    ∧ ends 2 5 (sGd 0x3009) (.vld c0 ⟨3, 1, 0, 1, false, none, 0⟩) = true
    ∧ ends 2 3 (sGd 0x3008) (.vst c0 ⟨3, 1, 1, 1, false, none, 0⟩) = true := by decide +kernel

/-- R81: a load of bytes a tile delivery still covers stalls. -/
def sTheld : State := setCtx 0 { ctxAt 0 sT with tlds := [⟨0, 0, 0xF800, 0, 0⟩] } sT
theorem witness_TlmLoadResults_held : Issues c0 4 sTheld ∧ tileHeld (ctxAt 0 sTheld) 0xFFF8 1 = true
    ∧ ok (.ldB c0 (mF 0)) sTheld (fun t => (ctxAt 0 t).st == .stalled) = true := by unfold Issues; decide +kernel
/-! ### Cue instructions: tile, task, CRC feed, system -/

def tF : VecF := ⟨0, 1, 2, 0⟩
def sTi (a b : Word) : State := cue fun x => ps [(1, 1)] (gs [(1, a), (2, b)] (vs [(28, 0xABCD)] x))
/-- A task of flow 2 whose sequence is not the next to release. -/
def sTf : State := setDesc 0 { st := .running, flow := 2, flowValid := true, seq := 1, ctx := some 0 } (sTi 5 9)

/-- The head of flow 2. -/
def sTh (a b : Word) : State :=
  setDesc 0 { st := .running, flow := 2, flowValid := true, seq := 0, ctx := some 0 } (sTi a b)

theorem witness_TileInstructions : Issues c0 4 (sTi (BitVec.ofNat 64 (tlmBase + 65536 - 2048)) 0xFFFFFFFF)
    ∧ tlmBase + 65536 - 2048 + 2048 ≤ tlmBase + (ctxAt 0 (sTi 0 0)).tlmLimit ∧ (tlmBase + 65536 - 2048) % 64 = 0
    ∧ (ctxAt 0 (sTi 0 0)).tlds.length < 2 ∧ (⟨28, 1, 2, 1⟩ : VecF).vd.val ≤ 28
    ∧ (schedAt 0 (sTi 0 0)).path = [] ∧ (descAt (descOf 0 (ctxAt 0 (sTi 0 0)).desc) (sTi 0 0)).flowValid = false
    ∧ Issues c0 4 sTf ∧ (descAt 0 sTf).flowValid = true ∧ isFlowHead 0 sTf = false
    ∧ relBufUsed 0 sTf + itemBytes (.tst ⟨5, 9, 1, []⟩) ≤ relBufSize := by unfold Issues; decide +kernel

theorem test_tld : ok (.tld c0 tF 15) (sTi (BitVec.ofNat 64 (tlmBase + 65536 - 2048)) 0x20003) (fun t =>
    (ctxAt 0 t).tlds == [⟨0, 15, 63488, 3, 2⟩] && (kget {} 15 t.fetchers).queue == [⟨0, 15, 63488, 3, 2⟩]
    && (ctxAt 0 t).pc == tlmBase + 4) = true := by decide +kernel

theorem test_tst : ok (.tst c0 ⟨28, 1, 2, 1⟩ 0) (sTi 5 9) (fun t =>
      (schedAt 0 t).path == [⟨0, 0, false, .tst ⟨5, 9, 1, [0xABCD, 0, 0, 0]⟩⟩]) = true
    ∧ ok (.tst c0 ⟨28, 1, 2, 1⟩ 0) sTf (fun t => (descAt 0 t).held == [⟨66, 0, true, .tst ⟨5, 9, 1, [0xABCD, 0, 0, 0]⟩⟩]
      && (schedAt 0 t).path == []) = true
    ∧ ok (.tcommit c0 tF 0) (sTi 255 0x1FFFF) (fun t => (schedAt 0 t).path == [⟨0, 0, false, .commit 255 0x1FFFF⟩]) = true
    ∧ ok (.tcommit c0 tF 0) (sTh 1 0) (fun t => (descAt 0 t).held == [⟨66, 0, false, .commit 1 0⟩]
      && (schedAt 0 t).path == []) = true := by decide +kernel

/-- Two requests out; a release buffer with no room left. -/
def sTi2 : State := setCtx 0 { ctxAt 0 (sTi (BitVec.ofNat 64 tlmBase) 0) with tlds := List.replicate 2 ⟨0, 0, 4096, 0, 0⟩ }
  (sTi (BitVec.ofNat 64 tlmBase) 0)
def sTfull : State := updDesc 0 (fun e => { e with held := List.replicate 4096 ⟨66, 0, true, .tst ⟨5, 9, 0xFFFFFFFF, []⟩⟩ }) sTf
theorem witness_TileInstructions_full : Issues c0 4 sTi2 ∧ 2 ≤ (ctxAt 0 sTi2).tlds.length ∧ Issues c0 4 sTfull
    ∧ relBufSize < relBufUsed 0 sTfull + itemBytes (.tst ⟨5, 9, 1, []⟩) ∧ isFlowHead 0 sTfull = false
    ∧ Issues c0 4 (sTh 1 0) ∧ isFlowHead 0 (sTh 1 0) = true := by unfold Issues; decide +kernel
theorem test_tile_full : ok (.tld c0 tF 15) sTi2 (fun t => (ctxAt 0 t).stall == some .tldFull) = true
    ∧ ok (.tst c0 ⟨28, 1, 2, 1⟩ 0) sTfull (fun t => (ctxAt 0 t).stall == some (.relBuf 8)) = true
    ∧ ends 2 6 (sTi 0 0) (.tld c0 tF 0) = true
    ∧ ends 2 8 (sTi (BitVec.ofNat 64 (tlmBase + 32)) 0) (.tld c0 tF 0) = true := by decide +kernel

theorem test_tile_faults : [ends 2 8 (sTi 0 0) (.tst c0 ⟨29, 1, 2, 0⟩ 0), ends 2 8 (sTi 0x4000 0) (.tst c0 ⟨0, 1, 2, 0⟩ 0),
      ends 2 8 (sTi 0 0) (.tcommit c0 tF 0), ends 2 8 (sTi 256 0) (.tcommit c0 tF 0),
      ends 2 8 (sTi 1 0x20000) (.tcommit c0 tF 0)] = [true, true, true, true, true] := by decide +kernel

def kF : TaskF := ⟨3, 1, 2, false, 0⟩
def sK (a b : Word) : State := putTlm 0 0xFFC0 (p4 0x10001 ++ p4 7) (cue (gs [(1, a), (2, b), (4, 0x12345), (7, 9)]))

theorem witness_SubmissionsReachScheduler : Issues c0 4 (sK (BitVec.ofNat 64 (tlmBase + 0xFFC0)) 5) ∧ kF.z = 0
    ∧ kF.nb = false ∧ (ctxAt 0 (sK 0 0)).sbuf = [] ∧ (tlmBase + 0xFFC0) % 64 = 0
    ∧ tlmBase + 0xFFC0 + 64 ≤ tlmBase + (ctxAt 0 (sK 0 0)).tlmLimit
    ∧ tileHeld (ctxAt 0 (sK 0 0)) 0xFFC0 64 = false := by unfold Issues; decide +kernel

theorem test_submissions : ok (.spawn c0 kF) (sK 0x101 77) (fun t => (schedAt 0 t).subs.map Sub.start == [77]
      && (schedAt 0 t).subs.map Sub.args == [[0x12345, 0, 0, 9]] && (ctxAt 0 t).stall == some .submit) = true
    ∧ ok (.enq c0 kF) (sK (BitVec.ofNat 64 (tlmBase + 0xFFC0)) 0) (fun t => (schedAt 0 t).subs.map Sub.ctrl == [0x10001]
      && (schedAt 0 t).subs.map Sub.image == [7]) = true
    ∧ ok (.tcancel c0 kF) (sK 0x5001 0) (fun t => (schedAt 0 t).cancels == [(0, 3, 0x5001)]) = true := by decide +kernel

/-- R131: a spec not 64-byte aligned, one beyond the limit. -/
theorem test_enq_bad : ends 2 5 (sK (BitVec.ofNat 64 (tlmBase + 32)) 0) (.enq c0 kF) = true
    ∧ ends 2 6 (sK (BitVec.ofNat 64 (tlmBase + 65536)) 0) (.enq c0 kF) = true := by decide +kernel

def sR : State := setCtx 0 { ctxAt 0 (sK 1 1) with sbuf := [⟨0, [1], 0⟩] } (sK 1 1)

theorem witness_ReleaseComesFirst : Issues c0 4 sR ∧ kF.z = 0 ∧ kF.nb = false ∧ (ctxAt 0 sR).sbuf ≠ [] := by
  unfold Issues; decide +kernel

theorem test_release_first : ([.doneTask c0 kF, .yieldTask c0 kF, .post c0 kF, .spawn c0 kF, .fenceRel c0 0 0] :
      List Instr).map (fun i => ok i sR fun t => (ctxAt 0 t).stall == some .release && (ctxAt 0 t).pc == tlmBase)
    = [true, true, true, true, true] := by decide +kernel

/-- The counter at 100 ns. -/
def sW (a b : Word) : State := { sK a b with cnt := 100 * 2 ^ 32 }

theorem witness_DoneAndWaits : Issues c0 4 (sW 100 101) ∧ (ctxAt 0 (sW 0 0)).sbuf = [] ∧ srTime (sW 0 0) = 100
    ∧ gReg kF.ra (ctxAt 0 (sW 100 101)) = 100 ∧ gReg kF.rb (ctxAt 0 (sW 100 101)) = 101 := by
  unfold Issues; decide +kernel

theorem test_done_waits : ok (.doneTask c0 kF) (sW 0 0) (fun t => (ctxAt 0 t) == {} && (descAt 0 t).endUser == 0x2345) = true
    ∧ ok (.waitTime c0 kF) (sW 100 0) (fun t => (ctxAt 0 t).st == .ready && (ctxAt 0 t).pc == tlmBase + 4) = true
    ∧ ok (.waitTime c0 kF) (sW 101 0) (fun t => (ctxAt 0 t).wait == some ⟨false, 0, some 101, 0⟩) = true
    ∧ ok (.waitEv c0 kF) (sW 0 0) (fun t => (ctxAt 0 t).pc == tlmBase + 4) = true
    ∧ ok (.waitEv c0 kF) (sW 6 100) (fun t => (ctxAt 0 t).pc == tlmBase + 4) = true
    ∧ ok (.waitEv c0 kF) (sW 6 0) (fun t => (ctxAt 0 t).wait == some ⟨true, 6, none, 3⟩) = true
    ∧ ok (.waitEv c0 kF) (sW 6 101) (fun t => (ctxAt 0 t).wait == some ⟨true, 6, some 101, 3⟩) = true := by decide +kernel

/-- Context 1 waits for line 49; 33 save slots, or 32. -/
def sY (slots : Nat) : State := setCtx 1 { st := .waiting, wait := some ⟨true, 2 ^ 49, none, 5⟩ }
  (put [(Sched.SAVE_POOL_CFG 0, slots)] (sK 17 0))

theorem witness_YieldAndPostResults : Issues c0 4 (sY 33) ∧ Issues c0 4 (sY 32) ∧ freeSlots 0 (sY 32) ≤ 32
    ∧ 32 < freeSlots 0 (sY 33) ∧ (ctxAt 0 (sY 33)).sbuf = [] ∧ (ctxAt 1 (sY 33)).st = .waiting
    ∧ (2 ^ 49).testBit (48 + (gReg kF.ra (ctxAt 0 (sY 33))).toNat % 16) = true := by unfold Issues; decide +kernel

theorem test_yield_post : ok (.yieldTask c0 kF) (sY 32) (fun t => (ctxAt 0 t).pc == tlmBase + 4
      && rd (Sched.YIELD_NOSLOT 0) t == 1) = true
    ∧ ok (.yieldTask c0 kF) (sY 33) (fun t => (ctxAt 0 t).st == .saving && (ctxAt 0 t).save == some .resume) = true
    ∧ ok (.post c0 kF) (sY 33) (fun t => (ctxAt 1 t).st == .ready && ((ctxAt 1 t).getG 5).toNat == 2 ^ 49
      && rd (Sched.EV_SEEN 0) t == 2 ^ 49 && (ctxAt 0 t).pc == tlmBase + 4) = true := by decide +kernel

def qF : CrcF := ⟨0, 1, 0, 0, 0, 3⟩
/-- Unit 3 of slice 0 on CRC-32 at its initial value. -/
def sC : State := put [(Crc.CRC_CFG 3, 0), (Crc.CRC_VALUE 3, 0xFFFFFFFF)] (cue fun x => gs [(1, 0x34333231)] (vs [(1, 0x31)] x))

/-- The unit is busy until 100 ns. -/
def sCb : State := { sC with crcBusy := [(3, 1000)] }
theorem witness_CrcInstructionResults_held : Issues c0 4 sCb ∧ crcHeld 3 0 sCb = true ∧ crcHeld 3 0 sC = false := by
  unfold Issues; decide +kernel
theorem test_crc_held : ok (.crcB c0 qF) sCb (fun t => (ctxAt 0 t).stall == some (.crcBusy 3)) = true
    ∧ ok (.crcGet c0 ⟨3, 0, 0, 0, 0, 3⟩) sCb (fun t => (ctxAt 0 t).stall == some (.crcBusy 3)) = true := by decide +kernel

theorem witness_CrcInstructionResults : Issues c0 4 sC ∧ qF.z = 0 ∧ qF.y = 0 ∧ crcIsBusy 3 sC = false ∧ qF.rd = 0
    ∧ qF.rb = 0 ∧ (⟨3, 0, 0, 0, 0, 3⟩ : CrcF).ra = 0 := by unfold Issues; decide +kernel

/-- R399: the check values of the four algorithms over "123456789". -/
theorem test_crc_check_values : [0, 1, 2, 3].map (fun alg => crcOf alg
    [0x31, 0x32, 0x33, 0x34, 0x35, 0x36, 0x37, 0x38, 0x39]) = [0xCBF43926, 0xE3069283, 0x29B1, 0xF4] := by decide +kernel

theorem test_crc_feed : ([.crcB, .crcH, .crcW, .crcV] : List (CtxId → CrcF → Instr)).map (fun i =>
      match exec (i c0 qF) sC with | .next t => rd (Crc.CRC_BYTES 3) t | _ => 0) = [1, 2, 4, 64]
    ∧ ok (.crcW c0 qF) sC (fun t => crcRaw 3 t == crcFeed 0 0xFFFFFFFF [0x31, 0x32, 0x33, 0x34]) = true
    ∧ gAfter 3 sC (.crcGet c0 ⟨3, 0, 0, 0, 0, 3⟩) = some 0xFFFFFFFF
    ∧ gAfter 3 sC (.crcFin c0 ⟨3, 0, 0, 0, 0, 3⟩) = some 0
    ∧ ok (.crcPut c0 qF) sC (fun t => crcRaw 3 t == 0x34333231) = true := by decide +kernel

def sN (n : BitVec 11) : SysF := ⟨3, 0, n⟩
def sS : State := { cue fun x => gs [(1, 3)] { x with sat := true, resumed := true, vrm := 6, asid := 9, icount := 41 } with
  cnt := 7 * 2 ^ 32 }

theorem witness_SpecialRegisters : Issues c0 4 sS ∧ (sN 0x100).ra = 0 ∧ 0x100 ≤ (sN 0x100).num.toNat
    ∧ 0x22 ≤ (sN 0x22).num.toNat ∧ (sN 0xFF).num.toNat < 0x100 ∧ (⟨0, 1, 3⟩ : SysF).rd = 0 := by
  unfold Issues; decide +kernel

theorem test_special : ([0, 3, 4, 5, 0x11, 0x21] : List (BitVec 11)).map (fun n => gAfter 3 sS (.mfs c0 (sN n)))
      = [0x90000, 5, 6, 65536, 7, 41].map some
    ∧ [ends 2 4 sS (.mfs c0 (sN 0x100)), ends 2 3 sS (.mfs c0 (sN 0x22)), ends 2 3 sS (.mfs c0 (sN 0xFF)),
       ends 2 4 sS (.mts c0 ⟨0, 1, 4⟩)] = [true, true, true, true]
    ∧ ok (.mts c0 ⟨0, 0, 3⟩) sS (fun t => !(ctxAt 0 t).sat && (ctxAt 0 t).resumed) = true := by decide +kernel

/-- A line of the cache tagged with the task's ASID; the task's image is loaded for debugging. -/
def sF (debug : Bool) : State := { sS with
  dcache := [(0, [⟨9, 5, [1]⟩, ⟨8, 5, [1]⟩])]
  host := { sS.host with images := [(0, some ⟨9, 1, 0, debug, []⟩)] } }

theorem witness_FencesTrapHalt : Issues c0 4 (sF true) ∧ (ctxAt 0 (sF true)).sbuf = [] ∧ debugImage 0 (sF true) = true
    ∧ debugImage 0 (sF false) = false := by unfold Issues; decide +kernel

theorem test_system : retires (.fenceRel c0 0 0) 4 (sF true) id = true
    ∧ ok (.fenceAcq c0 0 0) (sF true) (fun t => (dcacheAt 0 t).map CacheLine.asid == [8]) = true
    ∧ ok (.fence c0 ⟨0, 0, 3⟩) (sF true) (fun t => (dcacheAt 0 t).map CacheLine.asid == [8]) = true
    ∧ ends 3 0x2C (sF false) (.trap c0 ⟨0, 0, 0x12C⟩) = true
    ∧ ok (.trap c0 ⟨0, 0, 1⟩) (sF true) (fun t => (ctxAt 0 t).st == .faulted && (ctxAt 0 t).pc == tlmBase) = true
    ∧ ends 2 4 (sF true) (.halt c0 ⟨0, 0, 0⟩) = true ∧ ends 2 3 (sF true) (.fence c0 ⟨0, 0, 0⟩) = true := by decide +kernel

/-! ### The machine, registers, commit, frame timing -/

/-- Start-up has finished. -/
def up : State := put [(Sys.BOOT_STAGE, 9)] State.reset
/-- The offset in register space of a register. -/
def offOf (r : Reg) : BitVec 26 := BitVec.ofNat 26 r.addr
/-- What the register tables say of an address. -/
def rowIs (a : Nat) (b : BlockId) (w64 : Bool) (c : CommitClass) (x : Access) : Bool :=
  match findReg a with
  | some f => f.blk == b && f.half == 0 && f.row.w64 == w64 && f.row.cls == c && f.row.acc == x
  | none => false

theorem witness_StepRunsFrontOrIdles : State.reset.pending = [] := rfl

theorem test_step : (match step { State.reset with pending := [.timeSnap .renro, .ilkInLive] } with
      | .next t => t.pending == [.ilkInLive]
      | _ => false) = true
    ∧ (match step State.reset with | .next t => t.clk == 40 && t.cnt == 2 ^ 34 | _ => false) = true := by decide +kernel

theorem witness_StepKeepsSteady : Steady { State.reset with pending := [.ilkInLive] }
    ∧ ∃ t, step { State.reset with pending := [.ilkInLive] } = .next t := ⟨⟨rfl, rfl⟩, ⟨_, rfl⟩⟩

theorem witness_DramReadsBack : poisoned 0x3E 4 up = false ∧ Memory.wf up.dram := by
  unfold Memory.wf; decide +kernel

theorem test_dram : memBytes 0x3D 6 (writeMem 0x3E [1, 2, 3, 4] up) = [0, 1, 2, 3, 4, 0]
    ∧ (writeMem 0x3E [0, 0] (writeMem 0x3E [1, 2] up)).dram = [] := by decide +kernel

theorem witness_RegisterAccesses : hostAsleep .host up = false ∧ slicesOn up = true
    ∧ (offOf (Mc.MC_SCRUB_CFG 3)).toNat % 4 = 0
    ∧ rowIs (Mc.MC_SCRUB_CFG 3).addr .mc false .imm .rw = true
    ∧ rowIs (DmaB.DMA_EV_STATUS 0).addr .dmaB false .imm .w1c = true
    ∧ rowIs (Mc.MC_UE_COUNT 0).addr .mc false .imm .ro = true
    ∧ (findReg (physOf 0x3FFFFFC)).isNone = true ∧ (0x3FFFFFE : BitVec 26).toNat % 4 ≠ 0
    ∧ rowIs (Sched.CQ_BASE 0).addr .sched true .imm .rw = true
    ∧ (Sched.CQ_BASE 0).addr ≠ Time.FT_NEXT_T_SEC.addr ∧ (offOf (Sched.CQ_BASE 0)).toNat % 8 = 0 := by
  decide +kernel

theorem test_register_access : ok (.registerWrite .host (offOf (Mc.MC_SCRUB_CFG 3)) false 0xFFFFFFFF0000) up
      (fun t => rd (Mc.MC_SCRUB_CFG 3) t == 0) = true
    ∧ ok (.registerWrite .host (offOf (DmaB.DMA_EV_STATUS 0)) false 0x3) (put [(DmaB.DMA_EV_STATUS 0, 6)] up)
      (fun t => rd (DmaB.DMA_EV_STATUS 0) t == 4) = true
    ∧ ok (.registerWrite .host (offOf (DmaB.DMA_EV_STATUS 0)) false 0x3) (orReg (DmaB.DMA_EV_STATUS 0) 6 up)
      (fun t => rd (DmaB.DMA_EV_STATUS 0) t == 6) = true
    ∧ ok (.registerWrite .host (offOf (Mc.MC_UE_COUNT 0)) false 9) up (fun t => rd (Mc.MC_UE_COUNT 0) t == 0) = true
    ∧ ok (.registerWrite .host 0x3FFFFFE false 9) up (fun t => t.regs == (wr Hst.HOST_ERR 1 up).regs) = true
    ∧ ok (.registerWrite .host 0x3FFFFFC false 9) up (fun t => t.regs == up.regs) = true := by decide +kernel

/-- R6: the halves of a 64-bit register. -/
theorem test_halves : ok (.lowHalfWrite .host (offOf (Sched.CQ_BASE 0)) 0x12345000) up (fun t =>
      t.regs == up.regs && ok (.registerWrite .host (offOf (Sched.CQ_BASE 0) + 4) false 0x77) t fun u =>
        rd (Sched.CQ_BASE 0) u == 0x7712345000) = true
    ∧ ok (.lowHalfRead .host (offOf (Sched.CQ_BASE 0))) (put [(Sched.CQ_BASE 0, 0x7712345000)] up) (fun t =>
      kget [] 0 t.host.readOut == leBytes 4 0x12345000 && ok (.rcRead .host (offOf (Sched.CQ_BASE 0) + 4) false true)
        (wr (Sched.CQ_BASE 0) 0 t) fun u => kget [] 0 u.host.readOut == leBytes 4 0x77) = true
    ∧ ok (.rcRead .renro (offOf (Sched.CQ_BASE 0)) true true) (put [(Sched.CQ_BASE 0, 0x7712345000)] up)
      (fun t => kget [] 1 t.host.readOut == leBytes 8 0x7712345000) = true := by decide +kernel

/-- Slice 0 in a raster begun at 0, its commit point ahead; the time is at: 1 us, in the Bezel. -/
def sWin (clk : Nat) : State := { up with
  clk := clk
  slices := [(0, { frame := some 5, startAt := 0, cpDone := false })] }
/-- A WIN register that no port stores beside. -/
def lustreLimit : Reg := Layer.LUSTRE_CTRL 0

theorem witness_WinAndShdWrites : hostAsleep .host up = false ∧ slicesOn up = true
    ∧ rowIs (Scan.RASTER_H 0 3).addr .scan false .win .rw = true
    ∧ cpAhead 0 (sWin 40) = true ∧ (sWin 40).clk < bezelInstant 0 (sWin 40)
    ∧ bezelInstant 0 (sWin 40) ≤ (sWin (bezelInstant 0 (sWin 40))).clk
    ∧ bezelInstant 0 (sWin 40) < cpInstant 0 (sWin (bezelInstant 0 (sWin 40)))
    ∧ bezelInstant 0 (sWin (bezelInstant 0 (sWin 40))) = bezelInstant 0 (sWin 40)
    ∧ cpAhead 3 (sWin 40) = false := by decide +kernel

theorem test_win : ok (.winWrite .host (offOf (Scan.RASTER_H 0 3)) false 0x10440400) (sWin 40) (fun t =>
      armedAt (Scan.RASTER_H 0 3).addr t == some ⟨0x10440400, false⟩ && t.regs == (sWin 40).regs) = true
    ∧ ok (.winWrite .host (offOf (Scan.RASTER_H 0 3)) false 0x10440400) (sWin (bezelInstant 0 (sWin 40))) (fun t =>
      armedAt (Scan.RASTER_H 0 3).addr t == some ⟨0x10440400, true⟩ && rd (Slc.SLC_LATE_TOTAL 0) t == 1
      && rd (Slc.SLC_LATE_LAST 0) t == 0x80000000 + 0x53000 + (Scan.RASTER_H 0 0).addr % 0x1000) = true
    ∧ ok (.shdCommit 3 .host 0x8001) up (fun t => rd (Layer.LY_COMMIT 3) t == 0x8001) = true := by decide +kernel

theorem witness_SliceAndTimelineControl : hostAsleep .host up = false ∧ slicesOn up = true
    ∧ slcStatus 0 up = 0 ∧ 64 ≤ rAct (rasterV 7 up) ∧ bit Time.FT_CTRL 0 up = false ∧ ftState up = 0
    ∧ periodOk up = true ∧ periodOk (put [(Time.FT_PERIOD_NUM, 1)] up) = false
    ∧ bit Time.FT_CTRL 0 (put [(Time.FT_CTRL, 1), (Time.FT_STATUS, 6)] up) = true
    ∧ ftState (put [(Time.FT_CTRL, 1), (Time.FT_STATUS, 6)] up) ≠ 0 := by decide +kernel

theorem test_slice_control : ok (.slcRunSet 2 .host) up (fun t => bit (Slc.SLC_CTRL 2) 0 t) = true
    ∧ ok (.slcCommitCfgWrite 0 .host 0x4007) up (fun t => rd (Slc.SLC_COMMIT_CFG 0) t == 0x4007) = true
    ∧ ok (.slcCommitCfgWrite 0 .host 0x4107) up (fun t => rd (Slc.SLC_COMMIT_CFG 0) t == 0x400
      && rd (Slc.SLC_ERR 0) t == 1) = true
    ∧ ok (.timelineArm .host) up (fun t => ftState t == 1 && t.tl.next == firstFrom 0 (soon up) up) = true
    ∧ ok (.timelineArm .host) (put [(Time.FT_PERIOD_NUM, 1)] up) (fun t => ftState t == 0 && rd Time.FT_ERR t == 2) = true
    ∧ ok (.timelineStop .host) { put [(Time.FT_CTRL, 1), (Time.FT_STATUS, 6)] up with tl := { next := 8, last := some 7 } }
      (fun t => ftState t == 0 && t.rcd.staged.map StagedRec.payload == [p8 7]) = true := by decide +kernel

def txF : TxFrame := ⟨3, .full, 0, 0, 0, 0, 0, 0, 4000, false, [], false, [], []⟩
/-- The timeline runs; frame 3 is next. -/
def sFr : State := { put [(Time.FT_CTRL, 1), (Time.FT_STATUS, 2)] up with
  tl := { next := 3 }
  ports := [(9, { ras := some (0x10440400, 0x10440400, 48), mode := 2, tx := some txF })]
  slices := [(1, { frame := some 3, startAt := 0, cpDone := false })] }

theorem witness_FrameEvents : shed sFr = false ∧ ftState sFr ≠ 0 ∧ (sliceAt 1 sFr).frame = some 3
    ∧ (sliceAt 1 sFr).cpDone = false ∧ rastering 9 sFr = true ∧ (portAt 9 sFr).vblankDone = false
    ∧ (portAt 9 sFr).matchDone = false ∧ matchLine 9 sFr < vTotal (rasNow 9 sFr).2.1
    ∧ ((portAt 9 sFr).tx.map TxFrame.done) = some false := by decide +kernel

theorem test_frame_start : ok (.frameStart 0 [] 0) sFr (fun t => (sliceAt 0 t).frame == some (frameNext 0 sFr)
      && t.tl.last == some (frameNext 0 sFr) && startOf (frameNext 0 sFr) sFr ≤ t.clk) = true := by decide +kernel
theorem test_raster_events : ok (.vblankStart 9) sFr (fun t => rd (Scan.INT_STATUS 1 1) t == 1) = true
    ∧ ok (.lineMatch 9) sFr (fun t => rd (Scan.INT_STATUS 1 1) t == 2) = true
    ∧ ok (.frameDone 9) sFr (fun t => rd (Scan.INT_STATUS 1 1) t == 4 && 4000 ≤ t.clk) = true := by decide +kernel

/-- Entry 5 of slice 1: port 2, start 10, length 4. -/
def sSt (items : List PathItem) : State := setSched 1 { path := items.map fun i => ⟨70, 32, false, i⟩ }
  (put [(Seg.SEGMAP 1 5 0, 1 + 4 * 2), (Seg.SEGMAP 1 5 1, 10), (Seg.SEGMAP 1 5 2, 4)] up)
def wSt (off : Nat) (seg : Nat) : TstWrite := ⟨seg, off, 2, [0x11110000, 0x22220000, 0x33330000, 0x44440000]⟩

/-- A mark of flow 6 behind a tst of another context's. -/
def sSm : State := setSched 1 { path := [⟨3, 35, false, .tst (wSt 2 5)⟩, ⟨70, 32, false, .commit 2 9⟩] } (sSt [])

theorem witness_FrameStore : shed (sSt []) = false ∧ (schedAt 1 (sSt [.tst (wSt 2 5)])).path = [] ++ [⟨70, 32, false, .tst (wSt 2 5)⟩]
    ∧ startDue 1 (sSt []) = false ∧ startDue 1 { put [(Time.FT_STATUS, 2)] up with clk := 400000000000 } = true
    ∧ (schedAt 1 sSm).path = [⟨3, 35, false, .tst (wSt 2 5)⟩] ++ [⟨70, 32, false, .commit 2 9⟩]
    ∧ segUsable 1 (segmentOf 1 5 (sSt [])) (sSt []) = true ∧ (segmentOf 1 5 (sSt [])).c4 = false
    ∧ (wSt 2 5).lanes = 2 ^ 1 ∧ (wSt 2 5).off + 1 < (segmentOf 1 5 (sSt [])).length
    ∧ segUsable 1 (segmentOf 1 6 (sSt [])) (sSt []) = false
    ∧ 0x17FFFF8 / 0xC00000 ≠ frontBank 15 (sSt []) ∧ 0xBFFFF8 / 0xC00000 = frontBank 15 (sSt [])
    ∧ (0x17FFFF8 : Nat) % 8 = 0 := by decide +kernel

/-- Lane 1 lands on pixel 10 + 2 + 1 of the port's back bank, 6 bytes a pixel. -/
theorem test_store_writes : ok (.tstWriteArrive 1) (sSt [.tst (wSt 2 5)]) (fun t =>
      (List.range 3).map (fun c => storeHalf 10 1 (13 * 6 + 2 * c) t) == [0x1111, 0x2222, 0x3333]
      && storeHalf 10 1 (13 * 6 - 2) t == 0 && storeHalf 10 1 (13 * 6 + 6) t == 0 && (schedAt 1 t).path == []) = true
    ∧ ok (.tstWriteArrive 1) (sSt [.tst (wSt 2 6)]) (fun t => t.store == [] && rd (Layer.TST_INVALID_COUNT 1) t == 1) = true
    ∧ ok (.completionMarkWrite 1) (sSt [.commit 0x82 77]) (fun t =>
      t.marks == [(9, some 77), (15, some 77)]) = true
    ∧ ok (.completionMarkWrite 1) sSm (fun t => t.marks == [(9, some 9)] && (schedAt 1 t).path.length == 1) = true
    ∧ ok (.tstWriteArrive 1) (sSt [.tst { wSt 3 5 with lanes := 3 }]) (fun t =>
      storeHalf 10 1 (13 * 6) t == 0 && rd (Layer.TST_CLIP_COUNT 1) t == 1) = true
    ∧ ok (.tstWriteArrive 1) { put [(Time.FT_STATUS, 2)] (sSt [.tst (wSt 2 5)]) with clk := 400000000000 } (fun t =>
      (schedAt 1 t).path.length == 1 && t.store == []) = true := by decide +kernel

theorem test_store_bus : ok (.storeMgmtWrite 1 0x17FFFF8 true (.write 99)) up (fun t => storeWord (0x400000 + 0x2FFFFF) t == 99) = true
    ∧ ok (.storeMgmtWrite 1 0xBFFFF8 true (.write 99)) up (fun t => t.store == [] && rd (Layer.LAYER_ERR 1) t == 0x10000) = true
    ∧ ok (.storeMgmtWrite 1 0x1800000 true (.write 99)) up (fun t => t.store == [] && t.regs == up.regs) = true
    ∧ ok (.storeMgmtWrite 1 0x17FFFFC false (.write 7)) up (fun t =>
      ok (.storeMgmtWrite 1 0x17FFFFC false (.read true)) t fun u => kget [] 1 u.host.readOut == [7, 0, 0, 0]
        && storeWord (0x400000 + 0x2FFFFF) u == 7 * 2 ^ 32 && rd (Layer.STORE_CE_COUNT 1) u == 1) = true := by decide +kernel

/-! ### Contexts and the scheduler -/

/-- A scalar load of two bytes at 0x50001, missed. -/
def sMiss : State := mem 0x50000 [1, 0x80, 0xFF] (cue fun x => { x with
  st := .stalled, stall := some .loadMiss, miss := some ⟨3, false, 2, true, 4, [(0, 0x3001, 0x50001)], [], 0⟩ })
/-- Lanes 0 and 31 of 16 bits, missed. -/
def sMissV : State := setCtx 0 { ctxAt 0 sMiss with
  miss := some ⟨3, true, 2, false, 4, [(0, 0x3000, 0x50000), (31, 0x3001, 0x50001)], [], 0⟩ } sMiss
def sCrcSt : State := cue fun x => { x with st := .stalled, stall := some (.crcBusy 3) }
def sTlds : State := cue fun x => { x with st := .stalled, stall := some .tldFull, tlds := [⟨0, 1, 0, 0, 0⟩] }
def sWt : State := cue fun x => { x with st := .waiting, wait := some ⟨false, 0, some 100, 4⟩ }
/-- A task held by trap, and one FAULTED. -/
def sTrap : State := setDesc 4095 { st := .running, ctx := some 0 } (cue fun x => { x with
  st := .faulted, desc := 4095, fault := some ⟨9, 0, 0, 0, false, false, none, 0, 0⟩ })

theorem witness_ContextEvents : coresOn sMiss = true ∧ sound 0x50001 2 sMiss = true ∧ sound 0x50000 2 sMissV = true ∧ (ctxAt 0 sMiss).miss.map Miss.queued = some []
    ∧ (ctxAt 0 sMissV).miss.map Miss.vec = some true ∧ (ctxAt 0 sCrcSt).stall = some (.crcBusy 3)
    ∧ (∀ j < 128, crcPlace 3 j sCrcSt = none) ∧ (ctxAt 0 sMiss).sbuf = []
    ∧ ((ctxAt 0 sMiss).miss.map Miss.lanes) = some [(0, 0x3001, 0x50001)] ∧ ((ctxAt 0 sMiss).miss.map Miss.vec) = some false
    ∧ (ctxAt 0 sTlds).stall = some .tldFull ∧ stallCleared 0 .tldFull sTlds = true
    ∧ ((ctxAt 0 sWt).wait.map Wait.deadline) = some (some 100) ∧ nowNs sWt < 2 ^ 63
    ∧ ((ctxAt 0 sTrap).fault.map CtxFault.cause) = some 9 ∧ (descAt 4095 sTrap).ctx = some 0
    ∧ (ctxAt 0 sTrap).desc < 4096 ∧ (ctxAt 0 sWt).st = .waiting := by decide +kernel

theorem test_context_events : ok (.loadMissReturn c0 .clean) sMiss (fun t => (ctxAt 0 t).getG 3 == 0xFFFFFFFFFFFFFF80
      && (ctxAt 0 t).st == .ready && (ctxAt 0 t).pc == tlmBase + 4) = true
    ∧ ok (.loadMissReturn c0 .clean) sMissV (fun t => lane 16 ((ctxAt 0 t).getV 3) 0 == 0x8001
      && lane 16 ((ctxAt 0 t).getV 3) 31 == 0xFF80 && (ctxAt 0 t).st == .ready) = true
    ∧ ok (.contextStallClear c0) sCrcSt (fun t => (ctxAt 0 t).st == .ready) = true
    ∧ ok (.contextStallClear c0) sTlds (fun t => (ctxAt 0 t).st == .ready && (ctxAt 0 t).pc == tlmBase) = true
    ∧ ok (.waitDeadline c0) sWt (fun t => (ctxAt 0 t).st == .ready && nsUnits 100 ≤ t.cnt) = true
    ∧ ok (.debuggerResume 0 4095) sTrap (fun t => (ctxAt 0 t).st == .ready && (ctxAt 0 t).pc == tlmBase + 4) = true
    ∧ ends 2 1 sWt (.mcheck c0 3 false) = true := by decide +kernel

/-- A pre-emption request with this many save slots; slot 0 lies at 0x20000. -/
def sPre (slots : Nat) : State := put [(Sched.SAVE_POOL_CFG 0, slots), (Sched.SAVE_POOL_BASE 0, 0x20000)]
  (setDesc 0 { st := .running, ctx := some 0 } (cue fun x => { x with preempt := some .wg0, tlmLimit := 64 }))
def sDr : State := put [(Slc.SLC_CTRL 0, 0)] (setCtx 0 { ctxAt 0 (sPre 1) with preempt := none, slotWait := true } (sPre 1))
def sSav : State := setCtx 0 { ctxAt 0 (sPre 1) with st := .saving, preempt := none, save := some .resume } (setDesc 0
  { st := .running, ctx := some 0, slot := some 0 } (sPre 1))
/-- A slot with the values 7 in v1, 8 in g31, 9 in p7 and the pc 0x1234. -/
def sLoad : State := mem 0x20918 (p8 0x1234) (mem 0x20910 (p4 9) (mem 0x208F0 (p8 8) (mem 0x20040 [7]
  (setCtx 0 { st := .loading, tlmLimit := 64 } (setDesc 0 { st := .running, ctx := some 0, slot := some 0 } (sPre 1))))))

/-- An atomic outstanding; a restore of a task that waits and has a tile request out. -/
def sPreA : State := setCtx 0 { ctxAt 0 (sPre 1) with atomic := some ⟨0, 0, false, 0, 0, 0, 0, 0⟩ } (sPre 1)
def sLoadW : State := updDesc 0 (fun e => { e with savedWait := some ⟨true, 4, none, 3⟩, savedTlds := [⟨9, 1, 0, 0, 0⟩] }) sLoad
def sNoDr : State := setCtx 0 { ctxAt 0 (sPre 1) with preempt := none, slotWait := true } (put [(Slc.SLC_CTRL 0, 1), (Sched.CORE_CTRL 0 0, 1)] (sPre 1))

theorem witness_SavesAndRestores_more : coresOn sPreA = true ∧ isHeld (ctxAt 0 sPreA).st = true
    ∧ (ctxAt 0 sPreA).preempt = some .wg0 ∧ (ctxAt 0 sPreA).atomic.isSome = true ∧ 0 < freeSlots 0 sPreA
    ∧ taskRestarts 0 sPreA = false ∧ (ctxAt 0 sNoDr).slotWait = true ∧ mustDrain 0 sNoDr = false
    ∧ waitOver (descAt 0 sLoadW).savedWait sLoadW = false ∧ sound 0x20000 0x960 sLoadW = true := by decide +kernel
theorem test_save_more : ok (.preemptionRequest c0) sPreA (fun t => (ctxAt 0 t).st == .ready
      && (ctxAt 0 t).save == some .resume && (descAt 0 t).slot == none) = true
    ∧ ok (.drainSaveResume c0) sNoDr (fun t => !(ctxAt 0 t).slotWait && (ctxAt 0 t).st == .ready) = true
    ∧ ok (.restoreComplete c0 .clean) sLoadW (fun t => (ctxAt 0 t).st == .waiting
      && (ctxAt 0 t).wait == some ⟨true, 4, none, 3⟩ && (ctxAt 0 t).tlds == [⟨0, 1, 0, 0, 0⟩]) = true := by decide +kernel

theorem witness_SavesAndRestores : coresOn (sPre 1) = true ∧ (ctxAt 0 (sPre 1)).st = .ready ∧ (ctxAt 0 (sPre 1)).atomic = none
    ∧ taskRestarts 0 (sPre 1) = false ∧ (ctxAt 0 (sPre 1)).preempt = some .wg0 ∧ 0 < freeSlots 0 (sPre 1)
    ∧ freeSlots 0 (sPre 0) = 0 ∧ taskRestarts 0 (sPre 0) = false ∧ (ctxAt 0 sDr).slotWait = true ∧ mustDrain 0 sDr = true
    ∧ 0 < freeSlots 0 sDr ∧ (ctxAt 0 sDr).st = .ready ∧ (ctxAt 0 sSav).save = some .resume
    ∧ (ctxAt 0 sSav).killed = false ∧ (ctxAt 0 sSav).sbuf = [] ∧ (descAt 0 sSav).slot = some 0
    ∧ sound (slotAddr 0 0 sSav) 4160 sSav = true ∧ (ctxAt 0 sLoad).st = .loading ∧ (descAt 0 sLoad).slot = some 0
    ∧ (descAt 0 sLoad).savedWait = none ∧ (descAt 0 sLoad).savedTlds = [] ∧ sound 0x20000 0x960 sLoad = true
    ∧ sound 0x21000 64 sLoad = true := by decide +kernel

theorem test_preempt : ok (.preemptionRequest c0) (sPre 1) (fun t => (ctxAt 0 t).st == .saving
      && (ctxAt 0 t).save == some .resume && (descAt 0 t).slot == some 0) = true
    ∧ ok (.preemptionRequest c0) (sPre 0) (fun t => (ctxAt 0 t).slotWait && fld (Sched.SAVE_STATUS 0) 31 16 t == 1) = true
    ∧ ok (.drainSaveResume c0) sDr (fun t => (ctxAt 0 t).st == .saving) = true := by decide +kernel

theorem test_restore : ok (.restoreComplete c0 .clean) sLoad (fun t => let x := ctxAt 0 t
      x.getV 1 == 7 && x.getG 31 == 8 && x.getP 7 == 9 && x.pc == 0x1234 && x.resumed) = true := by decide +kernel

/-- A held slice with image 1 of one entry, allowed group 0, and a host submission. -/
def uH (ctrl : Nat) : Sub := ⟨.host, ctrl, 1, 0, [4, 5, 6, 7], 9, 0, false⟩
def sCyc (ctrl : Nat) : State := setSched 2 { subs := [uH ctrl] } (put [(Slc.SLC_CTRL 2, 0), (Sched.IMG_CFG 2 1, 0x80010000),
  (Sched.IMG_GROUPS 2 1, 1)] up)

theorem witness_CycleTakesArrivals : coresOn (sCyc 0) = true ∧ sliceRun 2 (sCyc 0) = false
    ∧ (schedAt 2 (sCyc 0)).endings = [] ∧ (schedAt 2 (sCyc 0)).requeues = [] ∧ (schedAt 2 (sCyc 0)).expired = []
    ∧ (schedAt 2 (sCyc 0)).cancels = [] ∧ (schedAt 2 (sCyc 0)).kill = none ∧ (schedAt 2 (sCyc 0)).subs = [uH 0]
    ∧ (uH 0).flowValid = false ∧ (∀ e < 32, fld (Sched.ETS_STATUS 2 e) 7 0 (sCyc 0) = 0)
    ∧ (∀ j < 32, ctxAt (64 + j) (sCyc 0) = {}) ∧ subCheck 2 (uH 0) (sCyc 0) = none
    ∧ isLater (subDue 2 (uH 0) (sCyc 0)) (sCyc 0) = false
    ∧ subCheck 2 (uH 1) (sCyc 1) = some stBadEntry ∧ subCheck 2 (uH 0x100) (sCyc 0x100) = some stBadGroup := by
  decide +kernel

/-- The same slice running, the task READY in group 0, its core 0 to 7 enabled. -/
def sDis : State := setSched 2 { queue := [(0, [8195])] } (setDesc 8195 { st := .ready, image := 1, args := [4, 5, 6, 7] }
  (mem 0x30000 (p8 0x4000 ++ p4 128) (put ((Slc.SLC_CTRL 2, 1) :: (Sched.IMG_ENTRY_BASE 2 1, 0x30000) ::
    (List.range 8).map fun c => (Sched.CORE_CTRL 2 c, 1)) (sCyc 0))))

theorem witness_CycleDispatches : coresOn sDis = true ∧ sliceRun 2 sDis = true ∧ (schedAt 2 sDis).endings = []
    ∧ (schedAt 2 sDis).requeues = [] ∧ (schedAt 2 sDis).expired = [] ∧ (schedAt 2 sDis).cancels = []
    ∧ (schedAt 2 sDis).kill = none ∧ (schedAt 2 sDis).subs = [] ∧ (∀ e < 32, fld (Sched.ETS_STATUS 2 e) 7 0 sDis = 0)
    ∧ (∀ j < 32, ctxAt (64 + j) sDis = {}) ∧ (∀ i < 8, coreEnabled (16 + i) sDis = true) ∧ descSlice 8195 = 2
    ∧ (descAt 8195 sDis).wg = 0 ∧ (descAt 8195 sDis).slot = none ∧ queueOf 2 0 sDis = [8195]
    ∧ bit (Sched.WG_CFG 2 0) 8 sDis = true := by decide +kernel

/-- Flow 63 of slice 0, whose head has ended; a delayed task; a task of another flow. -/
def sRel : State := setDesc 7 { st := .releasing, gen := 4, flow := 63, flowValid := true, seq := 0xFFFFFFFF }
  (put [(Sched.FLOW_RELEASE_NEXT 0 63, 0xFFFFFFFF), (Sched.FLOW_CFG 0 63, 1)] up)
def sDel : State := setSched 0 { delay := [(100, 5)] } (setDesc 5 { st := .delayed, due := 100, wg := 7 } (put [(Sched.TICK_CFG 0, 10)] up))
def sFlow (n : Nat) : State := put [(Sched.FLOW_RELEASE_NEXT 0 3, 5), (Sched.FLOW_NEXT_SEQ 0 3, n)] up

theorem witness_SchedulerCommands : coresOn sRel = true ∧ flowHead 0 63 sRel = some 7 ∧ descSlice 7 = 0
    ∧ (descAt 7 sRel).st = .releasing ∧ flowDraining 0 63 sRel = false ∧ (descAt 7 sRel).notify = false
    ∧ (schedAt 0 sRel).skips = [] ∧ flowTask 0 63 0 (freeDescriptor 7 sRel) = none ∧ (schedAt 0 sDel).delay = [(100, 5)]
    ∧ (schedAt 0 sDel).expired = [] ∧ bit (Sched.TICK_CFG 0) 16 sDel = false ∧ hostAsleep .host up = false ∧ slicesOn up = true
    ∧ rd (Sched.FLOW_RELEASE_NEXT 0 3) (sFlow 5) = rd (Sched.FLOW_NEXT_SEQ 0 3) (sFlow 5)
    ∧ rd (Sched.FLOW_RELEASE_NEXT 0 3) (sFlow 6) ≠ rd (Sched.FLOW_NEXT_SEQ 0 3) (sFlow 6)
    ∧ coreEnabled 7 up = false := by decide +kernel

theorem test_scheduler : ok (.releaseDrainDone 0 63) sRel (fun t => descAt 7 t == { gen := 5 }
      && releaseNext 0 63 t == 0) = true
    ∧ ok (.tickGridPoint 0) sDel (fun t => 100 ≤ nowNs t && (schedAt 0 t).expired == [5] && (schedAt 0 t).delay == []) = true
    ∧ ok (.eventLineEdge 3 63) up (fun t => rd (Sched.EV_SEEN 3) t == 2 ^ 63) = true
    ∧ ok (.eventLineEdge 3 47) up (fun t => rd (Sched.EV_SEEN 3) t == 0) = true
    ∧ ok (.submit 0 .host) up (fun t => rd (Sched.SUBMIT_RESULT 0) t == 2 ^ 63 && (schedAt 0 t).subs.length == 1) = true
    ∧ ok (.killHandle 0 .host 0x5001) up (fun t => (schedAt 0 t).kill == some 0x5001) = true
    ∧ ok (.flowReset 0 3 .host) (sFlow 5) (fun t => rd (Sched.FLOW_NEXT_SEQ 0 3) t == 0) = true
    ∧ ok (.flowReset 0 3 .host) (sFlow 6) (fun t => rd (Sched.SCHED_ERR 0) t == 4 && rd (Sched.FLOW_NEXT_SEQ 0 3) t == 6) = true
    ∧ ok (.coreCtrlWrite 0 7 .host true false) up (fun t => coreEnabled 7 t
      && t.rcd.staged.map StagedRec.payload == [[7, 0]]) = true := by decide +kernel


/-- An ended task's descriptor; a cancel of a stale handle, of a READY task, of a running one; a kill. -/
def sEnded : State := setSched 2 { endings := [8195] } (setDesc 8195 { st := .running, gen := 6 } (put [(Slc.SLC_CTRL 2, 0)] up))
def sCan (h : Nat) (st : DescState) : State := setSched 2 { cancels := [(64, 3, h)] } (setDesc 8195 { st := st, gen := 6, ctx := some 65 }
  (setCtx 64 { st := .stalled, stall := some .submit } (put [(Slc.SLC_CTRL 2, 0)] up)))
def sKil (h : Nat) : State := setSched 2 { kill := some h } (setCtx 65 { st := .ready, desc := 3 } (sCan 0 .running))

theorem witness_CycleTakesArrivals_more : (schedAt 2 sEnded).endings = [8195] ∧ descSlice 8195 = 2
    ∧ sliceRun 2 sEnded = false ∧ (descAt 8195 sEnded).notify = false ∧ sEnded.red.toMake = []
    ∧ byHandle 2 3 (sCan 3 .running) = none ∧ byHandle 2 (3 + 4096 * 6) (sCan 0 .running) = some 8195
    ∧ cancellable 8195 (sCan 0 .ready) = true ∧ cancellable 8195 (sCan 0 .running) = false
    ∧ hasEnded 8195 (sCan 0 .running) = false ∧ ctxSlice 64 = 2 ∧ (ctxAt 64 (sCan 0 .running)).st = .stalled
    ∧ byHandle 2 (3 + 4096 * 6) (sKil 0) = some 8195 ∧ (descAt 8195 (sKil 0)).ctx = some 65
    ∧ (ctxAt 65 (sKil 0)).desc = descIdx 8195 ∧ (ctxAt 65 (sKil 0)).st ≠ .saving ∧ (ctxAt 65 (sKil 0)).atomic = none
    ∧ sliceRun 2 (sKil 0) = false := by decide +kernel

theorem test_cycle : ok (.schedulerCycle 2) sEnded (fun t => descAt 8195 t == { gen := 7 }) = true
    ∧ ok (.schedulerCycle 2) (sCan (3 + 4096 * 6) .ready) (fun t => (ctxAt 64 t).getG 3 == 0 && (ctxAt 64 t).st == .ready) = true
    ∧ ok (.schedulerCycle 2) (sCan 3 .running) (fun t => (ctxAt 64 t).getG 3 == 2) = true
    ∧ ok (.schedulerCycle 2) (sKil (3 + 4096 * 6)) (fun t => (ctxAt 65 t).st == .free && (descAt 8195 t).endStatus == 4) = true := by
  decide +kernel
/-! ### Layers, translation, fault queues, DMA -/

def rT : TldReq := ⟨33, 2, 128, 4, 5⟩
/-- Fetcher 15 of slice 1: a request waits, or one of a disabled layer is taken, or tiles are read
ahead. -/
def sQf (f : Fetcher) : State := { put [(Layer.LY_ACT_BASE 1 15, 0x4000), (Layer.LY_ACT_FMT 1 15, 5)] up with
  fetchers := [(31, f)], ctxs := [(33, { st := .ready, tlds := [rT] })] }
def takenF : Taken := ⟨rT, 0, 0, 0, 0, 0, false, false⟩
def sRet : State := setSlice 2 { cpTimes := [(7, 4000)] } up

theorem witness_LayerFetch : shed up = false ∧ (fetcherAt 31 (sQf { queue := [rT], taken := [takenF, takenF, takenF] })).taken.length < 4
    ∧ (fetcherAt 31 (sQf { taken := [takenF] })).taken = [takenF] ∧ takenF.withdrawn = false ∧ takenF.ctrl.testBit 0 = false
    ∧ (fetcherAt 31 (sQf { queue := [rT], nextAhead := some (1, 1) })).queue ≠ []
    ∧ bpFetch 1 (put [(Sched.BP_CFG 1, 0x1FFF)] (sQf { nextAhead := some (1, 1) })) = true
    ∧ (fetcherAt 31 (sQf { nextAhead := some (1, 1) })).queue = [] ∧ (sliceAt 2 sRet).cpTimes = [(7, 4000)]
    ∧ (∀ j < 16, (fetcherAt (32 + j) sRet).taken = []) ∧ rd (Mc.FRAME_RETIRED 2) sRet ≠ 7 - 1 ∧ 0 < 7 ∧ 7 < 2 ^ 64 := by decide +kernel

theorem test_fetch : ok (.fetchRequestTaken 1 15) (sQf { queue := [rT] }) (fun t =>
      (fetcherAt 31 t).taken.map Taken.base == [0x4000] && (fetcherAt 31 t).queue == []) = true
    ∧ ok (.readahead 1 15) (sQf { queue := [rT], nextAhead := some (1, 1) }) (fun t =>
      fetcherAt 31 t == { queue := [rT] }) = true
    ∧ ok (.readahead 1 15) (put [(Sched.BP_CFG 1, 0x1FFF)] (sQf { nextAhead := some (1, 1) })) (fun t =>
      fetcherAt 31 t == {} && rd (Layer.READAHEAD_STOPS 1) t == 1) = true
    ∧ ok (.frameRetired 2) sRet (fun t => rd (Mc.FRAME_RETIRED 2) t == 6) = true := by decide +kernel

/-- The walk of page 3 of the tables of `mapped`, and of an address whose first entry is 0. -/
def sWk : State := mem 0x13018 (p8 0x50055) (mapped up)

theorem witness_WalkTranslates : isDram 0x1000 8 = true ∧ poisoned 0x1000 8 sWk = false ∧ memNat 0x1000 8 sWk = 0x10001
    ∧ rd (Mmu.ASID_TABLE_BASE 0) sWk / 4096 % 2 ^ 28 * 4096 = 0x1000 ∧ memNat 0x10000 8 sWk = 0x11003
    ∧ memNat 0x11000 8 sWk = 0x12003 ∧ memNat 0x12000 8 sWk = 0x13003 ∧ memNat 0x13018 8 sWk = 0x50055
    ∧ (0x11003 : Nat) % 4096 = 3 ∧ 0x50055 % 4096 = 1 + 4 * b2n true + 16 * b2n true + 64 * b2n true
    ∧ memNat (0x10000 + 0xFFFFFFFFFFFF / 2 ^ 39 % 512 * 8) 8 sWk = 0 ∧ memNat (0x13000 + 8 * 4) 8 sWk % 2 = 0 := by
  decide +kernel

theorem test_walk : (match walk 0 0 0x3ABC sWk with
      | .leaf e own => own == 0x50ABC && e.pa == 0x50000 && e.size == 4096 && e.glob && e.r && !e.w && e.x
      | _ => false) = true
    ∧ (match walk 0 0 0xFFFFFFFFFFFF sWk with | .fault k => k == kNotMapped | _ => false) = true
    ∧ (match walk 0 0 0x4000 sWk with | .fault k => k == kNotMapped | _ => false) = true
    ∧ (match walk 0 1 0x3000 sWk with | .fault k => k == kNotMapped | _ => false) = true := by decide +kernel

def eT (asid va : Nat) (g : Bool) : TlbEntry := ⟨asid, g, va, 0x1000, 0x50000, true, true, false⟩
/-- A span of 256 pages of ASID 7 is being dropped from the IOMMU; a core holds an entry too. -/
def sTl : State := { put [(Mmu.TLBI_CTRL 4, 2 + 4 + 16 * 8 + 65536 * 7), (Mmu.TLBI_VA 4, 0x100000)] up with
  tlb := [(0, [eT 7 0x100000 false]), (32, [eT 7 0x1FF000 false, eT 7 0x200000 false, eT 7 0x100000 true, eT 6 0x100000 false])] }

theorem witness_InvalidationsAndScrubs : bit (Mmu.TLBI_CTRL 0) 2 up = false ∧ rd (Mmu.TLBI_VA 0) up % (2 ^ 18 * 4096) = 0
    ∧ (18 : Fin 32).val ≤ 18 ∧ bit (Mmu.TLBI_CTRL 4) 2 sTl = true ∧ bit (Mc.MC_SCRUB_CFG 3) 0 up = true
    ∧ kget 0 3 up.scrubAt < scrubLines ∧ linePoisoned (3 * 0x200000000 / 64) up = false
    ∧ kget 0 3 { up with scrubAt := [(3, 134217727)] }.scrubAt + 1 = scrubLines := by decide +kernel

theorem test_invalidate : ok (.tlbiSpan 0 .renro 18 9) up (fun t => rd (Mmu.TLBI_CTRL 0) t == 3 + 4 + 16 * 18 + 65536 * 9) = true
    ∧ ok (.tlbiAll 0 .host 0 0) up (fun t => t.regs == up.regs) = true
    ∧ ok (.tlbiComplete 4) sTl (fun t => tlbAt 32 t == [eT 7 0x200000 false, eT 7 0x100000 true, eT 6 0x100000 false]
      && tlbAt 0 t == [eT 7 0x100000 false] && !bit (Mmu.TLBI_CTRL 4) 2 t) = true
    ∧ ok (.scrubLineRead 3 .uncorrectable) up (fun t => rd (Mc.MC_UE_COUNT 3) t == 1
      && linePoisoned (3 * 0x200000000 / 64) t && kget 0 3 t.scrubAt == 1) = true
    ∧ ok (.scrubLineRead 3 .clean) { up with scrubAt := [(3, 134217727)] } (fun t => rd (Mc.MC_SCRUB_PASSES 3) t == 1
      && kget 0 3 t.scrubAt == 0) = true := by decide +kernel

def fR : FaultRec := ⟨0x3000, 0, 0, 0, false, false, true, 7, 0, 0, 0, 0⟩
/-- A held record; and a context that waits for the answer of token 65535. -/
def sHeld : State := setFq 2 { nextToken := 65535, held := [(fR, .chan 3)] } up
def sAns : State := setFq 0 { open_ := [⟨65535, .ctx 0 0, 40, 7, 0x3000⟩], recs := [fR] } (setDesc 0 { st := .running, ctx := some 0 }
  (cue fun x => { x with st := .faulted, fault := some ⟨7, 0, 0x3000, 0, false, false, some 65535, 0, 0⟩ }))

theorem witness_FaultsAreAnswered : (fqAt 2 sHeld).held = [(fR, .chan 3)] ∧ (fqAt 2 sHeld).recs.length < 256
    ∧ openFault 0 65535 sAns = some (.ctx 0 0) ∧ (descAt 0 sAns).gen = 0 ∧ (descAt 0 sAns).ctx = some 0
    ∧ (ctxAt 0 sAns).st = .faulted ∧ ((ctxAt 0 sAns).fault.bind CtxFault.token) = some 65535
    ∧ descOf (ctxSlice 0) (ctxAt 0 sAns).desc = 0 ∧ (fqAt 0 sAns).open_.head?.map OpenFault.token = some 65535 := by decide +kernel

theorem test_faults : ok (.faultRecordPost 2) sHeld (fun t => (fqAt 2 t).recs == [{ fR with token := 65535 }]
      && (fqAt 2 t).nextToken == 0 && (fqAt 2 t).held == []) = true
    ∧ ok (.fqPop 0 .renro) sAns (fun t => (fqAt 0 t).recs == []) = true
    ∧ ok (.faultRespResume 0 .renro 65535) sAns (fun t => (ctxAt 0 t).st == .ready && (ctxAt 0 t).fault == none
      && openFault 0 65535 t == none) = true
    ∧ ends 2 7 sAns (.faultRespTerminate 0 .renro 65535) = true ∧ ends 2 7 sAns (.faultTimeout 0) = true := by decide +kernel

/-- Channel k: its ring at 0x40000 with one descriptor, its producer word at 0x41000, in BYPASS. -/
def dD (op n : Nat) : List Byte := p4 op ++ p4 1 ++ p8 0x42000 ++ p8 0x43FFE ++ p4 n ++ p4 0 ++ p4 n ++ p4 n ++ p8 0x0807060504030201 ++ p8 0 ++ p8 0
def sCh (k : Nat) (st : Nat) (op prod : Nat) : State := mem 0x42000 [9, 8, 7, 6] (mem 0x41000 (p4 prod) (mem 0x40000 (dD op 4)
  (put [(Dma.CH_CTRL k, 1), (Dma.CH_STATUS k, st), (Dma.RING_BASE k, 0x40000), (Dma.PROD_ADDR k, 0x41000), (Dma.RING_CFG k, 1),
    (Iommu.STE k, 0x30000)] up)))
def sRun (k op : Nat) : State := setChan k { prod := 1, desc := some (parseDesc (dD op 4)) } (sCh k 1 op 1)

theorem witness_DmaTransfers : hostAsleep .host up = false ∧ slicesOn up = true ∧ chEnabled 63 (sCh 63 0 2 1) = true
    ∧ chState 63 (sCh 63 0 2 1) = chIdle ∧ Bypass 63 (sCh 63 0 2 1) ∧ isDram 0x41000 1 = true
    ∧ poisoned 0x41000 4 (sCh 63 0 2 1) = false ∧ rd (Dma.RING_HEAD 63) (sCh 63 0 2 0) = memNat 0x41000 4 (sCh 63 0 2 0) % ringSize 63 (sCh 63 0 2 0)
    ∧ rd (Dma.RING_HEAD 63) (sCh 63 0 2 1) ≠ memNat 0x41000 4 (sCh 63 0 2 1) % ringSize 63 (sCh 63 0 2 1)
    ∧ poisoned 0x40000 64 (sCh 63 0 2 1) = false ∧ (parseDesc (memBytes 0x40000 64 (sCh 63 0 2 1))).good false = true
    ∧ (chanAt 63 (setChan 63 { edge := true } (sCh 63 0 2 1))).edge = true
    ∧ shed (sRun 63 2) = false ∧ frozen (sRun 63 2) = false ∧ nextBurst 3 (sRun 63 2) = some 63
    ∧ (parseDesc (dD 2 4)).op = 2 ∧ (parseDesc (dD 0 4)).op = 0 ∧ Bypass 63 (sRun 63 2) ∧ nextBurst 3 (sRun 63 0) = some 63 := by
  unfold Bypass; decide +kernel

theorem test_doorbell : ok (.doorbell 63 .host) (sCh 63 0 2 0) (fun t => chState 63 t == 0) = true
    ∧ ok (.doorbell 63 .host) (sCh 63 0 2 1) (fun t => chState 63 t == 1 && (chanAt 63 t).desc == some (parseDesc (dD 2 4))
      && (chanAt 63 t).prod == 1) = true
    ∧ ok (.dmaTrigger 63) (setChan 63 { edge := true } (sCh 63 0 2 1)) (fun t => chState 63 t == 1
      && !(chanAt 63 t).edge) = true := by decide +kernel

/-- R195: a burst ends at a page of its destination: two bytes. -/
theorem test_burst : ok (.dmaBurst 3 .clean) (sRun 63 2) (fun t => memBytes 0x43FFD 4 t == [0, 1, 2, 0]
      && rd (Dma.BYTES_DONE 63) t == 2) = true
    ∧ ok (.dmaBurst 3 .clean) (sRun 63 0) (fun t => memBytes 0x43FFD 4 t == [0, 9, 8, 0]) = true := by decide +kernel

def sEnd (st : Nat) : State := put [(Dma.BYTES_DONE 63, 4), (Dma.CH_STATUS 63, st)] (sRun 63 0)
def sHostCh : State := setChan 71 { prod := 1, desc := some (parseDesc (dD 3 4)) } (put [(Dma.CH_STATUS 71, 1), (Dma.CH_CTRL 71, 1)] up)

theorem witness_ChannelStates : hostAsleep .host up = false ∧ slicesOn up = true
    ∧ (chanAt 63 (sEnd 1)).desc = some (parseDesc (dD 0 4)) ∧ chState 63 (sEnd 1) = chRunning
    ∧ (parseDesc (dD 0 4)).total ≤ rd (Dma.BYTES_DONE 63) (sEnd 1) ∧ (chanAt 63 (sEnd 1)).wantProd = false
    ∧ (parseDesc (dD 0 4)).ctrl = 0 ∧ Bypass 63 (sEnd 1) ∧ (ringHead 63 (sEnd 1) + 1) % ringSize 63 (sEnd 1) = (chanAt 63 (sEnd 1)).prod
    ∧ memNat 0x41000 4 (sEnd 1) % ringSize 63 (sEnd 1) = (chanAt 63 (sEnd 1)).prod ∧ poisoned 0x41000 4 (sEnd 1) = false
    ∧ chState 63 (sEnd 0) = chIdle ∧ bit (Dma.CH_CTRL 63) 1 (put [(Dma.CH_CTRL 63, 3)] (sEnd 1)) = true
    ∧ chState 63 (sEnd 3) = chStopped ∧ chState 63 (sEnd 4) = chError ∧ chState 71 sHostCh = chRunning
    ∧ (parseDesc (dD 3 4)).op = 3 := by
  unfold Bypass; decide +kernel

theorem test_channel : ok (.dmaDescComplete 63) (sEnd 1) (fun t => ringHead 63 t == 1 && chState 63 t == 0
      && rd (Dma.DESC_COUNT 63) t == 1) = true
    ∧ ok (.dmaStop 63 .host) (sEnd 0) (fun t => chState 63 t == 3) = true
    ∧ ok (.dmaStop 63 .host) (sEnd 1) (fun t => chState 63 t == 1 && bit (Dma.CH_CTRL 63) 1 t) = true
    ∧ ok (.dmaStopComplete 63) (put [(Dma.CH_CTRL 63, 3)] (sEnd 1)) (fun t => chState 63 t == 3
      && !bit (Dma.CH_CTRL 63) 1 t) = true
    ∧ [3, 4].all (fun st => ok (.dmaEnableWrite 63 .host false) (sEnd st) fun t => chState 63 t == 0
      && (chanAt 63 t).desc == none && !chEnabled 63 t) = true := by decide +kernel

theorem test_host_timeout : ok (.hostCompletionTimeout 7) sHostCh (fun t => chState 71 t == chError
      && fld (Dma.CH_STATUS 71) 15 8 t == 3) = true := by decide +kernel


/-! #### The other clauses of these statements -/

theorem witness_LayerFetch_more : 4 ≤ (fetcherAt 31 (sQf { queue := [rT], taken := List.replicate 4 takenF })).taken.length
    ∧ (fetcherAt 31 (sQf { taken := [{ takenF with withdrawn := true }] })).taken = [{ takenF with withdrawn := true }]
    ∧ (fetcherAt 31 (sQf { taken := [{ takenF with ctrl := 1, bad := true }] })).taken = [{ takenF with ctrl := 1, bad := true }]
    ∧ (fetcherAt 31 (sQf { taken := [takenF] })).ahead = [] := by decide +kernel

/-- R209, R210: a withdrawn tile is dropped; a disabled one gives zeros. -/
theorem test_tiles : ok (.tileDelivery 1 15 .clean) (sQf { taken := [{ takenF with withdrawn := true }] }) (fun t =>
      rd (Layer.LY_TILES 1 15) t == 0 && (ctxAt 33 t).tlds == [rT]) = true
    ∧ ok (.tileDelivery 1 15 .clean) (sQf { taken := [takenF] }) (fun t =>
      rd (Layer.LY_TILES 1 15) t == 1 && (ctxAt 33 t).tlds == []) = true := by decide +kernel

/-- The invalidation of sTl, with a store of a context of core 0 that was translated before. -/
def sTlW : State := { put [(Mmu.TLBI_CTRL 0, 4)] sTl with
  ctxs := [(0, { st := .ready, sbuf := [⟨0x50008, [1], 0⟩] })], host := { sTl.host with tlbiDue := [(4, 9)] } }

theorem witness_Invalidations_more : bit (Mmu.TLBI_CTRL 0) 2 sTlW = true ∧ tlbiWaits 0 sTlW = true
    ∧ tlbiWaits 4 sTlW = false ∧ (sTlW.host.tlbiDue.any fun p => p.1 == 4) = true
    ∧ ¬ ((19 : Fin 32).val ≤ 18) ∧ bit (Mc.MC_SCRUB_CFG 3) 0 (put [(Mc.MC_SCRUB_CFG 3, 0)] up) = false
    ∧ sound (3 * 0x200000000) 64 up = true := by decide +kernel

theorem test_invalidate_waits : ok (.tlbiComplete 0) sTlW (fun t => bit (Mmu.TLBI_CTRL 0) 2 t && t.tlb == sTlW.tlb) = true
    ∧ ok (.tlbiComplete 4) sTlW (fun t => rd (Mmu.TLBI_CTRL 4) t == 1 + 4 + 65536 * 9 && t.host.tlbiDue == []) = true
    ∧ ok (.tlbiAll 0 .renro 19 0) up (fun t => rd (Mmu.MMU_ERR 0) t == 4 && rd (Mmu.TLBI_CTRL 0) t == 0) = true
    ∧ ok (.scrubLineRead 3 .uncorrectable) (put [(Mc.MC_SCRUB_CFG 3, 0)] up) (fun t => t.poison == [] && t.scrubAt == []) = true := by
  decide +kernel

/-- A full queue; and token 9 of channel 63, FAULTED, which is to stop or not. -/
def sFull : State := setFq 2 { recs := List.replicate 256 fR, held := [(fR, .chan 3)] } up
def sChF (st : Nat) : State := setFq 1 { open_ := [⟨9, .chan 63, 40, 7, 0x3000⟩] }
  (setChan 63 { prod := 1, desc := some (parseDesc (dD 2 4)) } (sCh 63 st 2 1))

theorem witness_FaultsAreAnswered_more : 256 ≤ (fqAt 2 sFull).recs.length ∧ (fqAt 2 sFull).held = [(fR, .chan 3)]
    ∧ openFault 0 9 sAns = none ∧ openFault 1 9 (sChF 2) = some (.chan 63) ∧ chState 63 (sChF 2) = chFaulted
    ∧ bit (Dma.CH_STATUS 63) 3 (sChF 10) = true ∧ chState 63 (sChF 10) = chFaulted
    ∧ bit (Dma.CH_STATUS 63) 3 (sChF 2) = false ∧ (chanAt 63 (sChF 2)).wantProd = false
    ∧ (chanAt 63 (sChF 2)).desc.isSome ∧ beingKilled 0 sAns = false := by decide +kernel

theorem test_channel_answers : ok (.faultRecordPost 2) sFull (fun t => (fqAt 2 t).held == [(fR, .chan 3)]) = true
    ∧ ok (.faultRespResume 1 .renro 9) (sChF 2) (fun t => chState 63 t == chRunning) = true
    ∧ ok (.faultRespResume 1 .renro 9) (sChF 10) (fun t => chState 63 t == chStopped) = true
    ∧ ok (.faultRespTerminate 1 .renro 9) (sChF 2) (fun t => chState 63 t == chError) = true
    ∧ ok (.faultRespResume 0 .renro 9) sAns (fun t => rd (Mmu.MMU_ERR 0) t == 2) = true := by decide +kernel

/-- A doorbell with a descriptor in progress; with one that keeps not R191 (operation 7); none. -/
def sHostW (op : Nat) : State := setChan 71 { prod := 1, desc := some (parseDesc (dD op 4)) } (mem 0x42000 [9, 8, 7, 6]
  { put [(Dma.CH_STATUS 71, 1), (Dma.CH_CTRL 71, 1), (Iommu.STE 71, 0x30000)] up with hostMem := [(0x42001, 5)] })

theorem witness_DmaTransfers_more : chState 63 (sRun 63 2) = chRunning ∧ (chanAt 63 (sRun 63 2)).desc = some (parseDesc (dD 2 4))
    ∧ (parseDesc (memBytes 0x40000 64 (sCh 63 0 7 1))).good false = false ∧ sound 0x40000 64 (sCh 63 0 7 1) = true
    ∧ sound 0x41000 4 (sCh 63 0 7 1) = true ∧ chEnabled 63 up = false ∧ chState 63 (sCh 63 2 2 1) = chFaulted
    ∧ chState 63 (sCh 63 4 2 1) = chError ∧ chState 63 (sCh 63 3 2 1) = chStopped
    ∧ bit (Dma.CH_CTRL 63) 1 (sCh 63 0 2 0) = false ∧ nextBurst 4 (sHostW 3) = some 71 ∧ nextBurst 4 (sHostW 4) = some 71
    ∧ (parseDesc (dD 4 4)).op = 4 ∧ rd (Dma.BYTES_DONE 71) (sHostW 3) + (burstOf (parseDesc (dD 3 4)) 0).n < 2 ^ 64
    ∧ Bypass 71 (sHostW 3) ∧ Bypass 71 (sHostW 4) ∧ sound 0x42000 4 (sHostW 4) = true ∧ sound 0x43FFE 2 (sHostW 3) = true
    ∧ frozen (sHostW 3) = false := by
  unfold Bypass; decide +kernel

theorem test_doorbell_more : ok (.doorbell 63 .host) (sCh 63 0 7 1) (fun t => chState 63 t == chError
      && fld (Dma.CH_STATUS 63) 15 8 t == 4) = true
    ∧ ok (.doorbell 63 .host) (sCh 63 4 2 1) (fun t => chState 63 t == chError && (chanAt 63 t).desc == none) = true := by
  decide +kernel

theorem test_host_bursts : ok (.dmaBurst 4 .clean) (sHostW 3) (fun t => memBytes 0x43FFE 2 t == [0, 5]) = true
    ∧ ok (.dmaBurst 4 .clean) (sHostW 4) (fun t => kget 0 0x43FFE t.hostMem == 9 && t.dram == (sHostW 4).dram) = true := by
  decide +kernel

/-- The last descriptor, with STATUS, interrupt and event asked for, of a channel that is to stop. -/
def dE : DmaDesc := { parseDesc (dD 0 4) with ctrl := 0x38 }
def sEndS : State := setChan 63 { prod := 1, desc := some dE } (put [(Dma.CH_CTRL 63, 3)] (sEnd 1))

theorem witness_ChannelStates_more : (chanAt 63 sEndS).desc = some dE ∧ chStopping 63 sEndS = true
    ∧ dE.ctrl.testBit 5 = true ∧ dE.ctrl.testBit 4 = true ∧ dE.ctrl.testBit 3 = true
    ∧ isDram 0x40038 1 = true ∧ sound 0x40038 8 sEndS = true ∧ descVa 63 (ringHead 63 sEndS) sEndS + 0x38 = 0x40038
    ∧ chStopping 63 (sEnd 1) = false ∧ chState 63 (sEnd 2) = chFaulted
    ∧ rd (Dma.BYTES_DONE 71) sHostCh < (parseDesc (dD 3 4)).total := by decide +kernel

theorem test_channel_more : ok (.dmaDescComplete 63) sEndS (fun t => chState 63 t == chStopped
      && fld (Dma.CH_STATUS 63) 15 8 t == 6 && memBytes 0x40038 8 t == p4 0 ++ p4 4 && bit (Dma.INT_STATUS 63) 0 t) = true
    ∧ ok (.dmaEnableWrite 63 .host false) (sEnd 2) (fun t => chState 63 t == chFaulted
      && bit (Dma.CH_STATUS 63) 3 t) = true := by decide +kernel
/-! ### Trunk ports and time -/

/-- Port 31 in this link state, its receive clock present. -/
def sTk (link : Nat) : State := put [(trkStatus 31, link + 8), (trkCtrl 31, 1)] up
/-- 63 sets TP1 and one TP2. -/
def goodTrain : List TrainSet := List.replicate 63 .tp1 ++ [.tp2]
def telB (n : Nat) : List Byte := 0x10 :: BitVec.ofNat 8 n :: List.replicate 58 0
def telOk (n : Nat) : List Byte := telB n ++ p4 (crc32c (telB n))
def telBad (n : Nat) : List Byte := telB n ++ [0, 0, 0, 0]
/-- A probe of node 0 on its way; node 0 has sent telemetry. -/
def sPr : State := setTrunk 31 { probe := some ⟨0, 1, 4000⟩, tel := [(0, { bytes := telOk 0 })] } (sTk 4)

/-- The probe with a latency of 492 known; a snapshot on its way to 0x44000. -/
def sPrV : State := setLat 31 0 (492 + 2 ^ 31) sPr
def sTcp : State := setTrunk 31 { copy := some (telOk 5) } (put [(Trunk.TEL_BASE 3 7, 0x44000), (Iommu.STE (0x80 + 31), 0x30000)] (sTk 2))

theorem witness_TrunkPorts : hostAsleep .host up = false ∧ slicesOn up = true ∧ shed up = false
    ∧ bit (trkCtrl 31) 0 up = false ∧ linkState 31 up = 0 ∧ linkState 31 (sTk 1) = 1
    ∧ ((trunkAt 31 (sTk 1)).hears goodTrain).trained = true ∧ ((trunkAt 31 (sTk 1)).hears (.bad :: goodTrain.drop 2)).trained = false
    ∧ (sTk 1).clk + tp2Time ≤ (trunkAt 31 (sTk 1)).trainAt + tenMs
    ∧ rxClock 31 up = false
    ∧ (trunkAt 31 (setTrunk 31 { retryAt := some 4000 } (sTk 0))).retryAt = some 4000 ∧ bit (trkCtrl 31) 0 (sTk 0) = true
    ∧ linkTrained 31 (sTk 2) = true ∧ rxClock 31 (sTk 2) = true ∧ (telOk 63).length = 64 ∧ (telBad 63).length = 64
    ∧ (telOk 63)[1]? = some 63 ∧ leNat ((telOk 63).drop 60) = crc32c ((telOk 63).take 60)
    ∧ leNat ((telBad 63).drop 60) ≠ crc32c ((telBad 63).take 60)
    ∧ nodeSeen 31 63 (put [(Trunk.NODE_SEEN 3 7, 2 ^ 63)] (sTk 2)) = true ∧ 2 * 1000 ≤ echoLimit
    ∧ latencyOf 31 0 1000 sPr = some 500 ∧ latValid (nodeLat 31 0 sPr) = false
    ∧ ((trunkAt 31 sPr).probe.map Probe.node) = some 0 ∧ (trunkAt 31 (sTk 2)).cmds.length < 16
    ∧ 16 ≤ (trunkAt 31 (setTrunk 31 { cmds := List.replicate 16 (1, []) } (sTk 2))).cmds.length
    ∧ (trunkAt 31 (sTk 2)).probe = none ∧ latValid (nodeLat 31 0 sPrV) = true ∧ latTicks (nodeLat 31 0 sPrV) = 492
    ∧ (8 : Int).natAbs ≤ fld (Trunk.PROBE_CFG 3 7) 7 0 sPrV ∧ (trunkAt 31 sPrV).probe.isSome
    ∧ (trunkAt 31 sTcp).copy = some (telOk 5) ∧ (∀ j < 8, 8 * 3 + j ≠ 31 → (trunkAt (8 * 3 + j) sTcp).copy = none)
    ∧ rd (Trunk.TEL_BASE 3 7) sTcp = 0x44000 ∧ Bypass (0x80 + 31) sTcp ∧ isDram 0x44000 64 = true
    ∧ sound 0x44000 64 sTcp = true := by unfold Bypass; decide +kernel

/-- R231 after IEEE 802.3 Clause 36: K28.5 and D21.5 from negative disparity, and a stray group. -/
theorem test_code_groups : (encodeSym false k28_5).1 = 0xFA ∧ (encodeSym true k28_5).1 = 0x305
    ∧ (encodeSym false (.d 0xB5)).1 = 0x2AA ∧ codeErrors false 0 [0xFA, 0] = [1] := by decide +kernel

theorem test_telemetry_copy : ok (.telemetryCopyDone 3) sTcp (fun t => (trunkAt 31 t).copy == none
      && memBytes 0x44000 64 t == telOk 5) = true
    ∧ ok (.echoArrival 31 1000) sPrV (fun t => nodeLat 31 0 t == 494 + 2 ^ 31) = true
    ∧ ok (.echoArrival 31 1000) (sTk 2) (fun t => rd (trkErr 31) t == 16) = true := by decide +kernel

theorem test_links : ok (.trunkEnable 31 .host) up (fun t => linkState 31 t == 1) = true
    ∧ ok (.linkUp ⟨31, goodTrain⟩) (sTk 1) (fun t => linkState 31 t == linkOfMode 0 && rd (Trunk.TRAIN_COUNT 3 7) t == 1) = true
    ∧ ok (.trainFail 31) (sTk 1) (fun t => linkState 31 t == 0 && rd (trkErr 31) t == 1 && tenMs ≤ t.clk) = true
    ∧ ok (.trainRetry 31) (setTrunk 31 { retryAt := some 4000 } (sTk 0)) (fun t => linkState 31 t == 1 && 4000 ≤ t.clk) = true
    ∧ ok (.linkUp ⟨31, .bad :: goodTrain.drop 2⟩) (sTk 1) (fun t => linkState 31 t == 1 && (trunkAt 31 t).goodSets == 62) = true
    ∧ ok (.linkDown 31 ⟨false, [0, 0, 0, 0]⟩) up (fun t => rd (Trunk.RX_CODE_ERRS 3 7) t == 0) = true
    ∧ ok (.linkDown 31 ⟨false, [0, 0, 0, 0]⟩) (sTk 2) (fun t => rd (Trunk.RX_CODE_ERRS 3 7) t == 4 && linkState 31 t == 1 && rd (Trunk.LINK_DOWN_COUNT 3 7) t == 1) = true
    ∧ ok (.rxClkLoss 31) (sTk 2) (fun t => linkState 31 t == 1 && !rxClock 31 t) = true
    ∧ ok (.rxClkReturn 31) up (fun t => rxClock 31 t) = true := by decide +kernel

theorem test_telemetry : ok (.telemetryPacket 31 (telOk 63)) (sTk 2) (fun t => nodeSeen 31 63 t && (telOf 31 63 t).fresh) = true
    ∧ ok (.telemetryPacket 31 (telBad 63)) (sTk 2) (fun t => t.trunk == [] && rd (Trunk.TEL_CRC_ERRS 3 7) t == 1) = true
    ∧ ok (.nodeSeenExpiry 31 63) (put [(Trunk.NODE_SEEN 3 7, 2 ^ 63)] (sTk 2)) (fun t => !nodeSeen 31 63 t) = true
    ∧ ok (.echoArrival 31 1000) sPr (fun t => (trunkAt 31 t).probe == none && nodeLat 31 0 t == 500 + 2 ^ 31) = true
    ∧ ok (.probeLost 31) sPr (fun t => (trunkAt 31 t).probe == none && 4000 + echoLimit ≤ t.clk
      && rd (Trunk.PROBES_LOST 3 7) t == 1) = true
    ∧ ok (.cmdPush 31 .host) (sTk 2) (fun t => (trunkAt 31 t).cmds.length == 1) = true
    ∧ ok (.cmdPush 31 .host) (setTrunk 31 { cmds := List.replicate 16 (1, []) } (sTk 2)) (fun t => rd (trkErr 31) t == 4) = true := by
  decide +kernel

/-- The counter at 5.000000007 s; the servo runs on source 1 with this state. -/
def sTm (st : Nat) : State := { put [(Time.TIME_CTRL, 3), (Time.TIME_STATUS, 8 + st), (Time.STEP_OFF, 2 ^ 64 - 7),
  (Time.RATE_LIMIT, 1000), (Time.SERVO_KP, 2), (Time.SERVO_KI, 1), (Time.SET_SEC, 9), (Time.SET_NS, 999999999)] up with
  cnt := 5000000007 * 2 ^ 32 }

theorem witness_TimeAndServo : hostAsleep .host up = false ∧ slicesOn up = true
    ∧ 0 ≤ ((sTm 2).cnt : Int) + sgn 64 (rd Time.STEP_OFF (sTm 2)) * 2 ^ 32
    ∧ ((sTm 2).cnt : Int) + sgn 64 (rd Time.STEP_OFF (put [(Time.STEP_OFF, 2 ^ 63)] (sTm 2))) * 2 ^ 32 ≤ (sTm 2).cnt
    ∧ ((0 : Nat) : Int) + sgn 64 (rd Time.STEP_OFF (sTm 2)) * 2 ^ 32 < 0 ∧ rd Time.SET_NS (sTm 2) < 1000000000
    ∧ servoEn (sTm 2) = true ∧ servoSrc (sTm 2) = 1 ∧ timeValid (sTm 2) = true ∧ bit Time.TIME_CTRL 3 (sTm 2) = false
    ∧ servoState (sTm 2) = 2 ∧ servoState (sTm 3) = 3 ∧ (sTm 2).time.gm ≠ (7 : Word).toNat := by decide +kernel

theorem test_time : ok (.timeSnap .host) (sTm 2) (fun t => rd Time.SNAP_SEC t == 5 && rd Time.SNAP_NS t == 7) = true
    ∧ ok (.stepCmdStep .host) (sTm 2) (fun t => t.cnt == 5000000000 * 2 ^ 32 && rd Time.STEP_COUNT t == 1) = true
    ∧ ok (.stepCmdStep .host) { sTm 2 with cnt := 0 } (fun t => t.cnt == 0 && rd Time.TIME_ERR t == 2) = true
    ∧ ok (.stepCmdSet .host) (sTm 2) (fun t => t.cnt == 9999999999 * 2 ^ 32) = true
    ∧ ok (.holdoverEnter) (sTm 3) (fun t => servoState t == 4) = true
    ∧ ok (.announceReceiptTimeout (some 2) 7 true) (sTm 2) (fun t => t.time.slave == some 2 && t.time.gm == 7
      && bit Time.TIME_CTRL 4 t) = true := by decide +kernel

/-- An offset of 2^34 and one beyond the limit. -/
theorem test_servo : ok (.servoSample .host (BitVec.ofInt 64 (2 ^ 34))) (sTm 2) (fun t =>
      t.time.integ == -(2 ^ 34) && rd Time.RATE_ACT t == rateReg (-(3 * 2 ^ 34)) && rd Time.SAMPLE_COUNT t == 1) = true
    ∧ ok (.servoSample .host (BitVec.ofInt 64 (-(2 ^ 60)))) (sTm 2) (fun t =>
      t.time.integ == 1000 * 2 ^ 32 && rd Time.RATE_ACT t == 16000) = true := by decide +kernel

/-- Trigger 7 from 6 s with this period, its lines set. -/
def sTr (per : Nat) : State := put [(Time.TRIG_START_SEC 7, 6), (Time.TRIG_START_NS 7, 0), (Time.TRIG_PERIOD 7, per)] (sTm 2)
def sTrOn : State := setTrig 7 [6000000000 * 2 ^ 32] (put [(Time.TRIG_CTRL 7, 0x801)] (sTr 100))
def tsE (i : Nat) : TsEntry := ⟨i, 1, 2, 3, 0, 1⟩

theorem witness_TriggersAndInputs : hostAsleep .host up = false ∧ slicesOn up = true ∧ (0x801 : BitVec 32).getLsbD 1 = false
    ∧ bit (Time.TRIG_CTRL 7) 0 (sTr 100) = false ∧ trigBad 7 (((0x801 : BitVec 32).toNat ||| 1) &&& 0xFFFF3FF7) (sTr 100) = false
    ∧ trigBad 7 (((0x801 : BitVec 32).toNat ||| 1) &&& 0xFFFF3FF7) (sTr 0) = false ∧ nsUnits (trigPeriod 7 (sTr 100)) ≠ 0
    ∧ (sTr 0).cnt + nsUnits 100 ≤ nsUnits (trigStart 7 (sTr 0)) ∧ nsUnits (trigStart 7 { sTr 0 with cnt := 6000000000 * 2 ^ 32 })
      < 6000000000 * 2 ^ 32 + nsUnits 100 ∧ (trigAt 7 sTrOn).next = [6000000000 * 2 ^ 32] ∧ trigEnabled 7 sTrOn = true
    ∧ trigMode 7 sTrOn = 0 ∧ trigPeriod 7 sTrOn ≠ 0 ∧ fld (Time.TRIG_CTRL 7) 31 16 sTrOn = 0
    ∧ tsqOf 3 (putTsq 3 [tsE 1, tsE 2] up) = [tsE 1, tsE 2] ∧ bit Time.LTC_CTRL 0 (put [(Time.LTC_CTRL, 1)] up) = true
    ∧ fld Time.LTC_CTRL 3 1 (put [(Time.LTC_CTRL, 1)] up) = 0 ∧ up.time.ltc.length < 16
    ∧ bit Time.TIME_STATUS 5 (put [(Time.TIME_STATUS, 32)] up) = true ∧ bit Time.FI_CFG 0 (put [(Time.FI_CFG, 3)] up) = true
    ∧ up.time.fiAt = none ∧ servoSrc up ≠ 2 ∧ bit Time.TIME_STATUS 6 (put [(Time.TIME_STATUS, 64)] up) = true := by decide +kernel

theorem test_triggers : ok (.triggerEnable 7 .host 0x801) (sTr 100) (fun t =>
      (trigAt 7 t).next == [6000000000 * 2 ^ 32] && bit (Time.TRIG_STATUS 7) 0 t) = true
    ∧ ok (.triggerEnable 7 .host 0x801) { sTr 100 with cnt := 6000000001 * 2 ^ 32 } (fun t =>
      (trigAt 7 t).next == [6000000200 * 2 ^ 32]) = true
    ∧ ok (.triggerEnable 7 .host 0x801) { sTr 0 with cnt := 6000000000 * 2 ^ 32 } (fun t => !trigEnabled 7 t
      && bit (Time.TRIG_STATUS 7) 1 t) = true
    ∧ ok (.triggerFire 7) sTrOn (fun t => (trigAt 7 t).next == [6000000100 * 2 ^ 32] && rd (Time.TRIG_FIRED 7) t == 1
      && 6000000000 * 2 ^ 32 ≤ t.cnt) = true := by decide +kernel

theorem test_time_inputs : ok (.tsqPop 3 .host) (putTsq 3 [tsE 1, tsE 2] up) (fun t => tsqOf 3 t == [tsE 2]
      && rd (Time.TSQ_STATUS 3) t == 1) = true
    ∧ ok (.ltcFrame 0x11223344 0x55667788 false false false 4 0) (put [(Time.LTC_CTRL, 1)] up) (fun t =>
      t.time.ltc.map LtcEntry.bytes == [p4 0x11223344 ++ p4 0x55667788 ++ p4 8] && fld Time.LTC_STATUS 3 1 t == 5) = true
    ∧ ok .ltcLost { put [(Time.TIME_STATUS, 32)] up with time := { up.time with ltcRun := 2 } } (fun t =>
      !bit Time.TIME_STATUS 5 t && t.time.ltcRun == 0) = true
    ∧ ok (.frameInEdge true) (put [(Time.FI_CFG, 3)] up) (fun t => t.time.fiAt == some up.clk
      && bit Time.TIME_STATUS 6 t) = true
    ∧ ok .frameInLost { put [(Time.TIME_STATUS, 64)] up with time := { up.time with fiAt := some 4000 } } (fun t =>
      !bit Time.TIME_STATUS 6 t && 4000 ≤ t.clk) = true := by decide +kernel


/-! #### The other clauses of these statements -/

/-- The servo with STEP_EN and a threshold of 1 us; one that has no valid time; a step on this clock. -/
def sTmS : State := put [(Time.TIME_CTRL, 11), (Time.STEP_THRESH, 1000)] (sTm 2)
def sTmInv : State := put [(Time.TIME_STATUS, 2)] (sTm 2)
def sStepped : State := { sTm 2 with time := { (sTm 2).time with steps := [⟨(sTm 2).clk, 0, 0, true⟩] } }

theorem witness_TimeAndServo_more : bit Time.TIME_CTRL 3 sTmS = true
    ∧ rd Time.STEP_THRESH sTmS * 65536 ≤ (BitVec.ofInt 64 (2 ^ 30) : Word).toInt.natAbs
    ∧ 0 ≤ (sTmS.cnt : Int) - (BitVec.ofInt 64 (2 ^ 30) : Word).toInt * 65536 ∧ timeValid sTmS = true
    ∧ timeValid sTmInv = false ∧ servoEn sTmInv = true ∧ servoSrc sTmInv = 1 ∧ steppedNow sTmInv = false
    ∧ steppedNow sStepped = true ∧ servoEn up = false ∧ 1000000000 ≤ rd Time.SET_NS (put [(Time.SET_NS, 1000000000)] (sTm 2)) := by
  decide +kernel

theorem test_time_more : ok (.servoSample .host (BitVec.ofInt 64 (2 ^ 30))) sTmS (fun t =>
      t.cnt + 2 ^ 46 == sTmS.cnt && rd Time.STEP_COUNT t == 1) = true
    ∧ ok (.servoSample .host 5) sStepped (fun t => rd Time.SAMPLE_COUNT t == 0) = true
    ∧ ok (.stepCmdSet .host) (put [(Time.SET_NS, 1000000000)] (sTm 2)) (fun t =>
      t.cnt == (sTm 2).cnt && rd Time.TIME_ERR t == 2) = true := by decide +kernel

/-- Trigger 7 at its last firing, and in mode 1; a full LTC FIFO, and input switched off. -/
def sTrLast : State := put [(Time.TRIG_CTRL 7, 0x10801)] sTrOn
def sTrWin : State := setTrig 7 [6000000000 * 2 ^ 32, 6000000050 * 2 ^ 32] (put [(Time.TRIG_CTRL 7, 0x803)] (sTr 100))
def ltcE : LtcEntry := ⟨p4 1, 0, 0, 0⟩
def sLtcFull : State := { put [(Time.LTC_CTRL, 1)] up with time := { up.time with ltc := List.replicate 16 ltcE } }
def sFiEarly : State := { put [(Time.FI_CFG, 3 + 65536 * 10)] up with time := { up.time with fiAt := some 0 } }

theorem witness_TriggersAndInputs_more : trigBad 7 (((1 : BitVec 32).toNat ||| 1) &&& 0xFFFF3FF7) (sTr 100) = true ∧ (3 : BitVec 32).getLsbD 1 = true
    ∧ trigBad 7 (((0x803 : BitVec 32).toNat ||| 1) &&& 0xFFFF3FF7) (sTr 100) = false
    ∧ fld (Time.TRIG_CTRL 7) 31 16 sTrLast = 1 ∧ (trigAt 7 sTrLast).next = [6000000000 * 2 ^ 32]
    ∧ trigMode 7 sTrWin ≠ 0 ∧ trigEnabled 7 sTrWin = true ∧ 16 ≤ sLtcFull.time.ltc.length
    ∧ bit Time.LTC_CTRL 0 up = false ∧ up.time.steps = []
    ∧ sFiEarly.time.fiAt = some 0 ∧ sFiEarly.clk < 0 + 10 * (fld Time.FI_CFG 31 16 sFiEarly * 1000)
    ∧ bit Time.FI_CFG 0 sFiEarly = true ∧ bit Time.FI_CFG 1 sFiEarly = true := by decide +kernel

theorem test_inputs_more : ok (.triggerFire 7) sTrLast (fun t => (trigAt 7 t).next == [] && !trigEnabled 7 t) = true
    ∧ ok (.triggerEnable 7 .host 1) (sTr 100) (fun t =>
      !trigEnabled 7 t && rd Time.TIME_ERR t == 4) = true
    ∧ ok (.ltcFrame 1 2 false false false 4 0) sLtcFull (fun t => rd Time.LTC_LOST t == 1 && t.time.ltc.length == 16) = true
    ∧ ok (.frameInEdge true) sFiEarly (fun t => rd Time.FI_GLITCHES t == 1 && t.time.fiAt == some 0) = true
    ∧ ok (.ltcPop .host) sLtcFull (fun t => t.time.ltc.length == 15) = true := by decide +kernel
/-! ### Network ports -/

/-- A frame of 60 bytes to the port's own address, EtherType 0x1234, tagged or not. -/
def frm (tag : List Byte) : List Byte := List.replicate 12 0 ++ tag ++ [0x12, 0x34] ++ List.replicate (46 - tag.length) 7
/-- Port 3: up; its default action a ring. -/
def sNet (dflt : Nat) : State := put [(Net.PORT_CTRL 3, 1 + 4 + 9600 * 65536), (Net.PORT_STATUS 3, 1), (Net.DEFAULT_ACTION 3, dflt)] up
/-- Ring 2 of port 3 runs with one buffer of 100 bytes at 0x61000; its descriptors lie at 0x60000. -/
def sRing : State := mem 0x601E0 (p8 0x61000 ++ p4 100) (put [(Net.RXR_CTRL 3 2, 1), (Net.RXR_STATUS 3 2, 1), (Net.RXR_BASE 3 2, 0x60000),
  (Net.RXR_HEAD 3 2, 15), (Net.RXR_TAIL 3 2, 0), (Iommu.STE 0x6B, 0x30000)] (sNet 9))
def sTimer : State := setRxRing 3 2 ⟨1, some 4000⟩ (put [(Net.RXR_NOTIFY 3 2, 1023 * 256 + 3 * 2 ^ 18 + 8 * 2 ^ 20 + 2 ^ 24)] (sNet 9))

theorem witness_PortsReceive : netUp 3 (sNet 0) = true ∧ (frm []).length + 4 = 64 ∧ (frm []).length + 4 ≤ maxFrame 3 (sNet 0)
    ∧ ((frm []).drop 1).length + 4 < 64 ∧ (match classify 3 (frm []) (sNet 13) with | .filtered => true | _ => false) = true
    ∧ (match classify 3 (frm []) sRing with | .ring r m => r == 2 && m == 16 | _ => false) = true ∧ rxState 3 2 sRing = 1
    ∧ 0 < rxPosted 3 2 sRing ∧ activationPaused sRing = false ∧ Bypass (netStream 3) sRing
    ∧ rxDescVa 3 2 (rd (Net.RXR_HEAD 3 2) sRing) sRing = 0x601E0 ∧ 0x601E0 % 32 = 0 ∧ sound 0x601E0 32 sRing = true
    ∧ (stripTag (frm [0x81, 0, 0, 5])).length ≤ 100 ∧ sound 0x61000 60 sRing = true ∧ bit (Net.RXR_NOTIFY 3 2) 24 sRing = false
    ∧ (rxRing 3 2 sTimer).firstAt = some 4000 ∧ fld (Net.RXR_NOTIFY 3 2) 17 8 sTimer ≠ 0
    ∧ bit (Net.RXR_NOTIFY 3 2) 24 sTimer = true ∧ bit (Net.RXR_NOTIFY 3 2) 23 sTimer = true
    ∧ bit (Net.RXR_CTRL 3 2) 0 (sNet 0) = false ∧ bit (Net.RXR_CTRL 3 2) 0 sRing = true ∧ (0xF1 : BitVec 32).getLsbD 0 = true := by
  unfold Bypass; decide +kernel

theorem test_rx_drops : ok (.rxFrame 3 ((frm []).drop 1) false false false false 0) (sNet 0) (fun t => rd (Net.RX_RUNTS 3) t == 1
      && rd (Net.RX_FRAMES 3) t == 0) = true
    ∧ ok (.rxFrame 3 (frm []) false false false false 0) (sNet 13) (fun t => rd (Net.RX_FILTER_DROPS 3) t == 1
      && rd (Net.RX_FRAMES 3) t == 1) = true := by decide +kernel

/-- R291, R292: the tag is stripped from the buffer; the descriptor says so, 56 of 60 bytes. -/
theorem test_rx_ring : ok (.rxFrame 3 (frm [0x81, 0, 0, 5]) false false false false 0) sRing (fun t =>
      memBytes 0x61000 56 t == stripTag (frm [0x81, 0, 0, 5]) && memNat 0x601E8 2 t == 56 && memNat 0x601EA 2 t == 60
      && memNat 0x601EC 2 t == 0x107 && rd (Net.RXR_HEAD 3 2) t == 0 && rd (Net.RXR_FRAMES 3 2) t == 1) = true
    ∧ ok (.rxNotifyTimer 3 2) sTimer (fun t => rxRing 3 2 t == {} && bit (Net.INT_STATUS 3) 2 t
      && rd (Sched.EV_SEEN 3) t == 2 ^ 43 && rd (Sched.EV_SEEN 0) t == 0 && 4000 + 10230000 ≤ t.clk) = true := by decide +kernel

theorem test_rx_enable : ok (.rxrEnable 3 3 .host 1) (sNet 0) (fun t => t.regs == (sNet 0).regs) = true
    ∧ ok (.rxrEnable 3 2 .host 0xF1) (sNet 0) (fun t => rxState 3 2 t == 1 && fld (Net.RXR_CTRL 3 2) 7 4 t == 15) = true
    ∧ ok (.rxrEnable 3 2 .host 0xF0) sRing (fun t => rxState 3 2 t == 0 && fld (Net.RXR_CTRL 3 2) 7 4 t == 0) = true := by decide +kernel

/-- Flow 31, fed by U1, of 16 by 8 pixels of 8 bits, its slot 0 at 0x70000. -/
def sFl : State := put [(Net.FLOW_CTRL 31, 1 + 4), (Net.FLOW_GEOM 31, 16 + 8 * 65536), (Net.FLOW_STRIDE 31, 64), (Net.FLOW_BUF 31 0, 0x70000),
  (Iommu.STE (0x48 + 31), 0x30000), (Net.FLOW_TMO 31, 65535)] up
/-- One pixel, the last: row 7, offset 15; RTP timestamp 9, marker set. -/
def udpB : List Byte := [0x80, 0x80, 0, 1, 0, 0, 0, 9, 0, 0, 0, 0, 0, 0, 0, 3, 0, 7, 0, 15, 0xA1, 0xA2, 0xA3]
def sFil : State := setFlow 31 { filling := some 3, missing := 2, fault := true, lastAt := 4000 } (put [(Net.FLOW_SLOTS 31, 0x66)] sFl)

/-- What a UDP payload must be for the first packet of a frame. -/
def onePixel (bs : List Byte) : Bool :=
  match parseVideo bs with
  | some k => !k.field && k.marker && k.rtp == 9 && (match k.srds with | [⟨7, 15, [_, _, _]⟩] => true | _ => false)
  | none => false

theorem witness_PortsReceive_flows : shed sFl = false ∧ flowFed 31 1 sFl = true ∧ activationPaused sFl = false ∧ onePixel udpB = true
    ∧ fld (Net.FLOW_CTRL 31) 2 1 sFl ≠ 3 ∧ (flowAt 31 sFl).filling = none ∧ (flowAt 31 sFl).high = none
    ∧ (flowAt 31 sFl).ended ≠ some 9 ∧ (flowAt 31 sFl).dropping ≠ some 9 ∧ nextFree 31 sFl = some 0 ∧ flowRaw 31 sFl = false
    ∧ flowDepth 31 sFl = 0 ∧ 7 < flowHeight 31 sFl ∧ 15 < flowWidth 31 sFl ∧ Bypass (0x48 + 31) sFl
    ∧ bit (Net.FLOW_CTRL 31) 7 sFl = false ∧ rd (Net.FLOW_BUF 31 0) sFl + (7 * rd (Net.FLOW_STRIDE 31) sFl + 15 * 3) = 0x701ED
    ∧ 0x701ED % 4096 + 3 ≤ 4096 ∧ sound 0x701ED 3 sFl = true ∧ (flowAt 31 sFil).filling = some 3
    ∧ (flowAt 31 sFil).missing < 65536 ∧ fld (Net.FLOW_TMO 31) 15 0 sFil ≠ 0 := by unfold Bypass; decide +kernel

theorem test_flow : ok (.depktPacket 31 1 udpB) sFl (fun t => memBytes 0x701EC 5 t == [0, 0xA1, 0xA2, 0xA3, 0]
      && slotSt 31 0 t == 2 && rd (Net.SLOT_RTP 31 0) t == 9 && bit Net.DEPKT_INT_STATUS 31 t
      && rd (Net.FLOW_PKTS 31) t == 1) = true
    ∧ ok (.flowTimeout 31) sFil (fun t => slotSt 31 3 t == 2 && rd (Net.SLOT_INFO 31 3) t == 2 + 3 * 65536
      && 4000 + 655350000 ≤ t.clk) = true
    ∧ ok (.flowReleaseWrite 31 .host 15) sFil (fun t => [0, 1, 2, 3].map (slotSt 31 · t) == [0, 1, 0, 1]) = true := by decide +kernel

/-- Ring 2 of port 0, one frame of 64 bytes at 0x62000 posted. -/
def sTx : State := mem 0x62000 (List.replicate 64 5) (mem 0x60000 (p8 0x62000 ++ p2 64 ++ p2 1 ++ p2 7) (put [(Net.PORT_CTRL 0, 1 + 1518 * 65536),
  (Net.PORT_STATUS 0, 1), (Net.TXR_CTRL 0 2, 1), (Net.TXR_STATUS 0 2, 1), (Net.TXR_BASE 0 2, 0x60000), (Net.TXR_TAIL 0 2, 1),
  (Iommu.STE 0x68, 0x30000)] up))
def fTx : NetFrame := ⟨[0], 1, 7, 0, 0, List.replicate 64 5⟩
def sBuf : State := setTxFrame 0 2 (some fTx) sTx
def sPau : State := setNetPort 0 { netPort 0 sBuf with pause := some 9 } sBuf
def sOut (ring : Option Nat) : State := setNetPort 0 { sending := some ⟨ring, if ring = none then noFrame else fTx, List.replicate 64 5, 4000⟩ } sTx

theorem witness_PortsSend : netUp 0 sTx = true ∧ txState 0 2 sTx = 1 ∧ txFrameOf 0 2 sTx = none ∧ (netPort 0 sTx).sending = none
    ∧ 0 < txPosted 0 2 sTx ∧ Bypass (netStream 0) sTx ∧ txDescVa 0 2 0 sTx = 0x60000 ∧ 0x60000 % 32 = 0
    ∧ sound 0x60000 32 sTx = true ∧ (parseTx 0 (memBytes 0x60000 32 sTx)).flags = 1
    ∧ (parseTx 0 (memBytes 0x60000 32 sTx)).len ≤ maxFrame 0 sTx - 4 ∧ (parseTx 0 (memBytes 0x60000 32 sTx)).buf = 0x62000
    ∧ sound 0x62000 64 sTx = true ∧ netUp 0 sPau = true ∧ (netPort 0 sPau).pause = some 9 ∧ (netPort 0 sPau).sending = none
    ∧ (netPort 0 sBuf).pause = none ∧ (netPort 0 sBuf).heldUntil ≤ sBuf.clk ∧ gclRuns 0 sBuf = false ∧ txFrameOf 0 2 sBuf = some fTx
    ∧ (∀ j < 4, 2 < j → txFrameOf 0 j sBuf = none) ∧ ((netPort 0 (sOut none)).sending.map NetSend.ring) = some none
    ∧ ((netPort 0 (sOut (some 2))).sending.map NetSend.ring) = some (some 2) ∧ fTx.descs = [0] := by
  unfold Bypass; decide +kernel

theorem test_tx : ok (.txFrameFetch 0 2) sTx (fun t => txFrameOf 0 2 t == some fTx) = true
    ∧ ok (.txFrameStart 0) sPau (fun t => ((netPort 0 t).sending.map NetSend.ring) == some none && (netPort 0 t).pause == none) = true
    ∧ ok (.txFrameStart 0) sBuf (fun t => ((netPort 0 t).sending.map NetSend.ring) == some (some 2) && txFrameOf 0 2 t == none) = true
    ∧ ok (.txFrameDone 0 0) (sOut none) (fun t => rd (Net.TX_PAUSE 0) t == 1 && 4000 ≤ t.clk) = true
    ∧ ok (.txFrameDone 0 0) (sOut (some 2)) (fun t => memNat 0x6001C 4 t == 1 && rd (Net.TXR_HEAD 0 2) t == 1
      && rd (Net.TXR_FRAMES 0 2) t == 1) = true := by decide +kernel

/-- Port 2 with a list of two entries of 800 ns in force in a cycle of 1,600 ns; T0 with a frame hold. -/
def sGt : State := setNetPort 2 { listed := true } (put [(Net.PORT_CTRL 2, 1 + 4 + 96 + 1518 * 65536), (Net.PORT_STATUS 2, 1), (Net.GCL_CTRL 2, 1),
  (Net.OPER_CYCLE 2, 1600), (Net.OPER_LEN 2, 2), (Net.GCL_ENTRY 2 0 0, 100 * 16 + 1), (Net.GCL_ENTRY 2 0 1, 100 * 16 + 14),
  (Net.ADMIN_CYCLE 2, 1000), (Net.ADMIN_LEN 2, 1), (Net.GCL_ENTRY 2 1 0, 16), (Net.PAUSE_CFG 2, 0xFFFF + 100 * 65536),
  (Net.XOFF_CFG 2, 0x80C005)] up)
def sSw : State := setNetPort 2 { switchAt := some (2000 * 2 ^ 32), admin := (0, 0, 1000, 1) } sGt
def sXo : State := setNetPort 2 { xoffAt := 4000 } (put [(Net.PORT_STATUS 2, 5), (Net.XOFF_STATUS 2, 1)] sGt)

theorem witness_GatesPauseLinks : gclRuns 2 sGt = true ∧ (netPort 2 sGt).switchAt = none ∧ gclCheck 2 sGt = none
    ∧ gclCheck 2 (put [(Net.ADMIN_LEN 2, 65)] sGt) = some 0 ∧ gclCheck 2 (put [(Net.ADMIN_CYCLE 2, 999)] sGt) = some 1
    ∧ gclCheck 2 (put [(Net.GCL_ENTRY 2 1 0, 15)] sGt) = some 2 ∧ (netPort 2 sSw).switchAt = some (2000 * 2 ^ 32)
    ∧ netUp 2 sGt = true ∧ bit (Net.PORT_CTRL 2) 5 sGt = true ∧ bit (Net.PORT_STATUS 2) 1 (put [(Net.PORT_STATUS 2, 3)] sGt) = true
    ∧ shed sGt = false ∧ xoffAsserts 2 0x7FFFF [] sGt &&& xoffEnabled 2 sGt = 1 ∧ netEnabled 2 sGt = true ∧ bit (Net.PORT_STATUS 2) 2 sGt = false
    ∧ bit (Net.PORT_STATUS 2) 2 sXo = true ∧ xoffReleases 2 0 [] sXo &&& 1 = 1
    ∧ xoffAsserts 2 0 [] sGt &&& xoffEnabled 2 sGt = 0
    ∧ netLink 2 (put [(Net.PORT_STATUS 2, 0)] sGt) = false ∧ netLink 2 sGt = true ∧ (netPort 2 sGt).sending = none
    ∧ (∀ j < 4, txFrameOf 2 j sGt = none) ∧ (2 : Fin 4).val < 3 := by decide +kernel

theorem test_gates : ok (.gateChange 2) sGt (fun t => (netPort 2 t).gates == 14 && fld (Net.GCL_STATUS 2) 13 8 t == 1
      && 800 * 2 ^ 32 ≤ t.cnt) = true
    ∧ ok (.gclSwitchCmd 2 .host) sGt (fun t => (netPort 2 t).switchAt == some (1000 * 2 ^ 32)) = true
    ∧ ok (.gclSwitchCmd 2 .host) (put [(Net.ADMIN_LEN 2, 65)] sGt) (fun t => bit (Net.PORT_ERR 2) 1 t
      && t.rcd.staged.map StagedRec.payload == [[0]]) = true
    ∧ ok (.gclSwitchCmd 2 .host) sSw (fun t => bit (Net.PORT_ERR 2) 2 t) = true
    ∧ ok (.gclSwitch 2) sSw (fun t => operBank 2 t == 1 && rd (Net.OPER_CYCLE 2) t == 1000 && 2000 * 2 ^ 32 ≤ t.cnt) = true := by
  decide +kernel

theorem test_pause_links : ok (.pauseReceived 2 65535) sGt (fun t => bit (Net.PORT_STATUS 2) 1 t && rd (Net.RX_PAUSE 2) t == 1) = true
    ∧ ok (.pauseExpiry 2) (put [(Net.PORT_STATUS 2, 3)] sGt) (fun t => !bit (Net.PORT_STATUS 2) 1 t) = true
    ∧ ok (.xoffEnter 2 0x7FFFF []) sGt (fun t => (netPort 2 t).pause == some 65535 && rd (Net.XOFF_STATUS 2) t == 1) = true
    ∧ ok (.xoffEnter 2 0 []) sGt (fun t => (netPort 2 t).pause == none) = true
    ∧ ok (.xoffLeave 2 0x7FFFF []) sXo (fun t => bit (Net.PORT_STATUS 2) 2 t) = true
    ∧ ok (.xoffRefresh 2) sXo (fun t => (netPort 2 t).pause == some 65535 && 4000 + 1000000 ≤ t.clk) = true
    ∧ ok (.xoffLeave 2 0 []) sXo (fun t => (netPort 2 t).pause == some 0 && !bit (Net.PORT_STATUS 2) 2 t) = true
    ∧ ok (.netLinkUp 2 true) (put [(Net.PORT_STATUS 2, 0)] sGt) (fun t => netLink 2 t && bit (Net.PORT_STATUS 2) 4 t) = true
    ∧ ok (.netLinkDown 2 true) sGt (fun t => !netLink 2 t && bit (Net.INT_STATUS 2) 8 t) = true := by decide +kernel


/-! #### The other clauses of these statements -/

/-- No buffer posted; an ARP frame to port 0; a flow on both paths, one with no FREE slot. -/
def sNoBuf : State := put [(Net.RXR_TAIL 3 2, 15)] sRing
def arp : List Byte := List.replicate 12 0 ++ [8, 6] ++ List.replicate 46 7
def sR3 : State := put [(Net.PORT_CTRL 0, 1 + 9600 * 65536), (Net.PORT_STATUS 0, 1), (Net.RXR_CTRL 0 3, 1),
  (Net.RXR_STATUS 0 3, 1)] up
def sBoth : State := setFlow 31 { seen := [32768] } (put [(Net.FLOW_CTRL 31, 1 + 6)] sFl)
def sNoSlot : State := put [(Net.FLOW_SLOTS 31, 0xFF)] sFl

theorem witness_PortsReceive_more : rxPosted 3 2 sNoBuf = 0 ∧ rxState 3 2 sNoBuf = 1
    ∧ (match classify 0 arp sR3 with | .ring r _ => r == 3 | _ => false) = true ∧ rxState 0 3 sR3 = 1 ∧ netUp 0 sR3 = true
    ∧ ptpPayload arp = none ∧ fld (Net.FLOW_CTRL 31) 2 1 sBoth = 3 ∧ flowFed 31 1 sBoth = true
    ∧ (parseVideo udpB).map VideoPacket.seq = some 1 ∧ (flowAt 31 (setFlow 31 { seen := [1] } sBoth)).seen.contains 1 = true
    ∧ (flowAt 31 sBoth).seen.contains 1 = false ∧ nextFree 31 sNoSlot = none ∧ 0x601E0 + 32 ≤ 0x61000 := by decide +kernel

theorem test_rx_more : ok (.rxFrame 3 (frm []) false false false false 0) sNoBuf (fun t => rd (Net.RXR_NOBUF 3 2) t == 1) = true
    ∧ ok (.rxFrame 3 (frm []) true false false false 0) (sNet 9) (fun t => rd (Net.RX_FIFO_DROPS 3) t == 1) = true
    ∧ ok (.rxFrame 0 arp false false false false 0) sR3 (fun t => rd (Net.RXR_FRAMES 0 3) t == 1) = true
    ∧ ok (.depktPacket 31 1 udpB) (setFlow 31 { seen := [1] } sBoth) (fun t => rd (Net.FLOW_DUPES 31) t == 1) = true
    ∧ ok (.depktPacket 31 1 udpB) sNoSlot (fun t => rd (Net.FLOW_DROPPED 31) t == 1
      && (flowAt 31 t).dropping == some 9) = true := by decide +kernel

/-- A frame that Renro has ready for ring 3 of port 0; a PAUSE that holds; a frame of ring 3 on the wire. -/
def sReady : State := setNetPort 0 { netPort 0 sTx with out := [fTx] } (put [(Net.TXR_STATUS 0 3, 1), (Net.TXR_CTRL 0 3, 1)] sTx)
def sHold : State := setNetPort 0 { netPort 0 sBuf with heldUntil := 100 } sBuf

theorem witness_PortsSend_more : txState 0 3 sReady = 1 ∧ txFrameOf 0 3 sReady = none ∧ (netPort 0 sReady).out = [fTx]
    ∧ fTx.bytes.length ≤ maxFrame 0 sReady - 4 ∧ txEligible 0 2 sBuf = true ∧ (∀ j < 4, 2 < j → txEligible 0 j sBuf = false)
    ∧ sHold.clk < (netPort 0 sHold).heldUntil ∧ (∀ j < 4, txEligible 0 j sTx = false)
    ∧ ((netPort 0 (sOut (some 3))).sending.map NetSend.ring) = some (some 3)
    ∧ gclRuns 2 sGt = true ∧ longestWindow 2 0 sGt = some (800 * 2 ^ 32) := by decide +kernel

theorem test_tx_more : ok (.txFrameFetch 0 3) sReady (fun t => txFrameOf 0 3 t == some fTx && (netPort 0 t).out == []) = true
    ∧ ok (.txFrameStart 0) sHold (fun t => (netPort 0 t).sending == none && txFrameOf 0 2 t == some fTx) = true
    ∧ ok (.txFrameDone 0 0) (sOut (some 3)) (fun t => rd (Net.TXR_HEAD 0 3) t == 1 && rd (Net.TXR_FRAMES 0 3) t == 1) = true := by
  decide +kernel

theorem witness_GatesPauseLinks_more : bit (Net.PORT_CTRL 2) 5 (put [(Net.PORT_CTRL 2, 5 + 1518 * 65536)] sGt) = false
    ∧ netUp 2 (put [(Net.PORT_CTRL 2, 5 + 1518 * 65536)] sGt) = true ∧ bit (Net.PORT_CTRL 2) 6 sGt = true
    ∧ bit (Net.PORT_CTRL 2) 6 (put [(Net.PORT_CTRL 2, 5 + 1518 * 65536)] sGt) = false ∧ (3 : Fin 4).val = 3 := by decide +kernel

theorem test_gates_more : ok (.gclSwitchCmd 3 .host) sGt (fun t => t.net == sGt.net) = true
    ∧ ok (.pauseReceived 2 9) (put [(Net.PORT_CTRL 2, 5 + 1518 * 65536)] sGt) (fun t => rd (Net.RX_PAUSE 2) t == 1
      && !bit (Net.PORT_STATUS 2) 1 t) = true := by decide +kernel
/-! ### Twin operation -/

/-- The first 36 bytes of a beat of module m: its role and FLAGS, claim 0x00050002. -/
def beatB (role flags m : Nat) : List Byte :=
  [1, 1] ++ p1 role ++ p1 flags ++ p4 0x50002 ++ List.replicate 16 0 ++ p8 m ++ p4 0
def beatOf (role flags m : Nat) : List Byte := beatB role flags m ++ p4 (crc32c (beatB role flags m))

/-- A beat that keeps every check is valid unless it bears this module's own identity. -/
theorem beat_valid (role flags m : Nat) (h : Config.moduleId.toNat ≠ m)
    (h1 : (beatOf role flags m).length = 40) (h2 : at_ 0x24 4 (beatOf role flags m) = crc32c ((beatOf role flags m).take 36))
    (h3 : at_ 0 1 (beatOf role flags m) = 1) (h4 : at_ 0x18 8 (beatOf role flags m) = m) :
    ∃ b, parseBeat (beatOf role flags m) = some b ∧ b.role = at_ 2 1 (beatOf role flags m) % 8
      ∧ b.flags = at_ 3 1 (beatOf role flags m) ∧ b.claim = at_ 4 4 (beatOf role flags m) := by
  refine ⟨_, if_neg ?_, rfl, rfl, rfl⟩
  rintro (g | g | g | g)
  · exact g h1
  · exact g h2
  · exact g h3
  · exact h (g.symm.trans h4)

/-- What the checks of a beat read in the beats built above, for two modules' identities. -/
theorem beat_checks : ∀ role : Fin 5, ∀ m : Fin 3, (beatOf role.val 0 m.val).length = 40
    ∧ at_ 0x24 4 (beatOf role.val 0 m.val) = crc32c ((beatOf role.val 0 m.val).take 36)
    ∧ at_ 0 1 (beatOf role.val 0 m.val) = 1 ∧ at_ 0x18 8 (beatOf role.val 0 m.val) = m.val
    ∧ at_ 2 1 (beatOf role.val 0 m.val) % 8 = role.val ∧ at_ 3 1 (beatOf role.val 0 m.val) = 0
    ∧ at_ 4 4 (beatOf role.val 0 m.val) = 0x50002 := by decide +kernel

/-- One of two identities is not this module's. -/
theorem witness_beat (role : Fin 5) : ∃ bytes b, parseBeat bytes = some b ∧ b.role = role.val ∧ b.flags = 0
    ∧ b.claim = 0x50002 := by
  have key : ∀ m : Fin 3, Config.moduleId.toNat ≠ m.val →
      ∃ bytes b, parseBeat bytes = some b ∧ b.role = role.val ∧ b.flags = 0 ∧ b.claim = 0x50002 := by
    intro m h
    obtain ⟨c1, c2, c3, c4, c5, c6, c7⟩ := beat_checks role m
    obtain ⟨b, hb, hr, hf, hc⟩ := beat_valid role.val 0 m.val h c1 c2 c3 c4
    exact ⟨_, b, hb, hr.trans c5, hf.trans c6, hc.trans c7⟩
  by_cases h : Config.moduleId.toNat = 1
  · exact key 2 (by rw [h]; decide)
  · exact key 1 h

theorem test_bad_beat : parseBeat (0 :: (beatOf 3 0 1).drop 1) = none ∧ parseBeat ((beatOf 3 0 1).drop 1) = none := by
  decide +kernel

/-- A paired module of a role, both paths well. -/
def sRd (role : Nat) : State := { put [(Red.RED_STATUS, role + 24)] up with
  red := { lastA := 100, lastB := 90, paired := true, handover := none } }
/-- A standby whose second path has failed too, or has not. -/
def sOne : State := { sRd 2 with red := { (sRd 2).red with lastA := 90, lastB := 100000 } }

theorem witness_TwinOperation : (sRd 1).power.off = false ∧ (sRd 1).red.paired = true ∧ up.red.paired = false
    ∧ roleOf (sRd 1) = rSeeking ∧ roleOf (sRd 3) = rActive ∧ rd Red.CLAIM (sRd 3) < 0x50002
    ∧ (max sOne.clk (sOne.red.lastA + pathWindow sOne) + timeClk ≤ sOne.red.lastB + pathWindow sOne)
    ∧ bit Red.RED_STATUS (3 + 0) sOne = true ∧ (sRd 3).red.lastB ≤ (sRd 3).red.lastA ∧ roleOf (sRd 2) = rStandby
    ∧ (sRd 2).descs = [] ∧ (sRd 2).red.contexts = [] ∧ (sRd 2).red.delays = [] ∧ ({ laneNow (sRd 1) with role := 4 } : LaneOut) ≠ laneNow (sRd 1)
    ∧ (sRd 1).red.lanes = [] := by decide +kernel

theorem test_twin : ok (.pathFail 0) sOne (fun t => roleOf t == 2 && !bit Red.RED_STATUS 3 t && bit Red.INT_STATUS 1 t) = true
    ∧ ok (.pathFail 0) (sRd 3) (fun t => t.red.peerLost && roleOf t == 3) = true
    ∧ ok (.pathFail 0) (sRd 2) (fun t => roleOf t == 3 && t.red.tookOver && rd Red.TAKEOVER_COUNT t == 1 && t.upd.cur.epoch == 1) = true
    ∧ ok .seekTimeout (sRd 1) (fun t => roleOf t == 3 && 20000000000 ≤ t.clk) = true
    ∧ ok (.laneDissent 2 { laneNow (sRd 1) with role := 4 }) (sRd 1) (fun t => bit Red.RED_STATUS 11 t && fld Red.LANE_VOTES 10 8 t == 4 && roleOf t == 1) = true
    ∧ ok (.heartbeatReceived 0 0 []) (sRd 1) (fun t => rd Red.HB_BAD t == 1) = true := by decide +kernel

/-- A set of one SHOW record. -/
def showRec : List Byte := p8 5 ++ p8 6 ++ p4 1 ++ p4 0 ++ ((List.range 32).flatMap fun i => p4 (100 + i))
def recB (type : Nat) (body : List Byte) : List Byte := p1 type ++ leBytes 3 body.length ++ body
def setHead : List Byte := recB 1 (p4 9 ++ p4 77 ++ p4 3 ++ p4 184) ++ recB 0x10 showRec
def setB : List Byte := setHead ++ recB 0x1F (p4 (crc32c setHead))
def sJoin : State := { sRd 2 with red := { (sRd 2).red with rxSeq := some 9, rxNext := 1, rxBytes := setB.take 30 } }
def peerB : Beat := ⟨2, false, true, 6, 0, 0, 0, 0, 0, 7⟩
def sHand : State := { put [(Red.RED_STATUS, 3)] up with red := { handover := some 4000 } }
def sSwi : State := { sRd 3 with red := { (sRd 3).red with peer := some peerB } }

theorem witness_TwinOperation_sets : shed (sRd 2) = false ∧ roleOf (sRd 1) ≠ rStandby ∧ goodSet (setB.take 30) = none
    ∧ sJoin.red.rxSeq = some 9 ∧ sJoin.red.rxNext = 1 ∧ goodSet (sJoin.red.rxBytes ++ [1]) = none
    ∧ (goodSet setB).map (·.map Prod.fst) = some [0x01, 0x10, 0x1F] ∧ roleOf (put [(Red.RED_STATUS, 0)] up) = rSolo
    ∧ ownsSinks (put [(Red.RED_STATUS, 0)] up) = false ∧ sHand.red.handover = some 4000 ∧ ilkInLive sHand = false
    ∧ ownsSinks sHand = false ∧ roleOf sHand = rActive ∧ ilkInLive (put [(Red.RED_STATUS, 35)] sHand) = true
    ∧ (0x401 : BitVec 32).getLsbD 0 = true ∧ roleOf sSwi = rActive ∧ sSwi.red.peer = some peerB ∧ peerB.role = rStandby
    ∧ peerB.synced = true ∧ pathAOk sSwi = true ∧ pathBOk sSwi = true ∧ sSwi.red.switch = none
    ∧ bitsOf (0x401 : BitVec 32).toNat 15 8 = 4 := by decide +kernel

theorem test_sets : ok (.mirrorFrameReceived 9 0 setB) (sRd 2) (fun t => rd Red.MIRROR_SEQ_APPLIED t == 9
      && t.red.appliedFrame == some 77 && rd Red.SHOW_ORIGIN t == 5 && rd Red.SHOW_HELD t == 6 && rd Red.SHOW_CTRL t == 1
      && rd (Red.SHOW_WORD 31) t == 131 && bit Red.RED_STATUS 7 t) = true
    ∧ ok (.mirrorFrameReceived 9 1 [1]) sJoin (fun t => t.red.rxBytes == setB.take 30 ++ [1] && t.red.rxNext == 2) = true
    ∧ ok (.mirrorFrameReceived 9 0 setB) (sRd 1) (fun t => t.red == (sRd 1).red) = true := by decide +kernel

theorem test_sinks : ok .ilkInLive up (fun t => ilkInLive t) = true
    ∧ ok .ilkInStatic (put [(Red.RED_STATUS, 32)] up) (fun t => !ilkInLive t && ownsSinks t && t.red.ilkOut) = true
    ∧ ok .sinkHandoverTake sHand (fun t => ownsSinks t && 4000 ≤ t.cnt) = true
    ∧ ok .sinkHandoverTake (put [(Red.RED_STATUS, 35)] sHand) (fun t => !ownsSinks t) = true
    ∧ ok (.switchCmd .host 0x401) sSwi (fun t => rd Red.SWITCH_STATUS t == 1 && t.red.switch == some 4) = true
    ∧ ok (.switchCmd .host 0x401) (sRd 3) (fun t => rd Red.SWITCH_STATUS t == 3) = true := by decide +kernel


/-! #### The other clauses of these statements -/

/-- T0's ring 3 runs; lane 0 says already what lane 2 is to say; a standby amid a set. -/
def sT0 : State := put [(Net.PORT_CTRL 3, 1 + 4 + 9600 * 65536), (Net.TXR_STATUS 3 3, 1), (Net.TXR_CTRL 3 3, 1)] (sRd 3)
def oDis : LaneOut := { laneNow (sRd 1) with role := 4 }
def sTwo : State := { sRd 1 with red := { (sRd 1).red with lanes := [(0, oDis)] } }

theorem witness_BeatsAndRoles_more : shed sT0 = false ∧ fld (Net.TXR_STATUS 3 3) 1 0 sT0 = 1 ∧ sT0.red.paired = true
    ∧ laneOut 0 sTwo = oDis ∧ laneOut 1 sTwo = laneNow sTwo ∧ oDis ≠ laneNow sTwo
    ∧ (∃ p < 32, bit Red.TWIN_PORTS p (put [(Red.TWIN_PORTS, 1)] (sRd 2)) = true) := by
  refine ⟨?_, ?_, ?_, ?_, ?_, ?_, 0, ?_⟩ <;> decide +kernel

theorem test_lanes_and_beats : ok .heartbeatSend sT0 (fun t => rd Red.HB_SENT t == 1 && t.red.beatNo == 1
      && (netPort 3 t).out.length == 1 && 250000 * 2 ^ 32 ≤ t.cnt) = true
    ∧ ok .heartbeatSend up (fun t => rd Red.HB_SENT t == 0) = true
    ∧ ok (.laneDissent 2 oDis) sTwo (fun t => roleOf t == 4 && bit Red.RED_STATUS 10 t) = true := by decide +kernel

/-- A DELAY record in a set. -/
def setD : List Byte := recB 1 (p4 10 ++ p4 78 ++ p4 3 ++ p4 0) ++ recB 0x13 (List.replicate 64 7 ++ p8 99 ++ p8 1)
def setDel : List Byte := setD ++ recB 0x1F (p4 (crc32c setD))

theorem witness_MirrorInterlockSwitch_more : (goodSet setDel).map (·.map Prod.fst) = some [0x01, 0x13, 0x1F]
    ∧ sJoin.red.rxNext ≠ 2 ∧ sSwi.red.paired = true ∧ 4 ≤ bitsOf (0x401 : BitVec 32).toNat 15 8
    ∧ ¬ (4 ≤ bitsOf (0x301 : BitVec 32).toNat 15 8) ∧ (0x400 : BitVec 32).getLsbD 0 = false
    ∧ (put [(Red.RED_STATUS, 32)] up).red.handover = none := by decide +kernel

theorem test_sets_more : ok (.mirrorFrameReceived 10 0 setDel) (sRd 2) (fun t =>
      t.red.delays == [⟨List.replicate 64 7, 99, 1⟩] && rd Red.MIRROR_SEQ_APPLIED t == 10) = true
    ∧ ok (.mirrorFrameReceived 9 2 [1]) sJoin (fun t => t.red.rxBytes == [] && t.red.rxSeq == none) = true
    ∧ ok (.switchCmd .host 0x301) sSwi (fun t => rd Red.SWITCH_STATUS t == 3) = true
    ∧ ok (.switchCmd .host 0x400) sSwi (fun t => t.red == sSwi.red) = true := by decide +kernel
/-! ### LED drive, converters, calibration -/

/-- Channel c enabled, linear, no thermistor; the module owns its sinks and the drive is on. -/
def sLed (c : Nat) : State := put [(Red.RED_STATUS, 64), (Led.LED_CTRL, 1), (Led.CH_CFG c, 0x8001), (Led.CH_DUTY c, 0x8000)] up
def onCh (c : Nat) (h : LedCh) : State := setLedCh c h (sLed c)
def sMeas : State := onCh 47 { onAt := 0, onClk := 25000, measurable := true }

theorem witness_LedChannels : shed (sLed 47) = false ∧ (ledCh 47 (sLed 47)).recent = [] ∧ bitsOf (rd (Led.CH_CFG 47) (sLed 47)) 2 1 = 0
    ∧ bitsOf (rd (Led.CH_CFG 47) (sLed 47)) 10 6 = 0 ∧ 8 ≤ bitsOf (rd (Led.CH_CFG 47) (sLed 47)) 15 12
    ∧ bit Led.LED_CTRL 2 (sLed 47) = false ∧ rd Led.PWM_PERIOD (sLed 47) = (sLed 47).led.period
    ∧ (ledCh 47 sMeas).measurable = true ∧ (ledCh 47 sMeas).sampled = false ∧ mayConduct 47 sMeas = true
    ∧ openCount sMeas = 4 ∧ openCount sMeas ≤ (3 : Nat) + 1 ∧ 400 ≤ (ledCh 47 sMeas).onClk
    ∧ sMeas.clk ≤ (ledCh 47 sMeas).onAt + ledClk * (ledCh 47 sMeas).onClk ∧ up.clk < wrapAt up := by decide +kernel

/-- R343, R347: half duty: d = round(0x8000 * 0x40000 / 0xFFFF) = 131074 and 25,000 of 50,000 clocks. -/
theorem test_period : ok (.pwmPeriodStart 47) (sLed 47) (fun t => rd (Led.CH_DUTY_ACT 47) t == 131074 && (ledCh 47 t).onClk == 25000
      && (ledCh 47 t).measurable) = true
    ∧ ok (.pwmPeriodStart 47) (wr (Led.CH_DUTY 47) 0xFFFF (sLed 47)) (fun t => (ledCh 47 t).onClk == 50000) = true
    ∧ ok .pwmWrap (wr Led.PWM_PERIOD 40000 up) (fun t => t.led.period == 40000 && t.clk == 2500000) = true := by decide +kernel

theorem test_sample : ok (.sinkSample 47 false 2 false false) (onCh 47 { onClk := 25000, measurable := true, openRun := 3 })
      (fun t => bit (Led.CH_STATUS 47) 2 t && fld (Led.CH_STATUS 47) 23 16 t == 2 && t.clk == 10000 && bit Led.INT_STATUS 0 t) = true
    ∧ ok (.sinkSample 47 true 2 false false) (onCh 47 { onClk := 25000, measurable := true, openRun := 3 })
      (fun t => !bit (Led.CH_STATUS 47) 2 t) = true
    ∧ ok (.ledShortHard 47) sMeas (fun t => !mayConduct 47 t && bit (Led.CH_STATUS 47) 5 t && t.clk == 20000) = true
    ∧ ok (.chClear 47 .host) (put [(Led.CH_STATUS 47, 2 ^ 10 + 2 ^ 6 + 2 ^ 5 + 2 ^ 4 + 2 ^ 2)] (sLed 47))
      (fun t => rd (Led.CH_STATUS 47) t == 4) = true := by decide +kernel

/-- A reference pending when the counter stands at pos clocks. -/
def sRef (pos : Nat) (track : Nat) : State := { put [(Led.LED_CTRL, track)] up with
  clk := 50 * pos
  led := { refPending := true } }

theorem witness_LedChannels_reference : (sRef 16 2).led.refPending = true ∧ (sRef 49984 2).clk < wrapAt (sRef 49984 2)
    ∧ phaseError 16 50000 = 16 ∧ phaseError 49984 50000 = -16 ∧ phaseError 0 50000 = 0 ∧ phaseError 17 50000 = 17 := by decide +kernel

/-- R348: to 16 clocks an error is tracked, above that it is snapped. -/
theorem test_reference : ok .phaseReference (sRef 16 2) (fun t => t.led.stretch == 16 && t.led.zeroAt == 0) = true
    ∧ ok .phaseReference (sRef 49984 2) (fun t => t.led.stretch == 0 && t.led.zeroAt == 50 * 49984) = true
    ∧ ok .phaseReference (sRef 17 2) (fun t => t.led.zeroAt == 850 && rd Led.PHASE_SNAPS t == 1) = true
    ∧ ok .phaseReference (sRef 16 0) (fun t => t.led.zeroAt == 800 && rd Led.PHASE_SNAPS t == 1) = true := by decide +kernel

/-- Thermistor 7 from 70 to 90 degC down to a half (64 * 128); its table reads 80 degC (1280) everywhere. -/
def sTherm (code : Nat) : State := put [(Led.TH_CFG 7, 1 + 70 * 256 + 90 * 65536 + 64 * 2 ^ 24), (Led.TH_LUT (code / 256), 1280),
  (Led.TH_LUT (code / 256 + 1), 1280), (Adc.HK_RESULT 9, code + 65536)] up

theorem witness_LedChannels_derate : bit (Led.TH_CFG 7) 0 (sTherm 64225) = true ∧ (rd (Adc.HK_RESULT 9) (sTherm 64225)).testBit 16 = true
    ∧ rd (Adc.HK_RESULT 9) (sTherm 64225) % 65536 = 64225 ∧ bit (Led.TH_CFG 0) 0 (sTherm 64225) = false
    ∧ max (sTherm 1311).clk ((sTherm 1311).led.derateAt + realNs 100000000) + timeClk ≤ kget 0 9 (sTherm 1311).adc.hkWhen + realNs oneSecond := by
  decide +kernel

/-- R355: the target at 80 degC is 0x8000 - (0x8000 - 0x2000) / 2 = 0x5000, neared by 0x200. -/
theorem test_derate : derateTarget 7 1280 (sTherm 30000) = 0x5000
    ∧ ok .derateUpdate (sTherm 30000) (fun t => rd (Led.TH_STATUS 7) t == 1280 + 65536 * 0x7E00 && thFactor 7 t == 0x7E00) = true
    ∧ ok .derateUpdate (sTherm 1310) (fun t => bit Led.TH_FAULTS 15 t && thFactor 7 t == 0x2000) = true := by decide +kernel

/-- 24.5 V across a channel at full current and full duty: 245 * 800 * 0x40000 / 2621440 = 19,600 mW. -/
def sPow (lim : Nat) : State := put [(Led.CH_DUTY_ACT 47, 0x40000), (Led.CH_CURRENT 47, 800), (Led.CH_STATUS 47, 245 * 65536),
  (Led.SINK_PWR_LIMIT, lim)] (onCh 47 { powSeen := true, curr := 800, onClk := 50000 })
theorem test_power : sinkPower (sPow 0) = 19600
    ∧ ok .sinkPowerEstimate (sPow 9800) (fun t => rd Led.SINK_POWER t == 19600 + 65536 * 0x4000) = true
    ∧ ok .sinkPowerEstimate (setFld Led.SINK_POWER 31 16 0x7F00 (sPow 19600)) (fun t => globalScale t == 0x8000) = true := by decide +kernel

/-- The loop runs to a target of 1.5 V, steps of 8 up, limits 100 to 200, code 150; channel 47's minimum is v. -/
def sHr (v : Option Nat) : State := put [(Led.CH_CFG 47, 0x8801), (Led.HR_CTRL, 1 + 15 * 256 + 10 * 65536 + 8 * 2 ^ 24),
  (Led.HR_LIMITS, 100 + 200 * 65536), (Led.HR_ADJ, 150)] (onCh 47 { hrMin := v })

theorem witness_LedChannels_headroom : bit Led.HR_CTRL 0 (sHr none) = true ∧ bit Led.HR_STATUS 11 (sHr none) = false
    ∧ hrChannels (put [(Led.CH_CFG 47, 0x8001)] (sHr none)) = [] ∧ hrChannels (sHr (some 14)) = [47]
    ∧ bit (Led.CH_STATUS 47) 8 (put [(Led.CH_STATUS 47, 256)] (sHr none)) = true
    ∧ minOf ((hrChannels (sHr (some 21))).filterMap fun q => (ledCh q (sHr (some 21))).hrMin) = some 21
    ∧ bit (Led.CH_STATUS 47) 8 (sHr (some 21)) = false := by decide +kernel

theorem test_headroom : ok .headroomUpdate (sHr (some 14)) (fun t => rd Led.HR_ADJ t == 158 && fld Led.HR_STATUS 7 0 t == 14) = true
    ∧ ok .headroomUpdate (sHr (some 20)) (fun t => rd Led.HR_ADJ t == 150) = true
    ∧ ok .headroomUpdate (sHr (some 21)) (fun t => rd Led.HR_ADJ t == 149 && t.clk == 100000000) = true
    ∧ ok .headroomUpdate (put [(Led.CH_STATUS 47, 256)] (sHr none)) (fun t => rd Led.HR_ADJ t == 158 && !bit Led.HR_STATUS 8 t) = true
    ∧ ok .headroomUpdate (put [(Led.CH_CFG 47, 0x8001)] (sHr none)) (fun t => rd Led.HR_ADJ t == 150 && bit Led.HR_STATUS 8 t) = true := by decide +kernel

/-- Converter 1 with this trigger source, LAST 15, 2 conversions in each of slots 0 and 15. -/
def sConv (trig : Nat) (c : Conv) : State := setConv 1 c (put [(Adc.CONV_CTRL 1, 1 + trig * 2 + 15 * 16), (Adc.SLOT 1 15, 0x105)] up)
def sHk (i : Nat) : State := let s := put [(Adc.ADC_CTRL, 2)] up
  { s with adc := { s.adc with hkNext := i } }

theorem witness_Converters : bit (Adc.CONV_CTRL 1) 0 (sConv 1 {}) = true ∧ underCal 1 (sConv 1 {}) = false
    ∧ fld (Adc.CONV_CTRL 1) 2 1 (sConv 0 {}) = 0 ∧ fld (Adc.CONV_CTRL 1) 2 1 (sConv 1 {}) = 1
    ∧ bit (Adc.CONV_STATUS 1) 1 (sConv 1 {}) = false ∧ bit (Adc.CONV_STATUS 1) 1 (put [(Adc.CONV_STATUS 1, 3)] (sConv 1 {})) = true
    ∧ avgOf 1 15 (sConv 1 {}) = 1 ∧ avgOf 1 0 (sConv 1 {}) = 0 ∧ hkMay 1 (sHk 31) = true ∧ (sHk 31).power.tripped = false
    ∧ (sHk 31).adc.lastHot = false ∧ (sHk 31).adc.hkNext = 31 := by decide +kernel

theorem test_converter : ok (.convGo 1 .host) (sConv 0 {}) (fun t => (convAt 1 t).slot == some 0 && bit Adc.ADC_STATUS 1 t) = true
    ∧ ok (.convGo 1 .host) (sConv 1 {}) (fun t => (convAt 1 t).slot.isNone) = true
    ∧ ok (.adcTrigger 1) (sConv 1 { fired := true, slot := some 3 }) (fun t => bit (Adc.CONV_STATUS 1) 1 t && (convAt 1 t).slot == some 3) = true
    ∧ ok (.adcTrigger 1) (put [(Adc.CONV_STATUS 1, 3)] (sConv 1 { fired := true, slot := some 3 })) (fun t => rd (Adc.TRIG_LOST 1) t == 1) = true
    ∧ ok (.conversionDone 1 [7, 8]) (sConv 0 { slot := some 15 }) (fun t => rd (Adc.RESULT 1 15) t == 2 ^ 31 + 8 && (convAt 1 t).slot.isNone
      && (convAt 1 t).fifo.map AdcEntry.code == [8] && bit Adc.INT_STATUS 1 t && t.clk == 10000) = true
    ∧ ok (.conversionDone 1 [9]) (put [(Adc.ADC_OFF_TRIM 1, 0xFFFE)] (sConv 0 { slot := some 0 })) (fun t =>
      rd (Adc.RESULT 1 0) t == 2 ^ 31 + 7 && (convAt 1 t).slot == some 1) = true
    ∧ ok (.fifoPop 1 .renro) (sConv 0 { fifo := [⟨1, 0, 0, false, 0⟩, ⟨2, 0, 1, false, 0⟩] }) (fun t =>
      (convAt 1 t).fifo.map AdcEntry.code == [2]) = true
    ∧ ok (.hkConversion 1 0x8000) (sHk 0) (fun t => rd (Adc.HK_RESULT 0) t == 0x18000 && rd Sys.VIN_NOW t == 50000 && t.adc.hkNext == 1) = true
    ∧ ok (.hkConversion 1 5) (sHk 31) (fun t => t.adc.hkNext == 0) = true
    ∧ nextInput 11 = 16 := by decide +kernel

/-- All checks pass: 48 V, 25 degC, a mask. -/
def sCal (mask : Nat) : State := put [(Red.RED_STATUS, 0), (Sys.VIN_NOW, 48000), (Adc.HK_RESULT 29, 65536 + 38164), (Adc.CAL_CHANNELS, mask),
  (Adc.CAL_VREF_CERT, 2500000), (Adc.CAL_ISET_CERT, 2000000)] up
def sCalRun (r : CalRun) (s : State) : State := { put [(Adc.CAL_STATUS, 1)] s with cal := { run := some r, runSeq := r.seq } }
def rRef : CalRun := ⟨0, 5, 0, false, false, 2500000, 0, 1, 0, .measure, 0, 0, 0, 0, [], [], [], [], [], 0, 400⟩
def rJig : CalRun := { rRef with mode := 2, mask := 2, ch := 1 }

theorem witness_CalibrationRuns : bit Adc.CAL_STATUS 0 (sCalRun rRef up) = true ∧ (sCal 2).cal.run = none
    ∧ bit Adc.CAL_STATUS 0 (sCal 2) = false ∧ (calCheck 0 ⟨2500000, 0, false, 0⟩ (sCal 0)).1 = none
    ∧ (calCheck 1 ⟨2550000, 1900000, false, 5⟩ (sCal 2)).1 = none ∧ (calCheck 2 ⟨2450000, 2100000, false, 5⟩ (sCal 2)).1 = none
    ∧ (sCalRun rRef up).cal.run = some rRef ∧ rRef.mode = 0 ∧ rRef.step = 1 ∧ (64 : BitVec 32).toNat ≤ 64 ∧ rJig.mode ≠ 0
    ∧ rJig.pulse = 0 ∧ bit Adc.CAL_STATUS 1 (put [(Adc.CAL_STATUS, 2)] up) = true
    ∧ vrefInUse (put [(Adc.VREF_TRIM, 0xFE0000)] up) = 0 ∧ vrefTarget (put [(Adc.VREF_TRIM, 0xFE0000)] up) = -2 := by decide +kernel

/-- R372: the checks in their order, with their details. -/
theorem test_cal_checks : (calCheck 1 ⟨2500000, 2000000, false, 0⟩ (sCal 0)).1 = some (1, 0)
    ∧ (calCheck 1 ⟨2500000, 2000000, false, 0⟩ (put [(Red.RED_STATUS, 3)] (sCal 2))).1 = some (2, 3)
    ∧ (calCheck 0 ⟨2500000, 0, false, 0⟩ (put [(Sys.VIN_NOW, 35999)] (sCal 2))).1 = some (3, 0)
    ∧ (calCheck 0 ⟨2550001, 0, false, 0⟩ (sCal 0)).1 = some (5, 25)
    ∧ (calCheck 1 ⟨2500000, 2000000, true, 0⟩ (sCal 2)).1 = some (6, 127)
    ∧ (calCheck 1 ⟨2500000, 2000000, false, 2⟩ (sCal 2)).1 = some (7, 1)
    ∧ (calCheck 2 ⟨2500000, 2000000, false, 2⟩ (sCal 2)).1 = some (8, 1) := by decide +kernel

theorem test_cal_runs : ok (.calStartRef .host 2500000) (sCal 0) (fun t => bit Adc.CAL_STATUS 0 t && rd Adc.CAL_VREF_MEAS t == 2500000) = true
    ∧ ok (.calStartRef .host 2600000) (sCal 0) (fun t => rd Adc.CAL_RESULT t == 5 + 256 * 50 + 65536 && !bit Adc.CAL_STATUS 0 t) = true
    ∧ ok (.calStartJig .host 2500000 2000000 false 5) (sCal 10) (fun t => (t.cal.run.map CalRun.ch) == some 1) = true
    ∧ ok (.calStartOpen .host 2500000 2000000 false 5) (sCalRun rJig (sCal 2)) (fun t => bit Adc.ADC_ERR 0 t && t.cal.run == some rJig) = true
    ∧ ok (.calPulse 7 0 0) (sCalRun rJig (sCal 2)) (fun t => t.cal.run == some { rJig with pulse := 1, sum := 7, pulseAt := 10000000 } && t.clk == 10000000) = true
    ∧ ok (.calPulse 64 0 0) (sCalRun rRef (sCal 0)) (fun t => t.cal.run == some { rRef with step := 2, refTrims := [-64] }) = true
    ∧ ok (.calPulse 65 0 0) (sCalRun rRef (sCal 0)) (fun t => t.cal.run.isNone && rd Adc.CAL_RESULT t % 256 == 10) = true
    ∧ ok (.calAbort .host) (sCalRun rRef (sCal 0)) (fun t => rd Adc.CAL_RESULT t == 9 + 65536 * 5) = true
    ∧ ok .vrefRampStep (put [(Adc.CAL_STATUS, 2), (Adc.VREF_TRIM, 0xFE0000)] up) (fun t => rd Adc.VREF_TRIM t == 0xFE00FF
      && bit Adc.CAL_STATUS 1 t) = true := by decide +kernel


/-! #### The other clauses of these statements -/

/-- FREEZE holds the src of the last period. -/
def sFrz : State := put [(Led.LED_CTRL, 5), (Led.CH_DUTY 47, 0)] (onCh 47 { src := 0x8000 })

theorem witness_LedChannels_more : bit Led.LED_CTRL 2 sFrz = true ∧ sFrz.led.written = false ∧ shed sFrz = false
    ∧ up.led.refPending = false ∧ bit (Led.TH_CFG 7) 0 up = false
    ∧ (usedRegs 47 (nextStart 47 (sLed 47)) (sLed 47)).2.1.testBit 10 = false
    ∧ bit Led.LED_CTRL 1 (sRef 17 2) = true ∧ bit Led.LED_CTRL 1 (sRef 16 0) = false := by decide +kernel

/-- R343: the held level goes on although CH_DUTY is 0 by now. -/
theorem test_freeze : ok (.pwmPeriodStart 47) sFrz (fun t => rd (Led.CH_DUTY_ACT 47) t == 131074 && (ledCh 47 t).src == 0x8000) = true
    ∧ ok .phaseReference up (fun t => t.led == up.led) = true := by decide +kernel

/-- A converter under calibration; one triggered by the PWM at clock 100; a full FIFO. -/
def sUnder : State := sCalRun rRef (sConv 0 {})
def sPwmT : State := put [(Adc.CONV_TRIG_CFG 1, 100 * 4096)] (sConv 2 {})
def sFifo : State := sConv 0 { slot := some 15, fifo := List.replicate 64 ⟨1, 0, 0, false, 0⟩ }

theorem witness_Converters_more : underCal 1 sUnder = true ∧ bit (Adc.CONV_CTRL 1) 0 sUnder = true
    ∧ fld (Adc.CONV_CTRL 1) 2 1 sUnder = 0 := by decide +kernel

theorem witness_Converters_pwm : pwmTrigger 1 sPwmT = some 5000 ∧ fld (Adc.CONV_CTRL 1) 2 1 sPwmT = 2
    ∧ fld (Adc.CONV_CTRL 1) 2 1 (sConv 3 {}) = 3 ∧ (convAt 1 (sConv 3 {})).slot = none ∧ 64 ≤ (convAt 1 sFifo).fifo.length
    ∧ (convAt 1 (sConv 1 { fired := true, slot := some 3 })).fired = true := by decide +kernel

theorem test_converters_more : ok (.convGo 1 .host) sUnder (fun t => rd (Adc.TRIG_LOST 1) t == 1 && (convAt 1 t).slot.isNone) = true
    ∧ ok (.adcTrigger 1) sPwmT (fun t => (convAt 1 t).slot == some 0 && 5000 ≤ t.clk) = true
    ∧ ok (.adcTrigger 1) (sConv 3 {}) (fun t => (convAt 1 t).slot == some 0) = true
    ∧ ok (.conversionDone 1 [7, 8]) sFifo (fun t => rd (Adc.FIFO_LOST 1) t == 1 && (convAt 1 t).fifo.length == 64) = true := by
  decide +kernel
/-! ### Event recorder and check-value units -/

def rec0 (code sev : Nat) : StagedRec := stamp ⟨code, sev, 1, 0, []⟩ (some 7) up
/-- A recorder with these records staged and a flush under way; slots 0 to 2 permanent. -/
def sRec (q : RecSt) : State := { put [(Rec.REC_STATUS, 2), (Rec.REC_PERM_ACT, 3), (Rec.REC_RING_HEAD, 9), (Rec.REC_NEXT_SEQ, 8)] up with rcd := q }
/-- The commit of the oldest record has begun. -/
def sCom (q : List StagedRec) : State := sRec { staged := q, commitFrom := some 0 }
def sLog (code sev : Nat) : State := put [(Rec.HOST_LOG_CODE, code + 65536 * sev), (Rec.HOST_LOG_PAYLOAD 6, 0xAABB)] (sRec {})

theorem witness_EventRecorder : (sRec {}).rcd.arriving = [] ∧ (List.replicate 255 (rec0 1 1)).length < 256 ∧ recScanning (sRec {}) = false ∧ recFrozen (sRec {}) = false
    ∧ 256 ≤ (List.replicate 256 (rec0 1 1)).length ∧ mayCommit (sCom [rec0 1 1]) = true ∧ (sCom [rec0 1 1]).rcd.lost = 0 ∧ (sCom [rec0 1 1]).rcd.clearing = none
    ∧ rd Rec.REC_PERM_COUNT (sRec {}) < rd Rec.REC_PERM_ACT (sRec {})
    ∧ rd Rec.REC_PERM_ACT (sRec {}) ≤ rd Rec.REC_PERM_COUNT (put [(Rec.REC_PERM_COUNT, 3)] (sRec {}))
    ∧ rd Rec.REC_RING_HEAD (sRec {}) + 1 < storeSlots ∧ recDirect (sRec {}) = false ∧ (0xC1EB : BitVec 16) ≠ 0xC1EA
    ∧ bit Rec.REC_CTRL 1 (sRec {}) = false ∧ recClearing (sRec {}) = false
    ∧ bit Rec.REC_CTRL 1 (put [(Rec.REC_CTRL, 2)] up) = true ∧ recFrozen (put [(Rec.REC_STATUS, 1)] up) = true
    ∧ recScanning (put [(Rec.REC_STATUS, 8)] up) = true ∧ fld Rec.HOST_LOG_CODE 15 0 (sLog 0xDFF 3) = 0xDFF
    ∧ fld Rec.HOST_LOG_CODE 18 16 (sLog 0xDFF 3) = 3 := by decide +kernel

theorem test_enter : ok (.recordEnter 0x0801 3 1 4 [9]) (sRec {}) (fun t => (t.rcd.staged.map StagedRec.seq) == [some 8]
      && rd Rec.REC_NEXT_SEQ t == 9 && recFlushing t && t.rcd.staged.map StagedRec.source == [0x413]) = true
    ∧ ok (.recordEnter 0x0801 3 1 4 [9]) (sRec { staged := List.replicate 256 (rec0 1 1) }) (fun t => rd Rec.REC_LOST t == 1
      && t.rcd.lostFirst == 0x0801 && rd Rec.REC_NEXT_SEQ t == 8) = true
    ∧ ok .hostLogSubmit (sLog 0xDFF 3) (fun t => (t.rcd.staged.map StagedRec.code) == [0xDFF]
      && ((t.rcd.staged.head?.map StagedRec.payload).getD []).drop 24 == [0xBB, 0xAA, 0, 0]) = true
    ∧ ok .hostLogSubmit (sLog 0xD7F 3) (fun t => t.rcd.staged.isEmpty && bit Rec.REC_ERR 0 t) = true := by decide +kernel

theorem test_commit : ok .recordCommit (sCom [rec0 1 1]) (fun t => kget [] 0 t.rcd.store == recBytes (rec0 1 1)
      && slotState (kget [] 0 t.rcd.store) == 1 && rd Rec.REC_PERM_COUNT t == 1 && !recFlushing t && t.clk == 18000) = true
    ∧ ok .recordCommit (put [(Rec.REC_PERM_COUNT, 3), (Rec.REC_RING_HEAD, 131071)] (sCom [rec0 1 1])) (fun t =>
      rd Rec.REC_RING_HEAD t == 3 && bit Rec.REC_STATUS 4 t) = true
    ∧ (recBytes (rec0 1 1)).length = 64 := by decide +kernel

theorem test_clear : ok (.recClear .host 0xC1EA) (put [(Rec.REC_PERM_CFG, 5)] (sRec {})) (fun t => recClearing t
      && t.rcd.erase == some (786432000, 5)) = true
    ∧ ok (.recClear .host 0xC1EB) (sRec {}) (fun t => t.rcd.erase.isNone && bit Rec.REC_ERR 0 t) = true
    ∧ ok .clearDone (put [(Rec.REC_STATUS, 4)] (sRec { staged := [rec0 0x0C01 1], erase := some (4000, 5) })) (fun t => rd Rec.REC_PERM_ACT t == 5
      && t.rcd.store == [] && recFlushing t && t.rcd.staged.length == 1 && t.clk == 4000) = true := by decide +kernel

theorem test_recorder_control : ok (.recDirectWrite true) (put [(Rec.REC_STATUS, 0)] (sRec { staged := [rec0 1 1] })) (fun t => recFlushing t) = true
    ∧ ok (.recFreeze true) (sRec { staged := [rec0 1 1] }) (fun t => recFrozen t && !mayCommit t) = true
    ∧ ok (.recFreeze false) (put [(Rec.REC_CTRL, 2), (Rec.REC_STATUS, 1)] (sRec { staged := [rec0 1 1] })) (fun t => !recFrozen t && mayCommit t) = true
    ∧ ok .recFreezeTimeout (put [(Rec.REC_STATUS, 1), (Rec.REC_CTRL, 2)] (sRec {})) (fun t => !recFrozen t && t.clk == 600000000000) = true
    ∧ ok .flushTimer (sRec {}) (fun t => t.rcd.lastFlush == t.clk) = true
    ∧ ok .recFlush (sRec { staged := [rec0 1 1] }) (fun t => recFlushing t) = true
    ∧ ok (.recRead 0) (sRec { store := [(0, recBytes (rec0 1 1))] }) (fun t => rd Rec.REC_READ_STATE t == 2 ^ 31 + 1
      && rd (Rec.REC_READ_DATA 0) t == 7) = true
    ∧ ok .recScanDone (put [(Rec.REC_STATUS, 8)] (sRec { store := [(3, recBytes (rec0 1 1))] })) (fun t =>
      (t.rcd.staged.map fun r => (r.code, r.seq)) == [(0x0C04, some 8)] && rd Rec.REC_NEXT_SEQ t == 9) = true := by decide +kernel

theorem witness_CheckValueUnits : (0 : Fin 20).val < 16 ∧ slicesOn up = true ∧ (19 : Fin 20).val = 19
    ∧ (3 : Fin 4).val ≠ crcAlg 0 up ∧ (0 : Fin 4).val = crcAlg 0 up := by decide +kernel

/-- R398: the check of the ASCII digits 1 to 9. -/
theorem test_crc_checks : crcOf 0 ((List.range 9).map fun i => BitVec.ofNat 8 (0x31 + i)) = 0xCBF43926
    ∧ crcOf 1 ((List.range 9).map fun i => BitVec.ofNat 8 (0x31 + i)) = 0xE3069283
    ∧ crcOf 2 ((List.range 9).map fun i => BitVec.ofNat 8 (0x31 + i)) = 0x29B1
    ∧ crcOf 3 ((List.range 9).map fun i => BitVec.ofNat 8 (0x31 + i)) = 0xF4 := by decide +kernel

theorem test_crc_units : ok (.crcFeed16 16 .host 0x3231) (put [(Crc.CRC_VALUE 16, 0xFFFFFFFF)] up) (fun t =>
      rd (Crc.CRC_VALUE 16) t == crcFeed 0 0xFFFFFFFF [0x31, 0x32] && rd (Crc.CRC_BYTES 16) t == 2) = true
    ∧ ok (.crcFeed8 19 .host 0x31) up (fun t => t.regs == up.regs) = true
    ∧ ok (.crcFeed32 0 .host 0x34333231) { put [(Crc.CRC_CFG 0, 2)] up with crcBusy := [(0, 55)] } (fun t =>
      rd (Crc.CRC_VALUE 0) t == crcFeed 2 (crcRaw 0 up) [0x31, 0x32, 0x33, 0x34] && t.clk == 80 && kget 0 0 t.crcBusy == 120) = true
    ∧ ok (.crcCfgWrite 0 .host 3 true) (put [(Crc.CRC_BYTES 0, 5)] up) (fun t => rd (Crc.CRC_CFG 0) t == 7
      && rd (Crc.CRC_VALUE 0) t == 0 && rd (Crc.CRC_BYTES 0) t == 0) = true
    ∧ ok (.crcValueWrite 0 .renro 0x12345) (put [(Crc.CRC_CFG 0, 2)] up) (fun t => rd (Crc.CRC_VALUE 0) t == 0x2345) = true
    ∧ ok (.crcInit 0 .renro) (put [(Crc.CRC_CFG 0, 2)] up) (fun t => rd (Crc.CRC_VALUE 0) t == 0xFFFF) = true := by decide +kernel


/-! #### The other clauses of these statements -/

theorem witness_EventRecorder_more : (sRec {}).rcd.entered = 0 ∧ (sCom [rec0 1 1, rec0 2 1]).rcd.staged = rec0 1 1 :: [rec0 2 1]
    ∧ rd Rec.REC_RING_HEAD (put [(Rec.REC_RING_HEAD, 131071)] up) + 1 = storeSlots ∧ recFlushing (sRec {}) = true
    ∧ bit Rec.REC_CTRL 1 (put [(Rec.REC_CTRL, 2)] (sRec {})) = true ∧ (sRec { staged := [rec0 1 1] }).rcd.staged ≠ []
    ∧ (sRec { erase := some (4000, 5) }).rcd.erase = some (4000, 5) ∧ 5 < 2 ^ 17 ∧ bit Rec.REC_CTRL 0 (sRec {}) = false
    ∧ beingCommitted 0 (sCom [rec0 1 1]) = true ∧ beingCommitted 1 (sCom [rec0 1 1]) = false
    ∧ slotState (8 :: (recBytes (rec0 1 1)).drop 1) = 2 ∧ (sCom [rec0 1 1]).rcd.commitFrom ≠ none := by decide +kernel

theorem test_recorder_more : ok (.recClear .host 0xC1EA) (sCom [rec0 1 1]) (fun t => recClearing t && t.rcd.erase.isNone
      && t.rcd.clearing.isSome && t.rcd.staged.length == 1) = true
    ∧ ok (.recFreeze true) (sCom [rec0 1 1]) (fun t => !recFrozen t && mayCommit t) = true
    ∧ ok (.recRead 2) (sRec { store := [(2, 8 :: (recBytes (rec0 1 1)).drop 1)] }) (fun t => rd Rec.REC_CORRUPT t == 1
      && rd Rec.REC_READ_STATE t == 2 ^ 31 + 2) = true
    ∧ ok .recFlush (sCom [rec0 1 1]) (fun t => t.rcd == (sCom [rec0 1 1]).rcd) = true := by decide +kernel

theorem witness_CheckValueUnits_more : slicesOn State.reset = false := by decide +kernel
/-! ### Host interface, start-up, update, power -/

/-- An image of one section, 16 bytes at 0x10000000 with execute permission, and one entry. -/
def imgBody : List Byte := p8 0x10000000 ++ p4 128 ++ p4 16 ++ p8 16 ++ p4 5 ++ p4 0
  ++ (p8 0x10000004 ++ p4 1024 ++ p4 16 ++ p4 0 ++ p4 0 ++ p8 0) ++ List.replicate 16 0xAB
def imgHeadB (build : Nat) : List Byte := [0x42, 0x58, 0x49, 0x4D] ++ p2 1 ++ p2 64 ++ p4 1 ++ p4 0 ++ p4 1 ++ p4 64 ++ p4 1 ++ p4 96
  ++ p8 build ++ p4 144 ++ p4 0 ++ p4 0 ++ p8 0
def imgB : List Byte := imgHeadB 77 ++ p4 (crc32c (imgHeadB 77 ++ p4 0 ++ imgBody)) ++ imgBody
/-- The image lies at 0x20000; tables may be made. -/
def sImg : State := let s := mem 0x20000 imgB (put [(Mmu.ASID_TABLE_BASE 0, renroBase), (Mmu.ASID_TABLE_BASE 4, renroBase)] up)
  { s with host := { s.host with nextTable := renroBase + 0x80000 } }
/-- As sImg, without the image. -/
def sMap : State := { sImg with dram := [] }
def sMbx (m : Mbx) : State := { up with host := { up.host with mbx := some m } }
def sLoaded : State := { up with host := { up.host with images := [(5, some ⟨9, 1, 77, false, []⟩)] } }

theorem witness_image : imgB.length = 144 ∧ imageBad imgB = none ∧ imageBad (imgB.set 20 1) = some (0x3C, 0xFFFF)
    ∧ (sectionsOf imgB).map Section.va = [0x10000000] := by decide +kernel

theorem witness_MailboxCommands : shed up = false ∧ (sMbx ⟨0, [], false⟩).host.mbx ≠ none ∧ up.host.mbx = none ∧ up.boot.quartz = false
    ∧ fld Sys.BOOT_STAGE 3 0 State.reset < 5 ∧ ([1, 2] : List Nat).length ≤ 16 ∧ frozen up = false ∧ 5 ≤ fld Sys.BOOT_STAGE 3 0 up
    ∧ (1 : BitVec 4) ≠ 0 ∧ isDram 0x20000 144 = true ∧ sound 0x20000 144 sImg = true ∧ memBytes 0x20000 144 sImg = imgB
    ∧ (63 : BitVec 6) ≠ 0 ∧ imageAt 63 sImg = none ∧ asidUsed 9 sImg = false ∧ imageAt 5 sLoaded = some ⟨9, 1, 77, false, []⟩
    ∧ imageBusy 5 sLoaded = false ∧ rangeOk 65535 0x1000 0x1000 = true ∧ mayMap (renroBase - 0x1000) 0x1000 = true ∧ mayMap renroBase 0x1000 = false
    ∧ permOk 0x0C = true ∧ permOk 0x18 = false ∧ (List.range 5).all (fun t => (fqAt t sImg).open_.isEmpty) = true
    ∧ streamOpen 0x6B = true ∧ streamOpen 0x6C = false ∧ groupOk 2 0xEFFFFFFF = true ∧ groupOk 3 0xE0000000 = false
    ∧ hostDram 0x20000 0 = true ∧ sound 0x20000 0 up = true := by decide +kernel

/-- Slice 0 alone: a page of the section and its tables. -/
theorem test_load_image : ok (.loadImage 0x20000 144 1 63 9 0x100) sImg (fun t => t.host.mbx == some ⟨0, [63, 9], false⟩
      && memBytes 0x1000 16 t == List.replicate 16 0xAB && (imageAt 63 t).isSome
      && rd (Sched.IMG_CFG 0 63) t == 9 + 65536 + 2 ^ 31) = true := by decide +kernel

theorem test_map : (mapPages 9 0x2000 0x0C 0 (fun _ i => 0x5000 + 4096 * i) 1 sMap).isSome = true
    ∧ ok (.mapCmd 9 0x2000 0x5000 0x1000 0x0C) sMap (fun t => t.host.mbx == some ⟨0, [], false⟩) = true
    ∧ ok (.mapCmd 9 0x2001 0x5000 0x1000 0x0C) sMap (fun t => t.host.mbx == some ⟨2, [], false⟩ && t.dram == sMap.dram) = true
    ∧ ok (.unmapCmd 9 0x2000 0x1000) sMap (fun t => t.host.mbx == some ⟨0, [], true⟩ && bit (Mmu.TLBI_CTRL 4) 2 t) = true := by decide +kernel

theorem test_mailbox : ok .continueCmd (sMbx ⟨0, [], false⟩) (fun t => bit Hst.HOST_ERR 5 t) = true
    ∧ ok .continueCmd State.reset (fun t => t.host.mbx == some ⟨4, [], false⟩) = true
    ∧ ok .continueCmd (put [(Sys.BOOT_STAGE, 0x106)] up) (fun t => t.boot.contSent) = true
    ∧ ok .mbxDone (sMbx ⟨5, [1, 2], false⟩) (fun t => rd (Hst.MBX_RESP 1) t == 2 && fld Hst.MBX_STATUS 15 8 t == 5 && bit Hst.INT_STATUS 0 t) = true
    ∧ ok (.unloadImage 5) sLoaded (fun t => (imageAt 5 t).isNone && t.host.mbx == some ⟨0, [], true⟩) = true
    ∧ ok (.setStream 0x6B 7 1) up (fun t => rd (Iommu.STE 0x6B) t == 0x10007) = true
    ∧ ok (.joinGroup 2 0xE0000001 [9]) up (fun t => t.host.groups == [(2, 0xE0000001, [9])]) = true
    ∧ ok (.readTlv [1, 0, 0, 0, 2]) up (fun t => t.host.mbx == some ⟨0, [1, 2], false⟩) = true
    ∧ ok (.readSummary 1 0x20000) { up with boot := { up.boot with latestSummary := [7, 8] } } (fun t => memBytes 0x20000 2 t == [7, 8]
      && t.host.mbx == some ⟨0, [2], false⟩) = true
    ∧ ok (.clearSummary 2) { up with boot := { up.boot with firstSummary := [1], latestSummary := [7, 8] } } (fun t =>
      t.boot.firstSummary == [1] && t.boot.latestSummary.isEmpty) = true := by decide +kernel

/-- Vector 61's condition: some enabled GPI flag or other; here vector 0 by scan-out. -/
def sVec (mask : Nat) : State := put [(Scan.INT_STATUS 0 0, 1), (Scan.INT_ENABLE 0 0, 1), (Hst.MSIX 0 0, 0x1000), (Hst.MSIX 0 2, 0xCAFE),
  (Hst.MSIX 0 3, mask)] up
def sServ : State := { up with host := { up.host with inService := [0] } }
def sNtf (tail head : Nat) : State := put [(Hst.NTF_CFG, 0x104), (Hst.NTF_TAIL, tail), (Hst.NTF_HEAD, head), (Hst.NTF_BASE, 0x9000)] up

theorem witness_HostAccessAndInputs : hostAsleep .host up = false ∧ 0xFFFFFFF0 + 16 ≤ 2 ^ 32
    ∧ touches (rd Hst.BAR2_BASE up) 16 renroBase dumpBase = false ∧ sound 0 16 up = true
    ∧ touches (rd Hst.BAR2_BASE up) 16 renroBase dumpEnd = false
    ∧ touches (rd Hst.BAR2_BASE (put [(Hst.BAR2_BASE, 0x1C0000000)] up) + 0x2C000000) 1 renroBase dumpBase = true
    ∧ (0x700000000 : Word).toNat % 0x40000000 = 0 ∧ inService 0 (sVec 0) = false ∧ vecCond 0 (sVec 0) = true ∧ vecMasked 0 (sVec 0) = false
    ∧ vecMasked 0 (sVec 1) = true ∧ inService 0 sServ = true ∧ vecCond 0 sServ = false ∧ bit Hst.NTF_CFG 8 (sNtf 3 3) = true
    ∧ ntfFull (sNtf 3 3) = false ∧ ntfFull (sNtf 15 0) = true ∧ bit (Sys.GPI_CFG 7) 0 (put [(Sys.GPI_CFG 7, 0x20001)] up) = true
    ∧ gpiFilter 7 (put [(Sys.GPI_CFG 7, 0x20001)] up) = 2 ∧ gpiActive 7 up = false
    ∧ gpiActive 7 (put [(Sys.GPI_STATUS 7, 2), (Sys.GPI_STUCK 7, 5)] up) = true ∧ fld (Sys.GPI_STUCK 7) 15 0 (put [(Sys.GPI_STUCK 7, 5)] up) = 5 := by
  decide +kernel

theorem test_host_access : ok (.hostUr 2) up (fun t => bit Hst.HOST_ERR 0 t) = true
    ∧ ok (.bar2Access true 0x40 0 [1, 2] .clean) up (fun t => memBytes 0x3F 4 t == [0, 1, 2, 0]) = true
    ∧ ok (.bar2Access true 0x2C000000 0 [1, 2] .clean) (put [(Hst.BAR2_BASE, 0x1C0000000)] up) (fun t => t.dram.isEmpty && bit Hst.HOST_ERR 2 t) = true
    ∧ ok (.bar2Access false 0x40 2 [] .clean) (mem 0x40 [3, 4] up) (fun t => kget [] 0 t.host.readOut == [3, 4]) = true
    ∧ ok (.bar2BaseWrite .host 0x40000000) up (fun t => rd Hst.BAR2_BASE t == 0x40000000) = true
    ∧ ok (.bar2BaseWrite .host 0x20000000) up (fun t => bit Hst.HOST_ERR 3 t) = true
    ∧ ok (.msixMessage 0) (sVec 0) (fun t => hostBytes 0x1000 4 t == [0xFE, 0xCA, 0, 0] && inService 0 t) = true
    ∧ ok (.msixMessage 0) (sVec 1) (fun t => t.hostMem.isEmpty && bit (Hst.MSIX_PBA 0) 0 t) = true
    ∧ ok (.vecAck 0) sServ (fun t => !inService 0 t) = true
    ∧ ok (.notificationWrite 2 [5]) (sNtf 15 3) (fun t => rd Hst.NTF_TAIL t == 0 && hostBytes (0x9000 + 64 * 15) 10 t == [2, 0, 0, 0, 0, 0, 0, 0, 5, 0]) = true
    ∧ ok (.notificationWrite 2 [5]) (sNtf 15 0) (fun t => rd Hst.NTF_LOST t == 1) = true := by decide +kernel

theorem test_inputs : ok (.hostLinkUp 4 4) up (fun t => fld Hst.HOST_STATUS 2 0 t == 4 && fld Hst.HOST_STATUS 6 4 t == 4) = true
    ∧ ok .aonCopyRefresh (put [(Sys.PF_COUNT, 6)] up) (fun t => kget 0 Sys.PF_COUNT.addr t.host.aon == 6 && t.clk == 10000000) = true
    ∧ ok (.dumpAck .host 0xA5C3) up (fun t => bit Sys.DUMP_STATUS 1 t) = true
    ∧ ok (.dumpAck .host 0xA5C2) up (fun t => !bit Sys.DUMP_STATUS 1 t) = true
    ∧ ok (.gpiSample 7 true) { put [(Sys.GPI_CFG 7, 0x20001)] up with gpi := [(7, { count := 1 })] } (fun t => (gpiAt 7 t).count == 2 && !gpiActive 7 t) = true
    ∧ ok (.gpiSample 7 true) { put [(Sys.GPI_CFG 7, 0x20001)] up with gpi := [(7, { count := 2 })] } (fun t => gpiActive 7 t && rd (Sys.GPI_ACTS 7) t == 1) = true
    ∧ ok (.gpiStuck 7) (put [(Sys.GPI_STATUS 7, 2), (Sys.GPI_STUCK 7, 5)] up) (fun t => gpiIsStuck 7 t && t.clk == 50000000) = true := by decide +kernel

theorem test_host_reset : ok (.hostReset 1) (put [(Hst.NTF_TAIL, 3), (Dma.CH_CTRL 64, 1)] (sMbx ⟨0, [], false⟩)) (fun t => t.host.mbx.isNone
      && rd Hst.NTF_TAIL t == 0 && !chEnabled 64 t) = true := by decide +kernel

/-- A firmware header that passes: version 7, SEC_VERSION 3, two chunks of 65,537 bytes. -/
def fwHead : List Byte := [0x54, 0x4B, 0x46, 0x57] ++ p2 1 ++ p2 256 ++ p2 0x8032 ++ p1 2 ++ p1 5 ++ p4 7 ++ p2 3 ++ p2 1 ++ p2 1 ++ p2 0 ++ p4 0
  ++ p4 65537 ++ p2 2 ++ List.replicate 222 0
/-- Slot A runs; slot B is as given; the header lies at 0x20000. -/
def sUpd (x : FwSlot) : State := putSlot 1 x (mem 0x20000 fwHead (put [(Upd.UPD_STATUS, 0x500), (Upd.UPD_ARG0, 0x20000), (Upd.UPD_ARG1, 1)] up))
def slotIn (st : Nat) : FwSlot := { st := st, header := fwHead, marks := [(0, 1), (1, 1)] }
def sTrial : State := put [(Upd.UPD_STATUS, 4), (Upd.UPD_CTRL, 1), (Upd.TRIAL_HEALTHY, 60)] up

theorem witness_UpdateCommands : bit Upd.UPD_CMD_STATUS 0 (put [(Upd.UPD_CMD_STATUS, 1)] up) = true ∧ bit Upd.UPD_CMD_STATUS 0 (sUpd {}) = false
    ∧ inactive (sUpd {}) = 1 ∧ (slotOf 1 (sUpd {})).st = stEmpty ∧ isDram 0x20000 256 = true ∧ memBytes 0x20000 256 (sUpd {}) = fwHead
    ∧ imageFault fwHead true true true (sUpd {}) = none ∧ imageFault fwHead true true false (sUpd {}) = some (3, 4)
    ∧ imageFault fwHead true true true (put [(Upd.SEC_COUNTER, 4)] up) = some (4, 5)
    ∧ 1 < chunkCount fwHead ∧ chunkLen fwHead 1 = 1 ∧ allMarked (slotIn stDownloaded) = true ∧ (sUpd (slotIn stVerified)).red.switch = none
    ∧ mayGoLive 1 true (sUpd (slotIn stVerified)) = false ∧ mayGoLive 1 false (sUpd (slotIn stVerified)) = true ∧ running (sUpd {}) = 0
    ∧ mayConfirm sTrial = true ∧ bit Upd.UPD_CTRL 0 sTrial = true ∧ onTrial sTrial = true ∧ 60 ≤ rd Upd.TRIAL_HEALTHY sTrial
    ∧ holdReached ⟨1, [], [], false⟩ up = true := by decide +kernel

theorem test_update_begin : ok (.beginCmd .host true true) (sUpd {}) (fun t => (slotOf 1 t).st == stDownloading && (slotOf 1 t).header == fwHead
      && rd Upd.CHUNKS_TOTAL t == 2) = true
    ∧ ok (.beginCmd .host false true) (sUpd {}) (fun t => (t.upd.cmd.map UpdRun.result) == some 4 && (slotOf 1 t).st == stEmpty) = true
    ∧ ok (.verify .host true true true) (sUpd (slotIn stDownloaded)) (fun t => (t.upd.cmd.map fun r => (r.result, r.st)) == some (0, stVerified)) = true
    ∧ ok (.verify .host true false true) (sUpd (slotIn stDownloaded)) (fun t => (t.upd.cmd.map fun r => (r.result, r.st)) == some (3, stBad)) = true
    ∧ ok (.abortCmd .host) (sUpd (slotIn stDownloaded)) (fun t => (slotOf 1 t).st == stEmpty) = true
    ∧ ok (.abortCmd .host) (put [(Upd.UPD_CMD_STATUS, 1)] (sUpd (slotIn stDownloaded))) (fun t => bit Upd.UPD_ERR 0 t) = true
    ∧ ok (.chunk .host false) (sUpd { slotIn stDownloading with marks := [] }) (fun t => (t.upd.cmd.map UpdRun.result) == some 6) = true := by decide +kernel

theorem test_activate : ok (.activate .host) (sUpd (slotIn stVerified)) (fun t => fld Sys.RESET_CAUSE 3 0 t == 4 && t.upd.boot.active == 1 && t.upd.boot.trial
      && (slotOf 1 t).st == stTrial) = true
    ∧ ok (.activate .host) (put [(Upd.UPD_ARG1, 0)] (sUpd (slotIn stVerified))) (fun t => (t.upd.act.map Activation.target) == some 1
      && t.upd.boot.active == 0) = true
    ∧ ok (.activate .host) (sUpd (slotIn stDownloaded)) (fun t => (t.upd.cmd.map UpdRun.result) == some 2) = true
    ∧ ok (.revertCmd .host) (sUpd (slotIn stConfirmed)) (fun t => fld Sys.RESET_CAUSE 3 0 t == 4 && t.upd.boot.active == 1 && !t.upd.boot.trial) = true
    ∧ ok .activationPause { up with upd := { up.upd with act := some ⟨1, [], [], false⟩ } } (fun t => bit Led.LED_CTRL 2 t
      && (t.upd.act.map Activation.paused) == some true && t.upd.boot.active == 1) = true := by decide +kernel

theorem test_confirm : ok (.confirm .host) sTrial (fun t => !onTrial t && t.upd.boot.active == 0 && (slotOf 0 t).st == stConfirmed) = true
    ∧ ok .autoConfirm sTrial (fun t => !onTrial t) = true
    ∧ ok .autoConfirm (put [(Upd.TRIAL_HEALTHY, 59)] sTrial) (fun t => onTrial t) = true
    ∧ ok .trialHealthySecond sTrial (fun t => rd Upd.TRIAL_HEALTHY t == 61 && t.clk == 10000000000) = true
    ∧ ok .updCmdDone { put [(Upd.UPD_CMD_STATUS, 1)] (sUpd (slotIn stDownloaded)) with upd := { (sUpd (slotIn stDownloaded)).upd with
        cmd := some ⟨3, 0, 0x0B02, [], 1, 0, stVerified⟩ } } (fun t => (slotOf 1 t).st == stVerified && rd Upd.UPD_CMD_STATUS t == 0
      && bit Upd.INT_STATUS 0 t) = true
    ∧ ok (.settingsWrite 100 [.timeWait 700]) { up with upd := { up.upd with urgent := true } } (fun t => t.upd.cur.timeWait == 600
      && t.upd.gens.map Generation.gen == [1]) = true := by decide +kernel

def u0 : StartUp := ⟨true, true, [], none, 0, [], [], 1, 1, 0⟩
def sBoot (n : Nat) : State := put [(Sys.BOOT_STAGE, n)] State.reset
def sFat (n : Nat) (restart : Bool) : State := { up with
  boot := { up.boot with fatalStep := n }
  upd := { up.upd with cur := { up.upd.cur with fatalRestart := restart } } }
def sDip (trip : Bool) : State := { up with power := { up.power with warnAt := some 0, tripped := trip } }

theorem witness_StartUpFatalsPower : shed (sBoot 3) = false ∧ frozen (sBoot 3) = false ∧ (sBoot 3).boot.quartz = false ∧ bootHeld (sBoot 3) = false
    ∧ bootStep (sBoot 3) = 3 ∧ bootStep (sBoot 8) = 8 ∧ bit Red.RED_CTRL 0 (put [(Red.RED_CTRL, 0x301)] (sBoot 8)) = true
    ∧ bit Red.RED_CTRL 0 (sBoot 8) = false ∧ ilkInLive (sBoot 8) = false ∧ (sBoot 8).red.handover = none ∧ bootHeld (sBoot 0x106) = true
    ∧ (5 : Fin 6).val ≠ 0 ∧ (3 : Fin 5) ≠ 0 ∧ (0 : Fin 5) ≠ 1 ∧ frozen (sFat 1 false) = true ∧ (sFat 1 false).rcd.erase = none
    ∧ (sFat 1 false).poison = [] ∧ (sFat 1 false).boot.fatalStep = 1 ∧ dumpWaits (sFat 1 false) = false ∧ (sFat 7 false).boot.fatalStep = 7
    ∧ (sFat 7 false).upd.cur.fatalRestart = false ∧ (sFat 7 true).upd.cur.fatalRestart = true ∧ bitsOf (0x5A170001 : BitVec 32).toNat 31 16 = 0x5A17
    ∧ (sDip false).power.warnAt = some 0 ∧ (sDip true).power.tripped = true ∧ (sDip false).power.tripped = false := by decide +kernel

theorem test_start_up : ok (.startupStep u0) (sBoot 3) (fun t => rd Sys.BOOT_STAGE t == 4 && rd (Mmu.MMU_CTRL 4) t == 1
      && rd (Mmu.ASID_TABLE_BASE 1) t == renroBase + 0x80000) = true
    ∧ ok (.startupStep u0) (sBoot 8) (fun t => rd Sys.BOOT_STAGE t == 9 && roleOf t == rSolo && ownsSinks t) = true
    ∧ ok (.startupStep u0) (put [(Red.RED_CTRL, 0x301)] (sBoot 8)) (fun t => roleOf t == rSeeking && !ownsSinks t) = true
    ∧ ok (.startupStep u0) (sBoot 0x106) (fun t => rd Sys.BOOT_STAGE t == 0x106) = true := by decide +kernel

theorem test_fatal : ok (.fatal 5 [1]) up (fun t => t.boot.fatalStep == 1 && fld Sys.FATAL_CAUSE 7 0 t == 5 && roleOf t == rFatal) = true
    ∧ ok (.fatal 5 [1]) (sFat 1 false) (fun t => t.boot.later == 1 && rd Sys.FATAL_COUNT t == 1) = true
    ∧ ok .watchdogExpiry up (fun t => fld Sys.FATAL_CAUSE 7 0 t == 3 && t.clk == 5000000000) = true
    ∧ ok (.supervisorDisagree 0 1 4) up (fun t => fld Sys.FATAL_CAUSE 7 0 t == 2 && rd Red.LANE_VOTES t == 0x410) = true
    ∧ ok (.sysReset .host 0x5A170001) (mem 5 [6] up) (fun t => t.dram == [(5, 6)] && fld Sys.RESET_CAUSE 3 0 t == 1 && rd Sys.BOOT_STAGE t == rd Sys.BOOT_STAGE State.reset) = true
    ∧ ok (.sysReset .host 0x5A160001) up (fun t => rd Sys.BOOT_STAGE t == 9) = true := by decide +kernel

theorem test_power_loss : ok (.powerFail 33999 5) up (fun t => shed t && rd Sys.PF_COUNT t == 1) = true
    ∧ ok .shutOff (mem 5 [6] up) (fun t => t.power.off && t.dram.isEmpty) = true
    ∧ ok .powerRestored (sDip false) (fun t => fld Sys.RESET_CAUSE 3 0 t == 3 && t.power.restored == some 0 && t.clk == 100000000) = true
    ∧ ok .powerRestored (sDip true) (fun t => bit Sys.PWR_STATUS 0 t && t.power.tripped) = true
    ∧ ok (.powerOnReset 11500000) { up with power := { off := true } } (fun t => rd Sys.HOLDUP_UF t == 2200 && !bit Sys.PWR_STATUS 4 t) = true
    ∧ ok (.vinOver 75001) up (fun t => bit Sys.PWR_STATUS 2 t) = true
    ∧ ok (.ovCutoff 82000) up (fun t => bit Sys.PWR_STATUS 3 t) = true
    ∧ ok .ovRejoin (put [(Sys.PWR_STATUS, 8)] up) (fun t => !bit Sys.PWR_STATUS 3 t) = true
    ∧ ok (.pwrClear .host) (put [(Sys.VIN_NOW, 48000), (Adc.HK_RESULT 24, 65536 + 38164)] up) (fun t => rd Sys.VIN_MIN t == 48000
      && rd Sys.TEMP_PEAK t == 400) = true := by decide +kernel


/-! #### The other clauses of these statements -/

/-- The image with an uncorrectable line; a busy image; a table entry that is uncorrectable. -/
def sImgP : State := { sImg with poison := [(0x20000 / 64, true)] }
def sBusy : State := setDesc 0 { st := .ready, image := 5 } sLoaded
def sTabP : State := { sMap with poison := [((renroBase + 72) / 64, true)] }
def sTlbGo : State := put [(Mmu.TLBI_CTRL 1, 4)] (sMbx ⟨0, [], true⟩)

theorem witness_MailboxCommands_more : tlbiGoing sTlbGo = true ∧ sTlbGo.host.mbx = some ⟨0, [], true⟩ ∧ sImgP.latent = []
    ∧ poisoned 0x20000 144 sImgP = true ∧ imageAt 5 sBusy = some ⟨9, 1, 77, false, []⟩ ∧ imageBusy 5 sBusy = true
    ∧ imageAt 6 sLoaded = none ∧ rangeOk 9 0x2001 0x1000 = false ∧ (0x2000 ∈ pagesOf 0x2000 0x1000)
    ∧ (renroBase + 72 ∈ tableReads 0 9 0x2000 (putCmd (cmdWords 3 [9, 0x2000, 0x5000, 0x1000, 0xC]) sTabP))
    ∧ poisoned (renroBase + 72) 8 (putCmd (cmdWords 3 [9, 0x2000, 0x5000, 0x1000, 0xC]) sTabP) = true ∧ sTabP.latent = []
    ∧ isDram 0x800000000 144 = false ∧ ¬ ((2 : Word).toNat ≤ 1) ∧ 3 < (4 : Word).toNat
    ∧ ({ up with boot := { up.boot with quartz := true } } : State).boot.quartz = true ∧ sMap.poison = [] ∧ sMap.latent = [] := by
  decide +kernel

theorem test_mailbox_more : ok .mbxDone sTlbGo (fun t => t.host.mbx == some ⟨0, [], true⟩) = true
    ∧ ok (.loadImage 0x20000 144 0 63 9 0x100) sImg (fun t => t.host.mbx == some ⟨2, [], false⟩) = true
    ∧ ok (.loadImage 0x20000 144 1 63 9 0x100) sImgP (fun t => t.host.mbx == some ⟨5, [], false⟩) = true
    ∧ ok (.unloadImage 5) sBusy (fun t => t.host.mbx == some ⟨4, [], false⟩ && (imageAt 5 t).isSome) = true
    ∧ ok (.unloadImage 6) sLoaded (fun t => t.host.mbx == some ⟨2, [], false⟩) = true
    ∧ ok (.mapCmd 9 0x2000 0x5000 0x1000 0xC) sTabP (fun t => t.host.mbx == some ⟨4, [], false⟩ && fld Sys.FATAL_CAUSE 7 0 t == 1) = true
    ∧ ok (.leaveGroup 2 0xE0000001 [9]) { up with host := { up.host with groups := [(2, 0xE0000001, [9, 8])] } } (fun t =>
      t.host.groups == [(2, 0xE0000001, [8])]) = true
    ∧ ok (.joinGroup 3 0xE0000001 []) up (fun t => t.host.mbx == some ⟨2, [], false⟩) = true
    ∧ ok (.setStream 0x6C 7 1) up (fun t => t.host.mbx == some ⟨2, [], false⟩) = true
    ∧ ok (.readSummary 2 0x20000) up (fun t => t.host.mbx == some ⟨2, [], false⟩) = true
    ∧ ok (.clearSummary 4) up (fun t => t.host.mbx == some ⟨2, [], false⟩) = true := by decide +kernel

/-- A vector in service whose condition stands, masked or not; a fault record to copy; an input off. -/
def sServV (mask : Nat) : State := { sVec mask with host := { (sVec mask).host with inService := [0] } }
def sCopy : State := setFq 3 { recs := [fR], toCopy := [fR] } (sNtf 3 3)
def sB2 : State := put [(Hst.BAR2_BASE, 0x1C0000000)] up

theorem witness_HostAccess_more : poisoned 0x40 2 { mem 0x40 [3, 4] up with poison := [(1, true)] } = true
    ∧ touches (rd Hst.BAR2_BASE sB2 + 0x2C000000) 2 renroBase dumpEnd = true ∧ 2 ^ 32 < 0xFFFFFFFF + 2
    ∧ (0x20000000 : Word).toNat % 0x40000000 ≠ 0 ∧ inService 0 (sServV 0) = true ∧ vecCond 0 (sServV 0) = true
    ∧ vecMasked 0 (sServV 0) = false ∧ vecMasked 0 (sServV 1) = true ∧ vecCond 0 up = false ∧ inService 0 up = false
    ∧ nextCopy sCopy = some (3, fR) ∧ nextCopy up = none ∧ bit Hst.NTF_CFG 8 up = false ∧ bit (Sys.GPI_CFG 7) 0 up = false
    ∧ gpiIsStuck 7 up = false := by decide +kernel

theorem test_host_more : ok (.bar2Access false 0x2C000000 2 [] .clean) sB2 (fun t => kget [] 0 t.host.readOut == [] && bit Hst.HOST_ERR 2 t) = true
    ∧ ok (.bar2Access true 0xFFFFFFFF 0 [1, 2] .clean) up (fun t => t.dram == []) = true
    ∧ ok (.bar2Access false 0x40 2 [] .clean) { mem 0x40 [3, 4] up with poison := [(1, true)] } (fun t => bit Hst.HOST_ERR 4 t) = true
    ∧ ok (.vecAck 0) (sServV 0) (fun t => inService 0 t && hostBytes 0x1000 4 t == [0xFE, 0xCA, 0, 0]) = true
    ∧ ok (.vecAck 0) (sServV 1) (fun t => !inService 0 t && bit (Hst.MSIX_PBA 0) 0 t && t.hostMem == []) = true
    ∧ ok (.notificationWrite 1 []) sCopy (fun t => (fqAt 3 t).toCopy == [] && rd Hst.NTF_TAIL t == 4
      && hostBytes (0x9000 + 64 * 3 + 8) 33 t == faultBytes fR ++ [3]) = true
    ∧ ok (.notificationWrite 1 []) (sNtf 3 3) (fun t => rd Hst.NTF_TAIL t == 3) = true
    ∧ ok (.notificationWrite 9 []) (sNtf 3 3) (fun t => rd Hst.NTF_TAIL t == 3) = true
    ∧ ok (.gpiSample 7 true) up (fun t => t.gpi == up.gpi) = true
    ∧ ok (.gpiSample 7 false) { put [(Sys.GPI_CFG 7, 0x20001)] up with gpi := [(7, { count := 1 })] } (fun t =>
      (gpiAt 7 t).count == 0 && rd (Sys.GPI_OVERSPEED 7) t == 1) = true := by decide +kernel

/-- A live activation under way, at its pause or before; settings that are not urgent. -/
def sAct (paused : Bool) : State := { sUpd (slotIn stVerified) with upd := { (sUpd (slotIn stVerified)).upd with act := some ⟨1, [], [], paused⟩ } }
def sSet (today : Nat) : State := { up with upd := { up.upd with dirty := true, bytesToday := today } }

theorem witness_UpdateCommands_more : (slotIn stDownloading).header = memBytes 0x20000 256 (sUpd (slotIn stDownloading))
    ∧ (slotOf 1 (sUpd (slotIn stTrial))).st = stTrial ∧ isDram 0x800000000 256 = false
    ∧ chunkCount (slotIn stDownloading).header ≤ 2 ∧ isDram 0x20000 65536 = true ∧ allMarked { slotIn stDownloaded with marks := [] } = false
    ∧ mayConfirm up = false ∧ frozen (sAct true) = false ∧ (sAct true).upd.act = some ⟨1, [], [], true⟩
    ∧ (settingsHop (applySettings [] (sSet 0))).upd.dirty = true ∧ (settingsHop (applySettings [] (sSet 0))).upd.urgent = false
    ∧ todayBytes (settingsHop (applySettings [] (sSet 0))) + 100 ≤ dailyBytes
    ∧ dailyBytes < todayBytes (settingsHop (applySettings [] (sSet 67108864))) + 100
    ∧ mayGoLive 1 false (sUpd (slotIn stConfirmed)) = true ∧ onTrial up = false := by decide +kernel

theorem test_update_more : ok (.beginCmd .host true false) (sUpd {}) (fun t => (t.upd.cmd.map UpdRun.result) == some 6 && (slotOf 1 t).st == stEmpty) = true
    ∧ ok (.beginCmd .host true true) (sUpd (slotIn stDownloading)) (fun t => (t.upd.cmd.map UpdRun.payload) == some (p4 7 ++ p1 0)) = true
    ∧ ok (.beginCmd .host true true) (sUpd (slotIn stTrial)) (fun t => (t.upd.cmd.map UpdRun.result) == some 2) = true
    ∧ ok (.confirm .host) up (fun t => (t.upd.cmd.map UpdRun.result) == some 2) = true
    ∧ ok (.activationResume false true [] none) (sAct true) (fun t => fld Sys.RESET_CAUSE 3 0 t == 4 && (slotOf 1 t).st == stBad) = true
    ∧ ok (.activationResume true true [] none) (sAct false) (fun t => t.upd == (sAct false).upd) = true
    ∧ ok .activationPause (sAct true) (fun t => t.upd == (sAct true).upd) = true
    ∧ ok (.settingsWrite 100 []) (sSet 0) (fun t => t.upd.gens.length == 1 && 100000000000 ≤ t.clk) = true
    ∧ ok (.settingsWrite 100 []) (sSet 67108864) (fun t => t.upd.gens == [] && t.upd.dirty) = true := by decide +kernel

/-- An earlier dump that is valid and not acknowledged. -/
def sKept : State := put [(Sys.DUMP_STATUS, 1)] (mem dumpRegion [0x54, 0x4B, 0x44, 0x50] (sFat 1 false))

theorem witness_StartUp_more : dumpWaits sKept = true ∧ sKept.boot.fatalStep = 1 ∧ bootStep (sBoot 6) = 6 ∧ bootStep (sBoot 7) = 7
    ∧ nodesReady (sBoot 7) = false ∧ mayCommit (sDip false) = false ∧ (sDip false).rcd.erase = none
    ∧ holdupUf 11000000 < 2200 := by decide +kernel

theorem test_start_up_more : ok (.startupStep u0) (sBoot 6) (fun t => bootStep t == 7) = true
    ∧ ok (.startupStep u0) (sBoot 7) (fun t => bootStep t == 7) = true
    ∧ ok (.startupStep u0) { sBoot 3 with boot := { (sBoot 3).boot with quartz := true } } (fun t => bootStep t == 3) = true
    ∧ ok (.dumpWritten []) sKept (fun t => t.boot.dumpKept && fld Sys.DUMP_STATUS 15 8 t == 1) = true
    ∧ ok (.powerOnReset 11000000) { up with power := { off := true } } (fun t => bit Sys.PWR_STATUS 4 t) = true := by decide +kernel
end Sys2Proof.Tests
end

section
/-! SUPPORT. mfs and mts (R73, R74, R138): which numbers are special registers, and what an access of a
number that is one, that is privileged, or that is absent does. -/

namespace Sys2Proof.Machine

/-! ### What the body of an instruction that issues does, from the state it runs in -/

/-- Under `Issues`, only what the body does in the state after the fetch counts. -/
theorem issue_congr {c : CtxId} {len : Nat} {s : State} (h : Issues c len s) {bad : Bool}
    (hb : bad = false) {body body' : Nat → State → State}
    (hbody : body (ctxNo c) (fetched c len s) = body' (ctxNo c) (fetched c len s)) :
    issue c len bad body s = issue c len bad body' s := by
  rw [issue_eq h hb, issue_eq h hb, hbody]

/-- R87: an exception that the body raises ends the task, EXCEPTION with its cause. -/
theorem terminateExc_answers {c : CtxId} {len : Nat} {s : State} (h : Issues c len s) {bad : Bool}
    (hb : bad = false) (cause kind : Nat) :
    ∃ t, issue c len bad (fun k u => terminateExc k cause kind u) s = .next t
      ∧ TaskEnds (ctxNo c) 2 cause s t :=
  ⟨_, issue_eq h hb _, taskEnds_ended
    (terminateExc_ends _ cause kind s _ (by rw [fetched_ctx h])) s.clk s.pending⟩

/-! ### The special registers (R73) -/

/-- A special register shows contexts, descriptors, the slices' commit points and the time alone. -/
theorem srRead_congr {s t : State} (hctx : t.ctxs = s.ctxs) (hdesc : t.descs = s.descs)
    (hsl : t.slices = s.slices) (hcnt : t.cnt = s.cnt) (hclk : t.clk = s.clk)
    (hup : t.upBase = s.upBase) (k n : Nat) : srRead k n t = srRead k n s := by
  have hslice (sl : Nat) : sliceAt sl t = sliceAt sl s := by simp [sliceAt, hsl]
  have htime : srTime t = srTime s := by simp [srTime, nowNs, hcnt]
  simp only [srRead, ctxAt_congr hctx, descAt_congr hdesc, hslice, htime, hclk, hup]

/-- The fetch of the instruction leaves the special registers. -/
theorem srRead_fetched {c : CtxId} {len : Nat} {s : State} (h : Issues c len s) (k n : Nat) :
    srRead k n (fetched c len s) = srRead k n s := by
  have hs := fetched_same h
  apply srRead_congr <;> rw [hs]

/-- R73, R138: the special registers that mts may not write. -/
def readOnlySr : List Nat := [0, 1, 2, 4, 5, 0x10, 0x11, 0x12, 0x13, 0x20, 0x21]

/-- R73: the special registers are sr.status (3) and those that mts may not write. -/
theorem srRead_isSome_iff (k n : Nat) (s : State) : (srRead k n s).isSome ↔
    n = 3 ∨ n ∈ readOnlySr := by
  unfold srRead readOnlySr
  dsimp only
  split <;> simp_all

theorem srRead_lt {k n : Nat} {s : State} (h : (srRead k n s).isSome) : n < 0x100 := by
  have readOnly_lt : ∀ m ∈ readOnlySr, m < 0x100 := by decide
  obtain rfl | hn := (srRead_isSome_iff k n s).mp h
  · decide
  · exact readOnly_lt n hn

/-! ### Accesses by number (R74) -/

/-- What mfs and mts share: a privileged number raises PRIV, an absent one ILLEGAL; `use` is given the
value of a register that exists. -/
def srAccess (n : Nat) (use : Nat → Nat → State → State) (k : Nat) (s : State) : State :=
  if 0x100 ≤ n then raisePriv k s
  else match srRead k n s with
    | some v => use v k s
    | none => raiseIllegal k s

/-- R138: mts writes SAT of sr.status and raises PRIV at every other register. -/
def mtsUse (f : SysF) (k : Nat) (s : State) : State :=
  if f.num.toNat = 3 then retireWith 4 (fun x => { x with sat := (gReg f.ra x).getLsbD 0 }) k s
  else raisePriv k s

theorem exec_mfs (c : CtxId) (f : SysF) (s : State) : exec (.mfs c f) s
    = issue c 4 (f.ra ≠ 0) (srAccess f.num.toNat fun v =>
        retireWith 4 fun x => x.setG f.rd.val (BitVec.ofNat 64 v)) s := rfl

theorem exec_mts (c : CtxId) (f : SysF) (s : State) : exec (.mts c f) s
    = issue c 4 (f.rd ≠ 0) (srAccess f.num.toNat fun _ => mtsUse f) s := by
  change execMts c f s = _
  unfold execMts
  congr 1
  funext k u
  unfold srAccess mtsUse
  cases srRead k f.num.toNat u <;> rfl

section
variable {c : CtxId} {s : State} {n : Nat} {bad : Bool}

theorem srAccess_present (h : Issues c 4 s) (hb : bad = false) {v : Nat}
    (hv : srRead (ctxNo c) n s = some v) (use : Nat → Nat → State → State) :
    issue c 4 bad (srAccess n use) s = issue c 4 bad (use v) s := by
  have hn : n < 0x100 := srRead_lt (by rw [hv]; rfl)
  refine issue_congr h hb ?_
  simp only [srAccess, if_neg (Nat.not_le.mpr hn), srRead_fetched h, hv]

theorem srAccess_priv (h : Issues c 4 s) (hb : bad = false) (hn : 0x100 ≤ n)
    (use : Nat → Nat → State → State) :
    ∃ t, issue c 4 bad (srAccess n use) s = .next t ∧ TaskEnds (ctxNo c) 2 cPriv s t := by
  rw [issue_congr h hb (if_pos hn)]
  exact terminateExc_answers h hb cPriv 0

theorem srAccess_absent (h : Issues c 4 s) (hb : bad = false) (hn : n < 0x100)
    (hv : srRead (ctxNo c) n s = none) (use : Nat → Nat → State → State) :
    ∃ t, issue c 4 bad (srAccess n use) s = .next t ∧ TaskEnds (ctxNo c) 2 cIllegal s t := by
  have hbody : srAccess n use (ctxNo c) (fetched c 4 s)
      = raiseIllegal (ctxNo c) (fetched c 4 s) := by
    simp only [srAccess, if_neg (Nat.not_le.mpr hn), srRead_fetched h, hv]
  rw [issue_congr h hb hbody]
  exact terminateExc_answers h hb cIllegal 0

/-- R74: no access reaches a number that is privileged or absent. -/
theorem srAccess_refuses (h : Issues c 4 s) (hb : bad = false) (use : Nat → Nat → State → State)
    {i : Instr} (hi : exec i s = issue c 4 bad (srAccess n use) s) :
    (0x100 ≤ n → Answers i s (TaskEnds (ctxNo c) 2 4 s))
    ∧ (n < 0x100 → n ≠ 3 → n ∉ readOnlySr →
        Answers i s (TaskEnds (ctxNo c) 2 3 s)) := by
  unfold Answers
  rw [hi]
  refine ⟨fun hn => srAccess_priv h hb hn use, fun hn h3 hro => srAccess_absent h hb hn ?_ use⟩
  rw [← Option.not_isSome_iff_eq_none, srRead_isSome_iff]
  exact not_or.mpr ⟨h3, hro⟩

end

/-! ### mfs and mts on a register that exists -/

theorem mfs_retires {c : CtxId} {f : SysF} {s : State} (h : Issues c 4 s) (hra : f.ra = 0) {v : Nat}
    (hv : srRead (ctxNo c) f.num.toNat s = some v) :
    Retires (.mfs c f) (ctxNo c) 4 s fun x => x.setG f.rd.val (BitVec.ofNat 64 v) := by
  have hb : decide (f.ra ≠ 0) = false := by simp [hra]
  unfold Retires Answers
  rw [exec_mfs, srAccess_present h hb hv]
  exact retire_answers h hb _

theorem mts_status_retires {c : CtxId} {f : SysF} {s : State} (h : Issues c 4 s) (hrd : f.rd = 0)
    (hn : f.num.toNat = 3) :
    Retires (.mts c f) (ctxNo c) 4 s fun x => { x with sat := (gReg f.ra x).getLsbD 0 } := by
  have hb : decide (f.rd ≠ 0) = false := by simp [hrd]
  have hv : srRead (ctxNo c) f.num.toNat s = some (statusOf (ctxAt (ctxNo c) s)) := by rw [hn]; rfl
  unfold Retires Answers
  rw [exec_mts, srAccess_present h hb hv, issue_congr h hb (if_pos hn)]
  exact retire_answers h hb _

theorem mts_readOnly_priv {c : CtxId} {f : SysF} {s : State} (h : Issues c 4 s) (hrd : f.rd = 0)
    (hn : f.num.toNat ∈ readOnlySr) :
    Answers (.mts c f) s (TaskEnds (ctxNo c) 2 4 s) := by
  have hb : decide (f.rd ≠ 0) = false := by simp [hrd]
  obtain ⟨v, hv⟩ := Option.isSome_iff_exists.mp
    ((srRead_isSome_iff (ctxNo c) f.num.toNat s).mpr (.inr hn))
  have h3 : f.num.toNat ≠ 3 := by
    intro h3
    rw [h3] at hn
    exact absurd hn (by decide)
  unfold Answers
  rw [exec_mts, srAccess_present h hb hv, issue_congr h hb (if_neg h3)]
  exact terminateExc_answers h hb cPriv 0

/-- Settles O22: a number that is a special register goes to `mfs_retires`, `mts_status_retires` or
`mts_readOnly_priv`, every other to `srAccess_refuses`. -/
theorem specialRegisters : Obligations.SpecialRegisters := by
  intro c f s h
  refine ⟨fun hra => ?_, fun hrd => ?_⟩
  · have reads {i v : Nat} (hv : srRead (ctxNo c) i s = some v) (hn : f.num.toNat = i) :=
      mfs_retires (f := f) h hra (hn ▸ hv)
    exact ⟨reads rfl, reads rfl, reads rfl, reads rfl, reads rfl, reads rfl, reads rfl, reads rfl,
      reads rfl, reads rfl, reads rfl, reads rfl,
      srAccess_refuses h (by simp [hra]) _ (exec_mfs c f s)⟩
  · exact ⟨mts_status_retires h hrd, mts_readOnly_priv h hrd,
      srAccess_refuses h (by simp [hrd]) _ (exec_mts c f s)⟩

end Sys2Proof.Machine
end

section
/-! SUPPORT. The scalar ALU, its immediate forms and the multiplies (R111 to R113): each command is
`aluReg` or `aluImm` of its row's function, and what these two do is said once. -/

namespace Sys2Proof.Machine

/-! ### The register forms and the multiplies (R111, R113) -/

theorem aluReg_retires {c : CtxId} {f : RegF} {s : State} (h : Issues c 4 s) {i : Instr}
    {bad : Bool} (hb : bad = false) {op : Word → Word → Word} (hi : exec i s = aluReg c f bad op s) :
    Retires i (ctxNo c) 4 s fun x => x.setG f.rd.val (op (gReg f.ra x) (gReg f.rb x)) := by
  unfold Retires Answers
  rw [hi]
  exact retire_answers h hb _

theorem aluOne_retires {c : CtxId} {f : RegF} {s : State} (h : Issues c 4 s) (hrb : f.rb = 0)
    {i : Instr} {op : Word → Word} (hi : exec i s = aluOne c f op s) :
    Retires i (ctxNo c) 4 s fun x => x.setG f.rd.val (op (gReg f.ra x)) :=
  aluReg_retires h (by simp [hrb]) hi

theorem clzW_eq (a : Word) :
    clzW a = BitVec.ofNat 64 (if a = 0 then 64 else 63 - a.toNat.log2) := by
  unfold clzW
  split <;> rfl

/-- Settles O1: a row's command is `aluReg` or `aluOne` of the row's function. -/
theorem scalarResults : Obligations.ScalarResults := by
  refine ⟨fun c f s h p hp => ?_, fun c f s h hrb => ?_, fun c f s h p hp => ?_⟩
  · have row : exec (p.1 c f) s = aluReg c f false p.2 s := by
      repeat (obtain rfl | hp := List.mem_cons.mp hp; · rfl)
      exact absurd hp List.not_mem_nil
    exact aluReg_retires h rfl row
  · simp only [← clzW_eq]
    exact ⟨aluOne_retires h hrb rfl, aluOne_retires (op := ctzW) h hrb rfl,
      aluOne_retires (op := popcW) h hrb rfl, aluOne_retires (op := sextW 8) h hrb rfl⟩
  · have row : exec (p.1 c f) s = aluReg c f false p.2 s := by
      repeat (obtain rfl | hp := List.mem_cons.mp hp; · rfl)
      exact absurd hp List.not_mem_nil
    exact aluReg_retires h rfl row

/-! ### The immediate forms (R105, R112) -/

theorem extLen_eq (ext : Option (BitVec 32)) : extLen ext = if ext.isSome then 8 else 4 := by
  cases ext <;> rfl

/-- R105: an extension word beside a short immediate of 0 is no bad encoding. -/
theorem extBad_eq_false {imm10 : BitVec 10} {ext : Option (BitVec 32)}
    (h : ext.isSome → imm10 = 0) : extBad imm10 ext = false := by
  cases ext with
  | none => rfl
  | some e => simp [extBad, h rfl]

section
variable {c : CtxId} {f : ImmF} {s : State} {i : Instr} {bad : Word → Bool}
  {op : Word → Word → Word}

theorem aluImm_retires (h : Issues c (extLen f.ext) s) (hx : f.ext.isSome → f.imm10 = 0)
    (hi : exec i s = aluImm c f bad op s) (hb : bad (immOf f.imm10 f.ext) = false) :
    Retires i (ctxNo c) (extLen f.ext) s fun x =>
      x.setG f.rd.val (op (gReg f.ra x) (immOf f.imm10 f.ext)) := by
  unfold Retires Answers
  rw [hi]
  exact retire_answers h (by rw [extBad_eq_false hx, hb]; rfl) _

theorem aluImm_illegal (h : Issues c (extLen f.ext) s) (hi : exec i s = aluImm c f bad op s)
    (hb : bad (immOf f.imm10 f.ext) = true) : Answers i s (TaskEnds (ctxNo c) 2 3 s) := by
  unfold Answers
  rw [hi]
  exact issue_illegal h (by rw [hb, Bool.or_true]) _

end

/-- Settles O3: a row's command is `aluImm` of the row's function; a shift's check of its immediate
(`badShift`) decides between `aluImm_retires` and `aluImm_illegal`. -/
theorem scalarImmediateResults : Obligations.ScalarImmediateResults := by
  intro c f s hx imm len
  have himm : imm = immOf f.imm10 f.ext := rfl
  have hlen : len = extLen f.ext := (extLen_eq f.ext).symm
  rw [himm, hlen]
  intro h
  refine ⟨fun p hp => ?_, fun p hp => ?_⟩
  · have row : exec (p.1 c f) s = aluImm c f anyImm p.2 s := by
      repeat (obtain rfl | hp := List.mem_cons.mp hp; · rfl)
      exact absurd hp List.not_mem_nil
    exact aluImm_retires h hx row rfl
  · have row : exec (p.1 c f) s = aluImm c f badShift (fun a i => p.2 a (shamt i)) s := by
      repeat (obtain rfl | hp := List.mem_cons.mp hp; · rfl)
      exact absurd hp List.not_mem_nil
    refine ⟨fun hlt => ?_, fun hge => aluImm_illegal h row (decide_eq_true hge)⟩
    have hsh : shamt (immOf f.imm10 f.ext) = (immOf f.imm10 f.ext).toNat := Nat.mod_eq_of_lt hlt
    rw [← hsh]
    exact aluImm_retires h hx row (decide_eq_false (Nat.not_le.mpr hlt))

end Sys2Proof.Machine
end

section
/-! SUPPORT. The vector compares (R119): the bits of the predicate that a compare writes. -/

namespace Sys2Proof.Machine

theorem packLanes_lt (w : Nat) (f : Nat → Nat) (n : Nat) : packLanes w f n < 2 ^ (w * n) := by
  induction n with
  | zero => simp [packLanes]
  | succ n ih =>
    have hlane : f n % 2 ^ w < 2 ^ w := Nat.mod_lt _ (Nat.two_pow_pos w)
    calc packLanes w f (n + 1)
      _ < 2 ^ (w * n) + f n % 2 ^ w * 2 ^ (w * n) := Nat.add_lt_add_right ih _
      _ = (f n % 2 ^ w + 1) * 2 ^ (w * n) := by rw [Nat.succ_mul, Nat.add_comm]
      _ ≤ 2 ^ w * 2 ^ (w * n) := Nat.mul_le_mul_right _ hlane
      _ = 2 ^ (w * (n + 1)) := by rw [← Nat.pow_add, Nat.mul_succ, Nat.add_comm]

/-- Bit j of lane i is bit j of what the lane was packed from. -/
theorem testBit_packLanes {w j : Nat} (hj : j < w) (f : Nat → Nat) {n i : Nat} (hi : i < n) :
    (packLanes w f n).testBit (w * i + j) = (f i).testBit j := by
  induction n with
  | zero => omega
  | succ n ih =>
    rw [packLanes, Nat.add_comm, Nat.mul_comm (f n % 2 ^ w),
      Nat.testBit_two_pow_mul_add _ (packLanes_lt w f n)]
    obtain hlt | rfl := Nat.lt_succ_iff_lt_or_eq.mp hi
    · have hpos : w * i + j < w * n :=
        calc w * i + j < w * (i + 1) := by rw [Nat.mul_succ]; omega
          _ ≤ w * n := Nat.mul_le_mul_left w hlt
      rw [if_pos hpos, ih hlt]
    · rw [if_neg (by omega), Nat.add_sub_cancel_left, Nat.testBit_mod_two_pow,
        decide_eq_true hj, Bool.true_and]

theorem testBit_b2n (v : Bool) : (b2n v).testBit 0 = v := by cases v <;> rfl

/-- R119: bit b of the predicate that a compare writes. -/
theorem getLsbD_compareMask (wide : Bool) (p : BitVec 32) (hit : Nat → Bool) {b : Nat}
    (hb : b < 32) :
    (compareMask wide p hit).getLsbD b
      = (p.getLsbD (if wide then 2 * (b / 2) else b) && hit (if wide then b / 2 else b)) := by
  have hbit (f : Nat → Nat) : (packLanes 1 f 32).testBit b = (f b).testBit 0 := by
    simpa only [Nat.one_mul, Nat.add_zero] using testBit_packLanes Nat.one_pos f hb
  rw [compareMask, BitVec.getLsbD_ofNat, hbit, testBit_b2n]
  cases wide <;> simp only [laneOn, hb, decide_true, Bool.true_and, if_true, Bool.false_eq_true,
    if_false]

section
variable {c : CtxId} {f : VecAF} {s : State} {i : Instr} {hit : Nat → Nat → Nat → Bool}

theorem vecCompare_illegal (h : Issues c (extLen f.ext) s) (hi : exec i s = vecCompare c f hit s)
    (hvd : 8 ≤ f.vd.val) : Answers i s (TaskEnds (ctxNo c) 2 3 s) := by
  unfold Answers
  rw [hi]
  exact issue_illegal h (by simp [pBad, hvd]) _

theorem vecCompare_retires (h : Issues c (extLen f.ext) s) (hi : exec i s = vecCompare c f hit s)
    (hbad : vecABad f = false) (hvd : f.vd.val < 8) :
    Retires i (ctxNo c) (extLen f.ext) s fun x =>
      x.setP f.vd.val (compareMask f.wide (x.getP f.pk.val) fun l =>
        hit (laneW f.wide) (laneA f x l) (operandB x f l)) := by
  unfold Retires Answers
  rw [hi, ← Nat.mod_eq_of_lt hvd]
  exact retire_answers h (by simp [hbad, pBad, hvd]) _

end

/-- Settles O12: a row's command is `vecCompare` of the row's comparison, and `getLsbD_compareMask`
says the bits of the predicate it writes. -/
theorem vectorCompareResults : Obligations.VectorCompareResults := by
  intro c f s hbad len k w
  have hlen : len = extLen f.ext := (extLen_eq f.ext).symm
  rw [hlen]
  intro h p hp
  have row : exec (p.1 c f) s = vecCompare c f (fun _ => p.2) s := by
      repeat (obtain rfl | hp := List.mem_cons.mp hp; · rfl)
      exact absurd hp List.not_mem_nil
  refine ⟨vecCompare_illegal h row, fun hvd => ?_⟩
  obtain ⟨t, ht, hctx, honly⟩ := vecCompare_retires h row hbad hvd
  exact ⟨t, ht, _, fun b hb => getLsbD_compareMask _ _ _ hb, hctx, honly⟩

end Sys2Proof.Machine
end

section
/-! SUPPORT. The check-value units (chapter 15): what a feed, a value write, INIT and a CRC_CFG write
leave in a unit's registers, and which register accesses of a unit the guard refuses. -/

namespace Sys2Proof.Machine

/-! ### The running value fits its register (R398, R399) -/

theorem crcPoly_lt (poly : Nat) : crcPoly poly < 2 ^ 64 := by
  unfold crcPoly
  split <;> decide

theorem crcInit_lt (poly : Nat) : crcInit poly < 2 ^ 64 := by
  unfold crcInit
  split <;> decide

theorem crcWidth_le (poly : Nat) : crcWidth poly ≤ 32 := by
  unfold crcWidth
  split <;> decide

theorem mod_crcWidth_lt (v poly : Nat) : v % 2 ^ crcWidth poly < 2 ^ 64 :=
  calc v % 2 ^ crcWidth poly
    _ < 2 ^ crcWidth poly := Nat.mod_lt _ (Nat.two_pow_pos _)
    _ ≤ 2 ^ 32 := Nat.pow_le_pow_right (by decide) (crcWidth_le poly)
    _ < 2 ^ 64 := by decide

theorem crcBits_lt {f : Nat → Nat} {b : Nat} (hf : ∀ x < b, f x < b) (n : Nat) :
    ∀ c < b, crcBits n f c < b := by
  induction n with
  | zero => exact fun _ hc => hc
  | succ n ih => exact fun c hc => ih (f c) (hf c hc)

theorem crcBitR_lt {p c : Nat} (hp : p < 2 ^ 64) (hc : c < 2 ^ 64) : crcBitR p c < 2 ^ 64 := by
  have hhalf : c / 2 < 2 ^ 64 := by omega
  unfold crcBitR
  split
  · exact Nat.xor_lt_two_pow hhalf hp
  · exact hhalf

theorem crcBitN_lt (w p c : Nat) : crcBitN w p c < 2 ^ w := by
  unfold crcBitN
  split <;> exact Nat.mod_lt _ (Nat.two_pow_pos w)

theorem crcByte_lt {poly c : Nat} (hc : c < 2 ^ 64) (b : Byte) : crcByte poly c b < 2 ^ 64 := by
  unfold crcByte
  dsimp only
  split
  · have hin : c ^^^ b.toNat < 2 ^ 64 := Nat.xor_lt_two_pow hc (by omega)
    exact crcBits_lt (fun _ hx => crcBitR_lt (crcPoly_lt poly) hx) 8 _ hin
  · -- the first bit's step brings any number into the width
    have hbit (x : Nat) : crcBitN (crcWidth poly) (crcPoly poly) x < 2 ^ 64 :=
      Nat.lt_of_lt_of_le (crcBitN_lt _ _ x)
        (Nat.pow_le_pow_right (by decide) (Nat.le_trans (crcWidth_le poly) (by decide)))
    exact crcBits_lt (fun x _ => hbit x) 7 _ (hbit _)

theorem crcFeed_lt (poly : Nat) (bs : List Byte) {c : Nat} (hc : c < 2 ^ 64) :
    crcFeed poly c bs < 2 ^ 64 := by
  induction bs generalizing c with
  | nil => exact hc
  | cons b bs ih => exact ih (crcByte_lt hc b)

/-! ### The bytes of a feed, lowest first (R399) -/

theorem byte_shiftRight {w : Nat} (v : BitVec w) (i : Nat) :
    BitVec.ofNat 8 (v.toNat / 2 ^ i) = (v >>> i).setWidth 8 := by
  apply BitVec.eq_of_toNat_eq
  simp [Nat.shiftRight_eq_div_pow]

theorem p1_toNat (v : BitVec 8) : p1 v.toNat = [v] := by simp [p1, leBytes]

theorem p2_toNat (v : BitVec 16) : p2 v.toNat = [v.setWidth 8, (v >>> 8).setWidth 8] := by
  simp [p2, leBytes, ← byte_shiftRight]

theorem p4_toNat (v : BitVec 32) : p4 v.toNat
    = [v.setWidth 8, (v >>> 8).setWidth 8, (v >>> 16).setWidth 8, (v >>> 24).setWidth 8] := by
  simp [p4, leBytes, ← byte_shiftRight, Nat.div_div_eq_div_mul]

/-! ### A unit's registers (R405) -/

section
variable (u : Nat)

@[simp] theorem crcCfg_addr : (Crc.CRC_CFG u).addr = crcBase u := rfl
@[simp] theorem crcValue_addr : (Crc.CRC_VALUE u).addr = crcBase u + 0x20 := rfl
@[simp] theorem crcBytes_addr : (Crc.CRC_BYTES u).addr = crcBase u + 0x28 := rfl

end

theorem crcUnit_not_isRec {u : Nat} (hu : u < 20) {r : Reg} (hlo : crcBase u ≤ r.addr)
    (hhi : r.addr < crcBase u + 0x100) : ¬ IsRec r := by
  unfold IsRec recBase
  unfold crcBase winBase at hlo hhi
  split at hlo <;> split at hhi <;> omega

section
variable {u : Nat} (hu : u < 20) (c : Nat) (q : List Instr) (s : State)
include hu

theorem crcCfg_ended : rd (Crc.CRC_CFG u) (ended c q s) = rd (Crc.CRC_CFG u) s :=
  rd_ended (crcUnit_not_isRec hu (by simp) (by simp)) c q s

theorem crcValue_ended : rd (Crc.CRC_VALUE u) (ended c q s) = rd (Crc.CRC_VALUE u) s :=
  rd_ended (crcUnit_not_isRec hu (by simp) (by simp)) c q s

theorem crcBytes_ended : rd (Crc.CRC_BYTES u) (ended c q s) = rd (Crc.CRC_BYTES u) s :=
  rd_ended (crcUnit_not_isRec hu (by simp) (by simp)) c q s

end

/-! ### What an operation leaves in the unit (R399 to R401) -/

section
variable (u : Nat) (s : State)

theorem rd_crcOccupy (r : Reg) (n : Nat) : rd r (crcOccupy u n s) = rd r s := rd_congr rfl r

theorem crcFeedUnit_value (bs : List Byte) :
    rd (Crc.CRC_VALUE u) (crcFeedUnit u bs s) = crcFeed (crcAlg u s) (crcRaw u s) bs := by
  have hfits : crcFeed (crcAlg u s) (crcRaw u s) bs < 2 ^ 64 := crcFeed_lt _ bs (rd_lt _ s)
  unfold crcFeedUnit
  dsimp only
  rw [rd_crcOccupy, rd_wr_other (by simp), rd_wr_same, Nat.mod_eq_of_lt hfits]

theorem crcFeedUnit_bytes (bs : List Byte) : rd (Crc.CRC_BYTES u) (crcFeedUnit u bs s)
    = (rd (Crc.CRC_BYTES u) s + bs.length) % 2 ^ 32 := by
  unfold crcFeedUnit
  dsimp only
  rw [rd_crcOccupy, rd_wr_same]
  omega

theorem crcPutUnit_value (v : Nat) :
    rd (Crc.CRC_VALUE u) (crcPutUnit u v s) = v % 2 ^ crcWidth (crcAlg u s) := by
  rw [crcPutUnit, rd_crcOccupy, rd_wr_same, Nat.mod_eq_of_lt (mod_crcWidth_lt v _)]

theorem crcPutUnit_bytes (v : Nat) :
    rd (Crc.CRC_BYTES u) (crcPutUnit u v s) = rd (Crc.CRC_BYTES u) s := by
  rw [crcPutUnit, rd_crcOccupy, rd_wr_other (by simp)]

theorem crcInitUnit_value :
    rd (Crc.CRC_VALUE u) (crcInitUnit u s) = crcInit (crcAlg u s) := by
  rw [crcInitUnit, rd_wr_other (by simp), rd_wr_same, Nat.mod_eq_of_lt (crcInit_lt _)]

theorem crcInitUnit_bytes : rd (Crc.CRC_BYTES u) (crcInitUnit u s) = 0 :=
  (rd_wr_same (Crc.CRC_BYTES u) 0 _).trans (Nat.zero_mod _)

theorem crcInitUnit_cfg : rd (Crc.CRC_CFG u) (crcInitUnit u s) = rd (Crc.CRC_CFG u) s := by
  rw [crcInitUnit, rd_wr_other (by simp), rd_wr_other (by simp)]

theorem crcAlg_congr {s t : State} (h : rd (Crc.CRC_CFG u) t = rd (Crc.CRC_CFG u) s) :
    crcAlg u t = crcAlg u s := by
  rw [crcAlg, crcAlg, fld, fld, h]

end

/-- R405: POLY and RAW of CRC_CFG. -/
def crcCfgWord (poly : Fin 4) (raw : Bool) : Nat := poly.val + 4 * b2n raw

section
variable (u : Nat) (poly : Fin 4) (raw : Bool) (s : State)

theorem crcCfgWord_lt : crcCfgWord poly raw < 8 := by
  unfold crcCfgWord b2n
  split <;> omega

theorem rd_wr_crcCfgWord :
    rd (Crc.CRC_CFG u) (wr (Crc.CRC_CFG u) (crcCfgWord poly raw) s) = crcCfgWord poly raw := by
  have := crcCfgWord_lt poly raw
  rw [rd_wr_same]
  omega

/-- The algorithm is the one that CRC_CFG now names. -/
theorem crcAlg_wr_crcCfgWord :
    crcAlg u (wr (Crc.CRC_CFG u) (crcCfgWord poly raw) s) = poly.val := by
  rw [crcAlg, fld, rd_wr_crcCfgWord, crcCfgWord, bitsOf]
  omega

theorem crcCfgWrite_eq : crcCfgWrite u poly.val raw s
    = if poly.val = crcAlg u s then wr (Crc.CRC_CFG u) (crcCfgWord poly raw) s
      else crcInitUnit u (wr (Crc.CRC_CFG u) (crcCfgWord poly raw) s) := by
  rw [crcCfgWrite, Nat.mod_eq_of_lt poly.isLt]
  rfl

theorem crcCfgWrite_cfg :
    rd (Crc.CRC_CFG u) (crcCfgWrite u poly.val raw s) = crcCfgWord poly raw := by
  rw [crcCfgWrite_eq]
  split
  · exact rd_wr_crcCfgWord u poly raw s
  · exact (crcInitUnit_cfg u _).trans (rd_wr_crcCfgWord u poly raw s)

/-- R400: a write that changes only RAW leaves the running value and the count. -/
theorem crcCfgWrite_same (h : poly.val = crcAlg u s) :
    rd (Crc.CRC_VALUE u) (crcCfgWrite u poly.val raw s) = crcRaw u s
    ∧ rd (Crc.CRC_BYTES u) (crcCfgWrite u poly.val raw s) = rd (Crc.CRC_BYTES u) s := by
  rw [crcCfgWrite_eq, if_pos h]
  exact ⟨rd_wr_other (by simp) _ s, rd_wr_other (by simp) _ s⟩

/-- R400: a write that changes POLY loads the new algorithm's initial value and clears the count. -/
theorem crcCfgWrite_changed (h : poly.val ≠ crcAlg u s) :
    rd (Crc.CRC_VALUE u) (crcCfgWrite u poly.val raw s) = crcInit poly.val
    ∧ rd (Crc.CRC_BYTES u) (crcCfgWrite u poly.val raw s) = 0 := by
  rw [crcCfgWrite_eq, if_neg h, crcInitUnit_value, crcAlg_wr_crcCfgWord]
  exact ⟨rfl, crcInitUnit_bytes u _⟩

end

/-! ### What else an operation changes -/

theorem regsBut_congr {s t : State} (h : t.regs = s.regs) (l : List Nat) : RegsBut l s t :=
  fun r _ _ => rd_congr h r

theorem regsBut_wr {l : List Nat} {r : Reg} (h : r.addr ∈ l) (v : Nat) {s t : State}
    (ht : RegsBut l s t) : RegsBut l s (wr r v t) := by
  intro q hq hl
  have hne : q.addr ≠ r.addr := fun he => hl (by rwa [he])
  exact (rd_wr_other hne v t).trans (ht q hq hl)

theorem regsBut_orReg {r : Reg} (m : Nat) {s t : State} (h : t.regs = s.regs) :
    RegsBut [r.addr] s (orReg r m t) :=
  regsBut_wr (List.mem_singleton.mpr rfl) _ (regsBut_congr h _)

theorem regsBut_ended {l : List Nat} {s t : State} (h : RegsBut l s t) (c : Nat) (q : List Instr) :
    RegsBut l s (ended c q t) := fun r hr hl => (rd_ended hr c q t).trans (h r hr hl)

theorem sameCue_ended {s t : State} (h : SameCue s t) (c : Nat) (q : List Instr) :
    SameCue s (ended c q t) := by
  simpa only [SameCue, ended_ctxs, ended_descs, ended_sched, ended_dram, ended_tlm, ended_store] using h

theorem crcFeedUnit_regsBut (u : Nat) (bs : List Byte) {s t : State} (h : t.regs = s.regs) :
    RegsBut [(Crc.CRC_VALUE u).addr, (Crc.CRC_BYTES u).addr] s (crcFeedUnit u bs t) := by
  intro r hr hl
  rw [crcFeedUnit, rd_crcOccupy]
  exact regsBut_wr (by simp) _ (regsBut_wr (by simp) _ (regsBut_congr h _)) r hr hl

/-! ### Waiting for an idle unit (R402) -/

theorem le_hopClk_clk (t : Nat) (s : State) : t ≤ (hopClk t s).clk := by
  change t ≤ s.clk + timeClk * ceilDiv (t - s.clk) timeClk
  unfold ceilDiv timeClk
  omega

/-! ### The guard (R403, R414) -/

/-- The requester may write unit u: Renro always, the host where the unit runs and is not G.CRC3. -/
def CrcOpen (who : Req) (u : Nat) (s : State) : Prop :=
  who = .renro ∨ (u < 16 ∧ slicesOn s = true) ∨ (16 ≤ u ∧ u < 19)

theorem slicesOn_congr {s t : State} (h : t.regs = s.regs) : slicesOn t = slicesOn s := by
  rw [slicesOn, slicesOn, fld, fld, rd_congr h]

theorem crcGuard_open {who : Req} {u : Nat} {s : State} (h : CrcOpen who u s) (f : State → State) :
    crcGuard u who f s = f s := by
  cases who with
  | renro => simp [crcGuard, landing]
  | host =>
    obtain h | ⟨hu, hon⟩ | ⟨hlo, hhi⟩ := h
    · cases h
    · simp [crcGuard, landing, hon, show u ≠ 19 by omega]
    · simp [crcGuard, landing, show ¬ u < 16 by omega, show u ≠ 19 by omega]

theorem crcGuard_g3 (f : State → State) (s : State) : crcGuard 19 .host f s = s := by
  simp [crcGuard, landing]

theorem crcGuard_off {u : Nat} (hu : u < 16) {s : State} (h : slicesOn s = false)
    (f : State → State) : crcGuard u .host f s = orReg Hst.HOST_ERR 2 s := by
  simp [crcGuard, landing, hu, h]

theorem bit_orReg (r : Reg) {i : Nat} (hi : i < 64) (s : State) :
    bit r i (orReg r (2 ^ i) s) = true := by
  rw [bit, orReg, rd_wr_same, Nat.testBit_mod_two_pow, Nat.testBit_or, Nat.testBit_two_pow_self,
    decide_eq_true hi, Bool.or_true, Bool.and_true]

/-- Command i is a register access of unit u: f at the instant that hop goes on to, unless the guard
refuses it. -/
structure CrcAccess (i : Instr) (u : Nat) (who : Req) (hop f : State → State) (s : State) :
    Prop where
  runs : exec i s = timed hop (crcGuard u who f) s
  regs : (hop s).regs = s.regs

namespace CrcAccess
variable {i : Instr} {u : Nat} {who : Req} {hop f : State → State} {s : State}

/-- R403: the host's access of G.CRC3 is ignored. -/
theorem g3_ignored (h : CrcAccess i u who hop f s) (hw : who = .host) (hu : u = 19) :
    Answers i s (RegsBut [] s) := by
  subst hw hu
  refine ⟨_, h.runs, regsBut_ended ?_ _ _⟩
  rw [crcGuard_g3]
  exact regsBut_congr h.regs []

/-- R414: the host's access of a slice that does not run is dropped (which blocks these are: DESIGN
CHOICE, log entry 19). -/
theorem off_dropped (h : CrcAccess i u who hop f s) (hw : who = .host) (hu : u < 16)
    (hoff : slicesOn s = false) : Answers i s fun t =>
      RegsBut [Hst.HOST_ERR.addr] s t ∧ bit Hst.HOST_ERR 1 t = true := by
  subst hw
  refine ⟨_, h.runs, ?_⟩
  rw [crcGuard_off hu ((slicesOn_congr h.regs).trans hoff)]
  refine ⟨regsBut_ended (regsBut_orReg 2 h.regs) _ _, ?_⟩
  rw [bit, rd_ended (by decide)]
  exact bit_orReg Hst.HOST_ERR (i := 1) (by decide) (hop s)

/-- An access that the guard lets through. -/
theorem lands (h : CrcAccess i u who hop f s) (ho : CrcOpen who u s) {P : State → Prop}
    (hP : P (ended (max s.clk (hop s).clk) s.pending (f (hop s)))) : Answers i s P := by
  have hopen : CrcOpen who u (hop s) := by rwa [CrcOpen, slicesOn_congr h.regs]
  refine ⟨_, h.runs, ?_⟩
  rwa [crcGuard_open hopen]

end CrcAccess

/-! ### The commands -/

section
variable (u : Fin 20) (who : Req) (s : State)

/-- R402 does not hold INIT at a busy unit (DEDUCED, log entry 126). -/
theorem crcInit_access :
    CrcAccess (.crcInit u who) u.val who id (crcInitUnit u.val) s :=
  ⟨by rw [timed, id, Nat.max_self]; rfl, rfl⟩

theorem crcFeed8_access (v : BitVec 8) :
    CrcAccess (.crcFeed8 u who v) u.val who (crcWait u.val) (crcFeedUnit u.val [v]) s :=
  ⟨by rw [← p1_toNat]; rfl, rfl⟩

theorem crcFeed16_access (v : BitVec 16) :
    CrcAccess (.crcFeed16 u who v) u.val who (crcWait u.val)
      (crcFeedUnit u.val [v.setWidth 8, (v >>> 8).setWidth 8]) s :=
  ⟨by rw [← p2_toNat]; rfl, rfl⟩

theorem crcFeed32_access (v : BitVec 32) :
    CrcAccess (.crcFeed32 u who v) u.val who (crcWait u.val)
      (crcFeedUnit u.val
        [v.setWidth 8, (v >>> 8).setWidth 8, (v >>> 16).setWidth 8, (v >>> 24).setWidth 8]) s :=
  ⟨by rw [← p4_toNat]; rfl, rfl⟩

theorem crcValueWrite_access (v : BitVec 32) :
    CrcAccess (.crcValueWrite u who v) u.val who (crcWait u.val) (crcPutUnit u.val v.toNat) s :=
  ⟨rfl, rfl⟩

theorem crcCfgWrite_access (poly : Fin 4) (raw : Bool) :
    CrcAccess (.crcCfgWrite u who poly raw) u.val who (crcWait u.val)
      (crcCfgWrite u.val poly.val raw) s :=
  ⟨rfl, rfl⟩

end

section
variable {u : Fin 20} {who : Req} {s : State}

/-- R399, R401, R402: a feed that lands, once the unit is idle. -/
theorem CrcAccess.feeds {i : Instr} {bs : List Byte}
    (h : CrcAccess i u.val who (crcWait u.val) (crcFeedUnit u.val bs) s)
    (ho : CrcOpen who u.val s) : Answers i s fun t =>
      rd (Crc.CRC_VALUE u.val) t = crcFeed (crcAlg u.val s) (crcRaw u.val s) bs
      ∧ rd (Crc.CRC_BYTES u.val) t = (rd (Crc.CRC_BYTES u.val) s + bs.length) % 2 ^ 32
      ∧ kget 0 u.val s.crcBusy ≤ t.clk
      ∧ RegsBut [(Crc.CRC_VALUE u.val).addr, (Crc.CRC_BYTES u.val).addr] s t ∧ SameCue s t := by
  refine h.lands ho ⟨?_, ?_, ?_, ?_, ?_⟩
  · exact (crcValue_ended u.isLt _ _ _).trans (crcFeedUnit_value u.val (crcWait u.val s) bs)
  · exact (crcBytes_ended u.isLt _ _ _).trans (crcFeedUnit_bytes u.val (crcWait u.val s) bs)
  · exact Nat.le_trans (le_hopClk_clk _ s) (Nat.le_max_right _ _)
  · exact regsBut_ended (crcFeedUnit_regsBut u.val bs rfl) _ _
  · exact sameCue_ended ⟨rfl, rfl, rfl, rfl, rfl, rfl⟩ _ _

theorem crcInit_lands (ho : CrcOpen who u.val s) : Answers (.crcInit u who) s fun t =>
    rd (Crc.CRC_VALUE u.val) t = crcInit (crcAlg u.val s) ∧ rd (Crc.CRC_BYTES u.val) t = 0
      ∧ crcAlg u.val t = crcAlg u.val s := by
  refine (crcInit_access u who s).lands ho ⟨?_, ?_, ?_⟩
  · exact (crcValue_ended u.isLt _ _ _).trans (crcInitUnit_value u.val s)
  · exact (crcBytes_ended u.isLt _ _ _).trans (crcInitUnit_bytes u.val s)
  · exact crcAlg_congr u.val ((crcCfg_ended u.isLt _ _ _).trans (crcInitUnit_cfg u.val s))

theorem crcValueWrite_lands (ho : CrcOpen who u.val s) (v : BitVec 32) :
    Answers (.crcValueWrite u who v) s fun t =>
      rd (Crc.CRC_VALUE u.val) t = v.toNat % 2 ^ crcWidth (crcAlg u.val s)
      ∧ rd (Crc.CRC_BYTES u.val) t = rd (Crc.CRC_BYTES u.val) s := by
  refine (crcValueWrite_access u who s v).lands ho ⟨?_, ?_⟩
  · exact (crcValue_ended u.isLt _ _ _).trans (crcPutUnit_value u.val (crcWait u.val s) v.toNat)
  · exact (crcBytes_ended u.isLt _ _ _).trans (crcPutUnit_bytes u.val (crcWait u.val s) v.toNat)

theorem crcCfgWrite_lands (ho : CrcOpen who u.val s) (poly : Fin 4) (raw : Bool) :
    Answers (.crcCfgWrite u who poly raw) s fun t =>
      rd (Crc.CRC_CFG u.val) t = crcCfgWord poly raw
      ∧ (poly.val = crcAlg u.val s → rd (Crc.CRC_VALUE u.val) t = crcRaw u.val s
        ∧ rd (Crc.CRC_BYTES u.val) t = rd (Crc.CRC_BYTES u.val) s)
      ∧ (poly.val ≠ crcAlg u.val s → rd (Crc.CRC_VALUE u.val) t = crcInit poly.val
        ∧ rd (Crc.CRC_BYTES u.val) t = 0) := by
  refine (crcCfgWrite_access u who s poly raw).lands ho ?_
  rw [crcCfg_ended u.isLt, crcValue_ended u.isLt, crcBytes_ended u.isLt]
  exact ⟨crcCfgWrite_cfg u.val poly raw _, crcCfgWrite_same u.val poly raw (crcWait u.val s),
    crcCfgWrite_changed u.val poly raw (crcWait u.val s)⟩

end

/-- Settles O56: every command of the list is a `CrcAccess`, which is refused (`g3_ignored`,
`off_dropped`) or lands; what it then leaves is said per command. -/
theorem checkValueUnits : Obligations.CheckValueUnits := by
  intro u who s k alg value count feeds
  refine ⟨fun v poly raw i hi => ?_, fun ho => ?_⟩
  · have refuses {hop f : State → State} (h : CrcAccess i u.val who hop f s) :=
      And.intro h.g3_ignored h.off_dropped
    simp only [List.mem_cons, List.not_mem_nil, or_false] at hi
    obtain rfl | rfl | rfl | rfl | rfl | rfl := hi
    · exact refuses (crcInit_access u who s)
    · exact refuses (crcFeed8_access u who s _)
    · exact refuses (crcFeed16_access u who s _)
    · exact refuses (crcFeed32_access u who s v)
    · exact refuses (crcValueWrite_access u who s v)
    · exact refuses (crcCfgWrite_access u who s poly raw)
  · exact ⟨fun v => (crcFeed8_access u who s v).feeds ho,
      fun v => (crcFeed16_access u who s v).feeds ho,
      fun v => (crcFeed32_access u who s v).feeds ho,
      crcInit_lands ho, crcValueWrite_lands ho, crcCfgWrite_lands ho⟩

end Sys2Proof.Machine
end
